-- ==== Sys2Proof/Word.lean ====
section
/-!
DEFINITION. The word types of the module (R13 to R16) and the plainest arithmetic on them.
-/
namespace Sys2Proof

abbrev Byte := BitVec 8
abbrev W16 := BitVec 16
abbrev W32 := BitVec 32
abbrev W64 := BitVec 64
abbrev W128 := BitVec 128

/-- A core: a logical core, 0 to 511 (R79), or `512 + p` for a core site `p` that holds no logical core and serves as a quarantine
core (R503). -/
abbrev CoreId := BitVec 11

/-- `⌈a / b⌉`. -/
def ceilDiv (a b : Nat) : Nat := (a + b - 1) / b

/-- One bit of a word as a Bool. -/
def bitOf {n : Nat} (w : BitVec n) (i : Nat) : Bool := w.getLsbD i

end Sys2Proof
end

