-- ==== Sys2Proof/Machine/Crypto.lean ====
section
/-!
DEFINITION. The algorithms the spec names: SHA-256, HMAC and HKDF (R365, R373), SHA-384 (R52), AES-256-GCM (R366), AES-256-XTS
(R237, R300), CRC-32C (R211), CRC-32 (R53) and Philox-4x32-10 (R327), on lists of bytes.
-/
namespace Sys2Proof.Machine

def byteNat (n : Nat) : Byte := BitVec.ofNat 8 n

/-- `k` bytes of `n`, least significant first (R14). -/
def leBytes : Nat → Nat → List Byte
  | 0, _ => []
  | k + 1, n => byteNat n :: leBytes k (n / 256)

/-- `k` bytes of `n`, most significant first. -/
def beBytes (k n : Nat) : List Byte := (leBytes k n).reverse

def leNat (l : List Byte) : Nat := l.foldr (fun b n => b.toNat + 256 * n) 0
def beNat (l : List Byte) : Nat := l.foldl (fun n b => 256 * n + b.toNat) 0

def chunksFuel {α : Type} (n : Nat) : Nat → List α → List (List α)
  | 0, _ => []
  | k + 1, l => if l.isEmpty then [] else l.take n :: chunksFuel n k (l.drop n)

/-- Consecutive runs of `n` elements, the last one possibly shorter. -/
def chunksOf {α : Type} (n : Nat) (l : List α) : List (List α) := chunksFuel n l.length l

def xorBytes (a b : List Byte) : List Byte := List.zipWith (· ^^^ ·) a b

def strBytes (s : String) : List Byte := s.toList.map (fun c => byteNat c.toNat)

/-! ### SHA-256 and SHA-384: the constants are the first fraction bits of roots of the first primes -/

def isPrime (n : Nat) : Bool := decide (2 ≤ n) && (List.range n).all (fun d => decide (d < 2) || n % d != 0)

def firstPrimes (n : Nat) : List Nat := ((List.range 410).filter isPrime).take n

/-- The integer `k`-th root of `n`, from its bits below `b` downward, `r` being the part found. -/
def rootFrom (k n : Nat) : Nat → Nat → Nat
  | 0, r => r
  | b + 1, r => rootFrom k n b (if (r + 2 ^ b) ^ k ≤ n then r + 2 ^ b else r)

/-- The first `w` fraction bits of the `k`-th root of `p`. -/
def rootFraction (k w p : Nat) : Nat := rootFrom k (p * 2 ^ (k * w)) (w + 5) 0 % 2 ^ w

/-- A member of the SHA-2 family: word width, rounds, and its four mixing functions as rotations with, for the schedule, a shift. -/
structure ShaForm where
  width  : Nat
  rounds : Nat
  big0   : List Nat
  big1   : List Nat
  small0 : List Nat
  shift0 : Nat
  small1 : List Nat
  shift1 : Nat

def sha256Form : ShaForm := ⟨32, 64, [2, 13, 22], [6, 11, 25], [7, 18], 3, [17, 19], 10⟩
def sha512Form : ShaForm := ⟨64, 80, [28, 34, 39], [14, 18, 41], [1, 8], 7, [19, 61], 6⟩

def rotXor {w : Nat} (l : List Nat) (x : BitVec w) : BitVec w := l.foldl (fun a n => a ^^^ x.rotateRight n) 0

/-- `n` further schedule words, newest first. -/
def shaExtend (F : ShaForm) : Nat → List (BitVec F.width) → List (BitVec F.width)
  | 0, w => w.reverse
  | n + 1, w =>
    let back := fun i => w.getD (i - 1) 0
    let late := rotXor F.small1 (back 2) ^^^ (back 2 >>> F.shift1)
    let early := rotXor F.small0 (back 15) ^^^ (back 15 >>> F.shift0)
    shaExtend F n ((late + back 7 + early + back 16) :: w)

/-- One round with the sum of its constant and its schedule word, on the eight working words. -/
def shaMix (F : ShaForm) (h : List (BitVec F.width)) (kw : BitVec F.width) : List (BitVec F.width) :=
  let v := fun i => h.getD i 0
  let choose := (v 4 &&& v 5) ^^^ (~~~(v 4) &&& v 6)
  let most := (v 0 &&& v 1) ^^^ (v 0 &&& v 2) ^^^ (v 1 &&& v 2)
  let t := v 7 + rotXor F.big1 (v 4) + choose + kw
  [t + rotXor F.big0 (v 0) + most, v 0, v 1, v 2, v 3 + t, v 4, v 5, v 6]

def shaKeys (F : ShaForm) : List (BitVec F.width) := (firstPrimes F.rounds).map (fun p => BitVec.ofNat F.width (rootFraction 3 F.width p))

def shaBlock (F : ShaForm) (h : List (BitVec F.width)) (blk : List Byte) : List (BitVec F.width) :=
  let w := (chunksOf (F.width / 8) blk).map (fun b => BitVec.ofNat F.width (beNat b))
  List.zipWith (· + ·) h ((List.zipWith (· + ·) (shaKeys F) (shaExtend F (F.rounds - 16) w.reverse)).foldl (shaMix F) h)

/-- The digest words of a message from an initial value. -/
def shaDigest (F : ShaForm) (init : List (BitVec F.width)) (m : List Byte) : List Byte :=
  let blk := 2 * F.width
  let len := F.width / 4
  let p := m ++ byteNat 128 :: List.replicate ((2 * blk - 1 - len - m.length % blk) % blk) 0#8 ++ beBytes len (8 * m.length)
  ((chunksOf blk p).foldl (shaBlock F) init).flatMap (fun w => beBytes (F.width / 8) w.toNat)

def sha256 (m : List Byte) : List Byte :=
  shaDigest sha256Form ((firstPrimes 8).map (fun p => BitVec.ofNat 32 (rootFraction 2 32 p))) m

/-- R52. -/
def sha384 (m : List Byte) : List Byte :=
  (shaDigest sha512Form (((firstPrimes 16).drop 8).map (fun p => BitVec.ofNat 64 (rootFraction 2 64 p))) m).take 48

def hmacSha256 (key m : List Byte) : List Byte :=
  let k := if 64 < key.length then sha256 key else key
  let k := k ++ List.replicate (64 - k.length) 0#8
  sha256 (k.map (· ^^^ 0x5c#8) ++ sha256 (k.map (· ^^^ 0x36#8) ++ m))

/-- HKDF-SHA-256 (RFC 5869) to at most 32 bytes. -/
def hkdf32 (salt ikm info : List Byte) : List Byte :=
  hmacSha256 (hmacSha256 (if salt.isEmpty then List.replicate 32 0#8 else salt) ikm) (info ++ [1#8])

/-! ### AES-256-GCM -/

def xtime (b : Byte) : Byte := if bitOf b 7 then (b <<< 1) ^^^ 0x1b#8 else b <<< 1

def gfMul8 (a b : Byte) : Byte :=
  ((List.range 8).foldl (fun (p : Byte × Byte) i => (if bitOf b i then p.1 ^^^ p.2 else p.1, xtime p.2)) (0#8, a)).1

/-- The inverse in GF(2^8) as the 254th power; 0 for 0. -/
def gfInv8 (a : Byte) : Byte :=
  ((List.range 7).foldl (fun (p : Byte × Byte) _ => let q := gfMul8 p.2 p.2; (gfMul8 p.1 q, q)) (1#8, a)).1

def aesSub (b : Byte) : Byte :=
  let i := gfInv8 b
  i ^^^ i.rotateLeft 1 ^^^ i.rotateLeft 2 ^^^ i.rotateLeft 3 ^^^ i.rotateLeft 4 ^^^ 0x63#8

/-- The key schedule's next words: word `i` from the words so far, newest first. -/
def aesExpand : Nat → Nat → Byte → List (List Byte) → List (List Byte)
  | 0, _, _, w => w.reverse
  | n + 1, i, rc, w =>
    let t := w.headD []
    let t' := if i % 8 = 0 then
        (match (t.drop 1 ++ t.take 1).map aesSub with | b :: r => (b ^^^ rc) :: r | [] => [])
      else if i % 8 = 4 then t.map aesSub else t
    aesExpand n (i + 1) (if i % 8 = 0 then xtime rc else rc) (xorBytes (w.getD 7 []) t' :: w)

/-- The 15 round keys of AES-256. -/
def aesKeys (key : List Byte) : List (List Byte) :=
  (chunksOf 4 (aesExpand 52 8 1#8 (chunksOf 4 key).reverse)).map (fun l => l.flatMap id)

def shiftRows (s : List Byte) : List Byte := (List.range 16).map (fun i => s.getD ((i + 4 * (i % 4)) % 16) 0#8)

def mixColumn (c : List Byte) : List Byte :=
  (List.range 4).map (fun i =>
    let g := fun j => c.getD ((i + j) % 4) 0#8
    xtime (g 0) ^^^ (xtime (g 1) ^^^ g 1) ^^^ g 2 ^^^ g 3)

def aesRounds : List (List Byte) → List Byte → List Byte
  | [], s => s
  | [k], s => xorBytes (shiftRows (s.map aesSub)) k
  | k :: ks, s => aesRounds ks (xorBytes ((chunksOf 4 (shiftRows (s.map aesSub))).flatMap mixColumn) k)

def aesEncrypt (keys : List (List Byte)) (b : List Byte) : List Byte :=
  aesRounds (keys.drop 1) (xorBytes b (keys.headD []))

/-- Multiplication in GCM's field, bit 127 of the number being the coefficient of `x^0`. -/
def gcmMul (x y : Nat) : Nat :=
  ((List.range 128).foldl (fun (p : Nat × Nat) i =>
    (if x.testBit (127 - i) then p.1 ^^^ p.2 else p.1,
     if p.2 % 2 = 1 then (p.2 / 2) ^^^ (0xe1 <<< 120) else p.2 / 2)) (0, y)).1

def ghash (h : Nat) (d : List Byte) : Nat :=
  (chunksOf 16 d).foldl (fun y b => gcmMul (y ^^^ beNat (b ++ List.replicate (16 - b.length) 0#8)) h) 0

def pad16 (l : List Byte) : List Byte := l ++ List.replicate ((16 - l.length % 16) % 16) 0#8

/-- Counter mode from block counter `c`. -/
def gcmCtr (keys : List (List Byte)) (nonce : List Byte) (c : Nat) (m : List Byte) : List Byte :=
  ((chunksOf 16 m).zipIdx c).flatMap (fun p => xorBytes p.1 (aesEncrypt keys (nonce ++ beBytes 4 p.2)))

def gcmTag (keys : List (List Byte)) (nonce aad ct : List Byte) : List Byte :=
  let h := beNat (aesEncrypt keys (List.replicate 16 0#8))
  let d := pad16 aad ++ pad16 ct ++ beBytes 8 (8 * aad.length) ++ beBytes 8 (8 * ct.length)
  xorBytes (beBytes 16 (ghash h d)) (aesEncrypt keys (nonce ++ beBytes 4 1))

/-- Ciphertext and tag (R366). -/
def gcmSeal (key nonce aad m : List Byte) : List Byte × List Byte :=
  let k := aesKeys key
  let ct := gcmCtr k nonce 2 m
  (ct, gcmTag k nonce aad ct)

/-- Plaintext, when the tag verifies. -/
def gcmOpen (key nonce aad ct tag : List Byte) : Option (List Byte) :=
  let k := aesKeys key
  if gcmTag k nonce aad ct = tag then some (gcmCtr k nonce 2 ct) else none

/-! ### AES-256-XTS (R237, R300) -/

def aesUnsub (b : Byte) : Byte := BitVec.ofNat 8 (((List.range 256).find? (fun n => aesSub (byteNat n) == b)).getD 0)
def unshiftRows (s : List Byte) : List Byte := (List.range 16).map (fun i => s.getD ((i + 12 * (i % 4)) % 16) 0#8)

def unmixColumn (c : List Byte) : List Byte :=
  (List.range 4).map (fun i =>
    let g := fun (j : Nat) (k : Byte) => gfMul8 (c.getD ((i + j) % 4) 0#8) k
    g 0 14#8 ^^^ g 1 11#8 ^^^ g 2 13#8 ^^^ g 3 9#8)

/-- The rounds undone, the round keys given last first. -/
def aesUnrounds : List (List Byte) → List Byte → List Byte
  | [], s => s
  | [k], s => xorBytes s k
  | k :: ks, s => aesUnrounds ks ((unshiftRows ((chunksOf 4 (xorBytes s k)).flatMap unmixColumn)).map aesUnsub)

def aesDecrypt (keys : List (List Byte)) (b : List Byte) : List Byte :=
  match keys.reverse with
  | [] => b
  | k :: ks => aesUnrounds ks ((unshiftRows (xorBytes b k)).map aesUnsub)

/-- The tweak's powers, one per block of 16 bytes, as numbers least significant byte first. -/
def xtsTweaks : Nat → Nat → List Nat
  | 0, _ => []
  | n + 1, t => t :: xtsTweaks n ((2 * t) % 2 ^ 128 ^^^ (if t / 2 ^ 127 = 1 then 0x87 else 0))

/-- A data unit of whole blocks under a 512-bit key: the data key, then the tweak key. -/
def xtsApply (f : List (List Byte) → List Byte → List Byte) (k1 k2 : List Byte) (tweak : Nat) (m : List Byte) : List Byte :=
  let keys := aesKeys k1
  let t0 := leNat (aesEncrypt (aesKeys k2) (leBytes 16 tweak))
  (List.zipWith (fun b t => xorBytes (f keys (xorBytes b (leBytes 16 t))) (leBytes 16 t)) (chunksOf 16 m)
    (xtsTweaks (m.length / 16) t0)).flatMap id

def xtsEncrypt (k1 k2 : List Byte) (tweak : Nat) (m : List Byte) : List Byte := xtsApply aesEncrypt k1 k2 tweak m
def xtsDecrypt (k1 k2 : List Byte) (tweak : Nat) (m : List Byte) : List Byte := xtsApply aesDecrypt k1 k2 tweak m

/-! ### CRC-32C, CRC-32 and Philox -/

/-- One byte through a reflected CRC of 32 bits with polynomial `p`. -/
def crcByte (p c : W32) (b : Byte) : W32 :=
  (List.range 8).foldl (fun c _ => if bitOf c 0 then (c >>> 1) ^^^ p else c >>> 1) (c ^^^ b.setWidth 32)

def crcOf (p : W32) (l : List Byte) : W32 := ~~~(l.foldl (crcByte p) 0xFFFFFFFF#32)

def crc32c (l : List Byte) : W32 := crcOf 0x82F63B78#32 l
def crc32 (l : List Byte) : W32 := crcOf 0xEDB88320#32 l

def philoxRound (c : W32 × W32 × W32 × W32) (k0 k1 : W32) : W32 × W32 × W32 × W32 :=
  let (c0, c1, c2, c3) := c
  let p0 := 0xD2511F53 * c0.toNat
  let p1 := 0xCD9E8D57 * c2.toNat
  (BitVec.ofNat 32 (p1 / 2 ^ 32) ^^^ c1 ^^^ k0, BitVec.ofNat 32 p1,
   BitVec.ofNat 32 (p0 / 2 ^ 32) ^^^ c3 ^^^ k1, BitVec.ofNat 32 p0)

/-- Philox-4x32-10 (R327). -/
def philox (k0 k1 : W32) (c : W32 × W32 × W32 × W32) : W32 × W32 × W32 × W32 :=
  (List.range 10).foldl (fun c i =>
    philoxRound c (k0 + BitVec.ofNat 32 (i * 0x9E3779B9)) (k1 + BitVec.ofNat 32 (i * 0xBB67AE85))) c

end Sys2Proof.Machine
end

