-- ==== Sys2Proof/Syntax.lean ====
section
/-!
DEFINITION. The commands of the module: one constructor of `Instr` for each row of the table of operations and events, with the
operands that the row's rule gives it. Operand records follow the message layouts of the host-link chapter.
-/
namespace Sys2Proof

/-- The seven engines of a core (R82). -/
inductive EngineId where
  | m | v | s | g | q | c | x
  deriving DecidableEq, Repr

/-- The issue fields of an engine instruction word, bits [115:88] (R83). -/
structure Hdr where
  sigen   : Bool
  sigtok  : BitVec 6
  waen    : Bool
  watok   : BitVec 6
  wben    : Bool
  wbtok   : BitVec 6
  consume : Bool
  release : Bool
  rsvd    : BitVec 5
  deriving DecidableEq, Repr

/-- A request's name inside the module: the function it was taken from (0 PF, 1 to 8 a VF, 0xFF the sideband) and its request ID
(R390, R400). -/
structure ReqId where
  func : Byte
  rid  : W64
  deriving DecidableEq, Repr

/-! ### What leaves a work unit -/

/-- One real entry of a search result (R275). -/
structure Entry where
  pid    : Nat
  score  : Int
  source : W32
  deriving DecidableEq, Repr

/-- What one stage of a search hands on (R273, R275). -/
structure SearchOut where
  entries    : List Entry
  ranked     : Nat
  skipped    : Nat
  scored     : Nat
  filtered   : Nat
  tombstoned : Nat
  deriving DecidableEq, Repr

/-- What a unit's end tells Wenik, the sampling unit or the Infuser (log 12): which stage has ended for which request. `peers` holds the
entries of the other shard holders (R272), the counters are those that R275 calls timing-dependent. -/
inductive UnitResult where
  | none
  | tokenized (r : ReqId)
  | searched (r : ReqId) (peers : List Entry) (skipped scored filtered tombstoned : Nat)
  | reranked (r : ReqId)
  | packed (r : ReqId)
  | sampled (rows : List ReqId)
  deriving DecidableEq, Repr

/-- What a memory response brings (R240, R242, R245, R506). -/
inductive ReadQuality where
  | good | corrected | uncorrectable | poisoned
  deriving DecidableEq, Repr

/-- The work-unit descriptor (R95). -/
structure UnitDesc where
  unitId    : Nat
  owner     : Option ReqId
  members   : List ReqId
  program   : Nat
  count     : Nat
  estimate  : Nat
  core      : W16
  glade     : Nat
  slotBase  : Nat
  slotCount : Nat
  preds     : Nat
  succs     : List Nat
  deriving DecidableEq, Repr

/-- A multicast group of the Step Scheduler's table (R227): its leader and its member units. -/
structure GroupDesc where
  group   : Nat
  leader  : Nat
  members : List Nat
  deriving DecidableEq, Repr

/-- A link-unit kind (R458). -/
inductive LinkKind where
  | allreduce | allgather | gather | broadcast | send
  deriving DecidableEq, Repr

/-- The link-unit descriptor (R458). -/
structure LinkDesc where
  unitId   : Nat
  owner    : Option ReqId
  members  : List ReqId
  root     : Byte
  format   : Byte
  bytes    : Nat
  source   : Nat
  dest     : Nat
  estimate : Nat
  preds    : Nat
  succs    : List Nat
  deriving DecidableEq, Repr

/-- A tile as it is written outside the engines: its key (device address over 16,384; T3 from 2^32), its descriptor (R211) and its
first bytes (log 13). -/
structure TileImage where
  key   : Nat
  desc  : BitVec 512
  bytes : List Byte
  deriving DecidableEq, Repr

/-- The trunk layer a unit works in, and the experts of it whose W-tiles it reads (R48, R58). -/
structure UnitWork where
  unit    : Nat
  layer   : Nat
  experts : List Nat
  deriving DecidableEq, Repr

/-- What a step boundary commits (R319): the new work units, link units and groups, the trunk layers that units work in, the step's
plan-table power at each operating point in W, ascending (R473), and the tiles Wenik has written for it (programs, segments, freed tiles). -/
structure BoundaryPlan where
  units  : List UnitDesc
  links  : List (LinkKind × LinkDesc)
  groups : List GroupDesc
  work   : List UnitWork
  power  : List (Nat × Nat)
  tiles  : List TileImage
  deriving DecidableEq, Repr

/-- How a Clearing's replay ended (R501). -/
inductive ReplayOutcome where
  | completed
  | stopped (code : Nat) (sameAsFirst : Bool)
  deriving DecidableEq, Repr

/-! ### Messages -/

/-- The 32-byte header with the queue it was taken from (R390, R421). `bodyRead` says that the body could be read (R384), `layoutOk`
that its length fits its layout (R398), `bodyRsvd` that some reserved field of the body is not 0 (R17). -/
structure MsgHead where
  func     : Byte
  pair     : Nat
  version  : Byte
  flags    : W16
  session  : W32
  rid      : W64
  bodyLen  : W32
  reserved : W32
  bodyRead : Bool
  layoutOk : Bool
  bodyRsvd : Bool
  deriving DecidableEq, Repr

/-- What a provisioning blob holds once the vault has opened it (R365); `ok` is false when the blob fails. -/
structure Blob where
  ok         : Bool
  password   : Bool
  key        : BitVec 256
  salt       : BitVec 256
  iterations : Nat
  kek        : BitVec 256
  deriving DecidableEq, Repr

structure HelloBody where
  role      : Byte
  principal : W16
  hostNonce : BitVec 256
  objects   : Nat
  blob      : Option Blob
  replyLen  : Nat
  deriving DecidableEq, Repr

/-- R401. -/
structure LoadModelBody where
  source    : Byte
  mode      : Byte
  flags     : Byte
  storeSlot : Byte
  objects   : Nat
  t2        : Nat
  t3        : Nat
  deriving DecidableEq, Repr

/-- R402; the dimension, the format of the codebooks (BF16 or FP32) and the bytes in T2 and T3 are read from the component object
(log 13). -/
structure LoadIndexBody where
  handle      : Nat
  action      : Byte
  residency   : Byte
  flags       : Byte
  metric      : Byte
  ownerTenant : Nat
  m           : Nat
  codeForm    : Byte
  nReg        : Nat
  shardIndex  : Nat
  shardCount  : Nat
  lam         : Nat
  attrs       : Nat
  coarse      : Byte
  pi          : W32
  sigma       : W32
  beta        : W32
  rho         : W32
  fingerprint : W128
  dim         : Nat
  residual16  : Bool
  objects     : Nat
  t2bytes     : Nat
  t3bytes     : Nat
  deriving DecidableEq, Repr

/-- One item entry (R403). -/
structure ItemEntry where
  object : Nat
  tenant : W16
  attrCount : Nat
  acl    : W32
  stamp  : W64
  attrs  : List W32
  deriving DecidableEq, Repr

/-- R403. -/
structure IngestBody where
  handle    : Nat
  chunk     : Nat
  overlap   : Nat
  profile   : Nat
  reportLen : Nat
  items     : List ItemEntry
  deriving DecidableEq, Repr

/-- R405. -/
structure DeleteBody where
  handle    : Nat
  ranges    : List (Nat × Nat)
  reportLen : Nat
  deriving DecidableEq, Repr

/-- R406. -/
structure MergeBody where
  handle   : Nat
  target   : Byte
  flags    : Byte
  tombFrac : W32
  liveFrac : W32
  deriving DecidableEq, Repr

/-- One predicate of a filter (R259). -/
structure Predicate where
  attr : Nat
  low  : W32
  high : W32
  deriving DecidableEq, Repr

/-- The filter block a request carries (R259, R407): predicates and, when present, the admitted ACL classes. -/
structure FilterBody where
  tenant : W16
  flags  : Byte
  preds  : List Predicate
  acl    : Option (List Nat)
  deriving DecidableEq, Repr

/-- The parameter object (R317, R409). -/
structure ParamObj where
  temperature : W32
  topK        : Nat
  topP        : W32
  minP        : W32
  repetition  : W32
  presence    : W32
  window      : Nat
  minNew      : Nat
  seed        : W64
  flags       : Byte
  grammar     : W16
  rsvd        : Bool
  biases      : List (Nat × W32)
  stops       : List (List Byte)
  deriving DecidableEq, Repr

/-- A sealed text: its plaintext length, whether its tag verifies, and its bytes (R335, R366). -/
structure TextObj where
  len   : Nat
  tagOk : Bool
  bytes : List Byte
  deriving DecidableEq, Repr

/-- R407. -/
structure QueryBody where
  handle   : Nat
  version  : Nat
  pr       : Nat
  p        : Nat
  pMax     : Nat
  k        : Nat
  profile  : Nat
  flags    : W16
  budget   : Nat
  maxNew   : Nat
  ttft     : Nat
  interval : Nat
  outLen   : Nat
  filter   : FilterBody
  objects  : Nat
  params   : ParamObj
  text     : TextObj
  deriving DecidableEq, Repr

/-- R408. -/
structure GenBody where
  cap      : Nat
  maxNew   : Nat
  ttft     : Nat
  interval : Nat
  flags    : W16
  objects  : Nat
  outLen   : Nat
  params   : ParamObj
  text     : TextObj
  deriving DecidableEq, Repr

/-- The tenant binding of TENANT_BIND and TENANT_SET (R411). -/
structure TenantBody where
  tenant  : Nat
  glade   : Nat
  cls     : Byte
  rights  : Byte
  kind    : Byte
  grants  : List Nat
  deriving DecidableEq, Repr

/-- The operator binding of OPERATOR_BIND and OPERATOR_SET (R411). -/
structure OperatorBody where
  operator : Nat
  glades   : Byte
  rights   : Byte
  kind     : Byte
  deriving DecidableEq, Repr

/-- The key policy (R376, R411). -/
structure Policy where
  passwords  : Byte
  iterations : Nat
  lifetime   : Nat
  idle       : Nat
  sideband   : Byte
  deriving DecidableEq, Repr

/-- A rate and a depth of one regulator (R425). -/
structure RateDepth where
  rate  : Nat
  depth : Nat
  deriving DecidableEq, Repr

/-- The Glade settings (R425). -/
structure GladeSettings where
  glade   : Nat
  cores   : Nat
  entries : Nat
  kvCap   : Nat
  t2      : RateDepth
  t3      : RateDepth
  grove   : RateDepth
  hostOut : RateDepth
  hostIn  : RateDepth
  deriving DecidableEq, Repr

/-- The profile record (R440), times in microseconds. -/
structure Profile where
  id       : Nat
  deadline : Nat
  embed    : Nat
  sharded  : Nat
  flash    : Nat
  rerank   : Nat
  pack     : Nat
  pairLen  : Nat
  deriving DecidableEq, Repr

/-- A row of a feature table as a message carries it (R176, R197): index, scale, offset, codes. -/
structure RowRecord where
  index  : Nat
  scale  : W16
  offset : W16
  codes  : List Byte
  deriving DecidableEq, Repr

/-- SET_FORM's payload (R452). -/
structure SetBody where
  setId   : Nat
  n       : Nat
  index   : Nat
  members : List (W128 × W128)
  deriving DecidableEq, Repr

/-! ### Components of an index -/

/-- The bytes of one W-tile of a coarse centroid matrix, elements and HB4 scales (R112, R113, R249). -/
structure WTile where
  elems : List Byte
  side  : List Byte
  deriving DecidableEq, Repr

/-- The components of R249 that an index keeps for its life (R247): the W-tiles of the region centroids and of each region's list
centroids (for each block of columns, the groups of D in ascending order), the norm terms and residual centroids of an L2 index, and the
codebooks. -/
structure IndexParts where
  regions     : List WTile
  lists       : List (List WTile)
  regionNorms : List W32
  listNorms   : List W32
  centroids   : List (List W32)
  residual    : List (List (List W32))
  flat        : List (List (List W32))
  deriving DecidableEq, Repr

/-- What the region level of a coarse stage brings (R249): its W-tiles, and the norm terms of an L2 index. -/
structure RegionParts where
  tiles : List WTile
  norms : List W32
  deriving DecidableEq, Repr

/-- What the list level brings (R249): the W-tiles of each region, and for L2 the norm terms and the residual centroids. -/
structure ListParts where
  tiles     : List (List WTile)
  norms     : List W32
  centroids : List (List W32)
  deriving DecidableEq, Repr

/-- What a RESERVE frame asks of a shard holder (R27): the lists probed and the search budget in µs. -/
structure FarSearch where
  lists  : Nat
  budget : Nat
  deriving DecidableEq, Repr

/-! ### Image contents -/

/-- A section-table entry (R53). -/
structure Section where
  type      : Nat
  flags     : W16
  locator   : W32
  offset    : Nat
  size      : Nat
  placement : Nat
  format    : Nat
  reserved  : W16
  crc       : W32
  deriving DecidableEq, Repr

/-- MODEL_PARAMS (R55). -/
structure ModelParams where
  layers    : Nat
  e         : Nat
  r         : Nat
  firstMoe  : Nat
  hidden    : Nat
  ffn       : Nat
  expertFfn : Nat
  heads     : Nat
  kvHeads   : Nat
  headDim   : Nat
  routed    : Nat
  active    : Nat
  shared    : Nat
  pooling   : Nat
  norm      : Nat
  dim       : Nat
  vocab     : Nat
  context   : Nat
  rotary    : W32
  eps       : W32
  act       : Nat
  eos       : Nat
  coldSlots : Nat
  rsvd      : Bool
  deriving DecidableEq, Repr

/-- One entry of the vocabulary (R338): kind 0 TEXT, 1 BYTE, 2 SPECIAL. -/
structure VocabEntry where
  kind  : Nat
  bytes : List Byte
  deriving DecidableEq, Repr

/-- The VOCAB section (R337, R338). -/
structure Vocab where
  magicOk  : Bool
  buckets  : Nat
  seed     : W32
  lmax     : Nat
  probe    : Nat
  byteBase : Nat
  entries  : List VocabEntry
  table    : List (Nat × Nat × Nat)
  rsvd     : Bool
  deriving DecidableEq, Repr

/-- One state of a grammar: its transitions, class and next state, in ascending class, and the classes its bitmap allows (R353). -/
structure GrammarState where
  trans  : List (Nat × Nat)
  bitmap : List Nat
  deriving DecidableEq, Repr

/-- A GRAMMAR section (R352, R353): class of each token (listed, or the default). -/
structure Grammar where
  magicOk : Bool
  vocab   : Nat
  classes : Nat
  start   : Nat
  classOf : List (Nat × Nat)
  default : Nat
  states  : List GrammarState
  rsvd    : Bool
  deriving DecidableEq, Repr

/-- The TEMPLATE section (R357): nine runs in table order. -/
structure Template where
  magicOk     : Bool
  maxPassages : Nat
  perPassage  : Nat
  runs        : List (List Nat)
  rsvd        : Bool
  deriving DecidableEq, Repr

/-- What a row of the plan table costs (R434). -/
inductive PlanKind where
  | embed | searchSharded | searchFlash | rerank | pack | prefill | decode | ingest | unit | coldFetch
  deriving DecidableEq, Repr

/-- A row of the plan table, for sizes up to `upto` (R434, R471; log 14): time in µs at 1,200 MHz, power in W for each operating point in
MHz, core time in core-µs, search contexts, units on the longest chain of starts (R104), and collectives with their bytes (R461). -/
structure PlanRow where
  kind     : PlanKind
  upto     : Nat
  time     : Nat
  power    : List (Nat × Nat)
  cores    : Nat
  contexts : Nat
  chain    : Nat
  links    : List (LinkKind × Nat)
  deriving DecidableEq, Repr

/-- One entry of the RERANK_HEAD's feature-table list (R188). -/
structure FeatureEntry where
  table : Nat
  kind  : Nat
  bag   : Nat
  rows  : Nat
  width : Nat
  rsvd  : Nat
  salt  : W128
  deriving DecidableEq, Repr

/-- A table section of the image (R174): table number, rows, width and code width, and its base address in T2. -/
structure TableSection where
  table : Nat
  rows  : Nat
  width : Nat
  code  : Nat
  base  : Nat
  deriving DecidableEq, Repr

/-- An image (R52 to R57): its header, its section table, the bytes behind the section table (`data`), and what Wenik reads from the
sections: parameters, vocabulary, template, grammars in the order of their sections, feature-table list, tables with their base addresses,
and the plan table with the exponents of R311 for each layer (log 14): `maxPower` the mW of a core under the most power-hungry unit
class at each point in MHz, `energy` the pJ of a byte of T2, T3, Grove and host transfers (R471, R472). -/
structure ImageMeta where
  magicOk     : Bool
  version     : Nat
  headerSize  : Nat
  imageId     : W128
  fingerprint : W128
  digest      : BitVec 384
  slices      : Nat
  slice       : Nat
  headerRsvd  : Bool
  t2          : Nat
  t3          : Nat
  size        : Nat
  sections    : List Section
  data        : List Byte
  params      : ModelParams
  vocab       : Vocab
  template    : Template
  grammars    : List Grammar
  features    : List FeatureEntry
  tables      : List TableSection
  plan        : List PlanRow
  maxPower    : List (Nat × Nat)
  energy      : List Nat
  kappa       : List (Int × Int)
  deriving DecidableEq, Repr

/-! ### Events -/

/-- What a start finds (R492, R498): the step that fails, if one does, and the components that are left out. -/
structure StartReport where
  failStep    : Option Nat
  controllers : List Nat
  sites       : List Nat
  stackList   : List Nat
  channels    : List Nat
  flash       : List Nat
  ports       : List Nat
  storeInT3   : Bool
  imageOk     : Bool
  vf          : List Nat
  slotId      : BitVec 4
  deriving DecidableEq, Repr

/-- What an Understory OPEN packet carries (R301). -/
structure ScanOpen where
  tag     : W64
  handle  : Nat
  version : Nat
  m       : Nat
  code    : Nat
  metric  : Nat
  attrs   : Nat
  nMax    : Nat
  k       : Nat
  key     : W32
  filter  : FilterBody
  deriving DecidableEq, Repr

/-- A table-set header with its tables (R257, R301): `env` lists, per subquantizer, the codes the envelope admits. -/
structure TableSet where
  listWord : W32
  bias     : Int
  hasEnv   : Bool
  env      : List (List Nat)
  gMin     : Nat
  gMax     : Nat
  tables   : List (List Int)
  deriving DecidableEq, Repr

/-- One segment of a SEGMENTS packet (R301): T3 tile index and the tombstoned record numbers. -/
structure SegmentRef where
  tile  : Nat
  tombs : List Nat
  deriving DecidableEq, Repr

/-- What the slices of one image share (R65). -/
structure SliceInfo where
  imageId     : W128
  fingerprint : W128
  params      : ModelParams
  deriving DecidableEq, Repr

/-- One control frame of a set (R447): what a peer reports. -/
inductive ControlInfo where
  | digest (member : Nat) (payload : BitVec 256) (wenik : Nat) (portsUp : Bool)
  | ready (member : Nat) (on : Bool)
  | verified (member : Nat) (slice : Option SliceInfo)
  | accepted (member : Nat) (r : ReqId)
  | committed (member : Nat) (r : ReqId)
  | failed (member : Nat) (r : ReqId)
  | released (member : Nat) (r : ReqId)
  | entry (member : Nat) (r : ReqId) (pages : Nat)
  | left (member : Nat) (r : ReqId)
  | token (member : Nat) (r : ReqId) (t : Nat)
  | deletes (member : Nat) (r : ReqId) (handle : Nat) (tenant : Option Nat) (ranges : List (Nat × Nat))
  deriving DecidableEq, Repr

/-- What ended a host memory read (R384, R366). -/
inductive ReadEnd where
  | data | error | poisoned | timeout | badTag
  deriving DecidableEq, Repr

/-- What the read was for (R384). -/
inductive ReadFor where
  | body | object (item : Option Nat)
  deriving DecidableEq, Repr

/-- What the inbound cipher leaves for an X lane: an object entry (R367). -/
structure ObjectEntry where
  number : Nat
  keyOf  : W32
  nonce  : BitVec 96
  length : Nat
  tiles  : List TileImage
  deriving DecidableEq, Repr

/-- The commands, one constructor for each row of the table. -/
inductive Instr where
  -- dispatcher operations (R84)
  | nop (core : CoreId) (h : Hdr) (o : BitVec 88)
  | endUnit (core : CoreId) (h : Hdr) (o : BitVec 88)
  | loop (core : CoreId) (h : Hdr) (o : BitVec 88)
  | slotfree (core : CoreId) (h : Hdr) (o : BitVec 88)
  | tokclr (core : CoreId) (h : Hdr) (o : BitVec 88)
  | drain (core : CoreId) (h : Hdr) (o : BitVec 88)
  -- M engine (R126)
  | mload (core : CoreId) (h : Hdr) (o : BitVec 88)
  | mswap (core : CoreId) (h : Hdr) (o : BitVec 88)
  | mstream (core : CoreId) (h : Hdr) (o : BitVec 88)
  | macc (core : CoreId) (h : Hdr) (o : BitVec 88)
  -- V engine (R150)
  | vadd (core : CoreId) (h : Hdr) (o : BitVec 88)
  | vsub (core : CoreId) (h : Hdr) (o : BitVec 88)
  | vmul (core : CoreId) (h : Hdr) (o : BitVec 88)
  | vfma (core : CoreId) (h : Hdr) (o : BitVec 88)
  | vscale (core : CoreId) (h : Hdr) (o : BitVec 88)
  | vmax (core : CoreId) (h : Hdr) (o : BitVec 88)
  | vmin (core : CoreId) (h : Hdr) (o : BitVec 88)
  | vcvt (core : CoreId) (h : Hdr) (o : BitVec 88)
  | vexp (core : CoreId) (h : Hdr) (o : BitVec 88)
  | vrsqrt (core : CoreId) (h : Hdr) (o : BitVec 88)
  | vsilu (core : CoreId) (h : Hdr) (o : BitVec 88)
  | vswiglu (core : CoreId) (h : Hdr) (o : BitVec 88)
  | vgelu (core : CoreId) (h : Hdr) (o : BitVec 88)
  | vgeglu (core : CoreId) (h : Hdr) (o : BitVec 88)
  | vsum (core : CoreId) (h : Hdr) (o : BitVec 88)
  | vsumsq (core : CoreId) (h : Hdr) (o : BitVec 88)
  | vdot (core : CoreId) (h : Hdr) (o : BitVec 88)
  | vmaxr (core : CoreId) (h : Hdr) (o : BitVec 88)
  | vrmsnorm (core : CoreId) (h : Hdr) (o : BitVec 88)
  | vnorm2 (core : CoreId) (h : Hdr) (o : BitVec 88)
  | vsoftmax (core : CoreId) (h : Hdr) (o : BitVec 88)
  | vrope (core : CoreId) (h : Hdr) (o : BitVec 88)
  | packa (core : CoreId) (h : Hdr) (o : BitVec 88)
  | dtip (core : CoreId) (h : Hdr) (o : BitVec 88)
  | dtl2 (core : CoreId) (h : Hdr) (o : BitVec 88)
  | sload (core : CoreId) (h : Hdr) (o : BitVec 88)
  | sstore (core : CoreId) (h : Hdr) (o : BitVec 88)
  -- S engine (R164)
  | topk (core : CoreId) (h : Hdr) (o : BitVec 88)
  | argmax (core : CoreId) (h : Hdr) (o : BitVec 88)
  | thresh (core : CoreId) (h : Hdr) (o : BitVec 88)
  -- G engine (R182)
  | gpool (core : CoreId) (h : Hdr) (o : BitVec 88)
  -- Q engine (R262)
  | qopen (core : CoreId) (h : Hdr) (o : BitVec 88)
  | qscan (core : CoreId) (h : Hdr) (o : BitVec 88)
  | qdrain (core : CoreId) (h : Hdr) (o : BitVec 88)
  -- C engine (R222)
  | ctile (core : CoreId) (h : Hdr) (o : BitVec 88)
  | clist (core : CoreId) (h : Hdr) (o : BitVec 88)
  | cpart (core : CoreId) (h : Hdr) (o : BitVec 88)
  | cmcast (core : CoreId) (h : Hdr) (o : BitVec 88)
  | crecv (core : CoreId) (h : Hdr) (o : BitVec 88)
  | csetd (core : CoreId) (h : Hdr) (o : BitVec 88)
  -- X engine (R368)
  | xdec (core : CoreId) (h : Hdr) (o : BitVec 88)
  | xenc (core : CoreId) (h : Hdr) (o : BitVec 88)
  | xopen (core : CoreId) (h : Hdr) (o : BitVec 88)
  | xseal (core : CoreId) (h : Hdr) (o : BitVec 88)
  -- core and engine events
  | instructionComplete (core : CoreId) (e : EngineId) (res : UnitResult)
  | memoryResponse (core : CoreId) (e : EngineId) (idx : Nat) (q : ReadQuality)
  | unitStart (core : CoreId) (unitId : Nat)
  | engineStall (core : CoreId) (e : EngineId)
  | unitBound (core : CoreId)
  | arrayStop (core : CoreId)
  | coreClockGate (core : CoreId)
  | corePowerGate (core : CoreId)
  | stepBoundary (plan : BoundaryPlan)
  | regulatorRefill
  | replayComplete (unitId : Nat) (o : ReplayOutcome)
  -- Caddy messages (R398)
  | hello (h : MsgHead) (b : HelloBody)
  | proof (h : MsgHead) (p : BitVec 256)
  | closeSession (h : MsgHead) (mode : Byte)
  | loadModel (h : MsgHead) (b : LoadModelBody)
  | loadIndex (h : MsgHead) (b : LoadIndexBody)
  | ingest (h : MsgHead) (b : IngestBody)
  | insert (h : MsgHead) (b : IngestBody)
  | delete (h : MsgHead) (b : DeleteBody)
  | merge (h : MsgHead) (b : MergeBody)
  | query (h : MsgHead) (b : QueryBody)
  | generate (h : MsgHead) (b : GenBody)
  | ask (h : MsgHead) (b : QueryBody)
  | cancel (h : MsgHead) (target : W64) (func : Byte)
  | recoveryMode (h : MsgHead) (mode : Byte)
  | policySet (h : MsgHead) (p : Policy)
  | firmwareUpdate (h : MsgHead) (signatureOk : Bool)
  | tenantBind (h : MsgHead) (b : TenantBody) (blob : Blob)
  | tenantSet (h : MsgHead) (b : TenantBody)
  | tenantUnbind (h : MsgHead) (tenant : Nat)
  | operatorBind (h : MsgHead) (b : OperatorBody) (blob : Blob)
  | operatorSet (h : MsgHead) (b : OperatorBody)
  | operatorUnbind (h : MsgHead) (operator : Nat)
  | credentialSet (h : MsgHead) (role : Byte) (principal : Nat) (blob : Blob)
  | protectionExport (h : MsgHead) (outLen : Nat)
  | protectionReset (h : MsgHead) (mac : BitVec 256)
  | protectionRestore (h : MsgHead) (sealOk : Bool) (generation : Nat)
  | gladeDefine (h : MsgHead) (g : GladeSettings)
  | gladeSet (h : MsgHead) (g : GladeSettings)
  | gladeRemove (h : MsgHead) (glade : Nat)
  | profileSet (h : MsgHead) (p : Profile)
  | profileRemove (h : MsgHead) (id : Nat)
  | tableUpdate (h : MsgHead) (table : Nat) (rows : List RowRecord)
  | tableReplace (h : MsgHead) (table code width rows : Nat)
  | hotPin (h : MsgHead) (table : Nat) (rows : List Nat)
  | hotUnpin (h : MsgHead) (table : Nat) (rows : List Nat)
  | indexDrop (h : MsgHead) (handle : Nat)
  | indexRetain (h : MsgHead) (handle seconds : Nat)
  | indexMergePolicy (h : MsgHead) (handle threshold : Nat)
  | setForm (h : MsgHead) (b : SetBody)
  | setDissolve (h : MsgHead) (setId : Nat)
  | status (h : MsgHead) (selector outLen arg : Nat)
  | logRead (h : MsgHead) (first max outLen : Nat)
  | shutdown (h : MsgHead) (mode : Byte) (limitMs : Nat)
  -- registers with a row of their own
  | cdQcommit (func : Byte) (value : W64)
  | cdSqdb (func : Byte) (pair : Nat) (value : W64)
  | cdCqdb (func : Byte) (pair : Nat) (value : W64)
  | pwCommit (value : W64)
  | firmwareDeviceReset (value : W64) (starts : List StartReport)
  | blockResetCore (index : W16)
  | blockResetEngine (index : W16) (engine : BitVec 4)
  | blockResetGrovePort (index : W16)
  | blockResetT2Channel (index : W16)
  | blockResetFlashChannel (index : W16)
  | blockResetDone
  | biOnline (site : BitVec 10)
  | registerWrite (func : Byte) (offset : W16) (half : Option Bool) (value : W64)
  -- link, interrupts, sideband
  | pcieConfigRequest (func : Byte)
  | msixRaise (pair : Nat)
  | regAddr (offset : W16) (pecOk : Bool)
  | regData (write : Option W64) (pecOk : Bool)
  | msgPut (bytes : List Byte) (pecOk : Bool)
  | msgGo (pecOk : Bool)
  | msgGet (pecOk : Bool)
  | msgStat (pecOk : Bool)
  | smbusAlertResponse
  | smbClkTimeout
  -- test access port (R540, R541)
  | bypass
  | idcode
  | samplePreload (cells : List Bool)
  | extest
  | clamp
  | highz
  | extestPulse
  | extestTrain
  | internalScanInstruction
  | testLogicReset
  | locateN (low : Bool)
  -- power and pins
  | powerGoodAssert (starts : List StartReport)
  | powerGoodLoss
  | overvoltageStop (millivolts : Nat)
  | kettlePowerLoss
  | mrstNHeld
  | mrstNRelease (starts : List StartReport)
  | perstNAssert
  | perstNDeassert (starts : List StartReport)
  | hotReset
  | linkDown (refclkLost : Bool)
  | hostLinkTrained (hostRate : Nat)
  | shdnReqNHeld
  | thermalWarningSet (junction stack : Int)
  | thermalWarningClear (junction stack : Int)
  | thermtrip (junction : Int)
  | crystalFallback
  | operatingHoursShadow
  -- watches (R500)
  | kettleWatchdog (starts : List StartReport)
  | controllerHeartbeatLoss (controller : Nat)
  | allControllersSilent (starts : List StartReport)
  | boundaryStall (starts : List StartReport)
  | wenikConsistencyFailure (starts : List StartReport)
  -- idle, monitors, media
  | deepIdleEntry
  | monitorSample (slacks : List (Nat × Nat))
  | skipPersist (site : Nat)
  | replan (needed : List (Nat × Nat)) (worstSite worstSlack : Nat)
  | t2Scrub (found : List (Nat × ReadQuality))
  | t2CorrectedRateWatch (channel : Nat) (rate : Nat)
  | t2RebuildEnd (channel : Nat)
  | t3DieFail (channel die : Nat) (spare : Bool)
  | flashChannelOutOfService (channel : Nat)
  | t3MoveEnd (channel : Nat)
  -- tables
  | hotRowRank
  | replicaCopyDone (home : Nat) (stack : Nat)
  | tableUpdateApplyEnd (table : Nat)
  | tableReplaceCommit (r : ReqId) (rows : List RowRecord) (base : Nat)
  -- loads and indexes
  | imageChunkArrival (r : ReqId) (tagOk : Bool) (tiles : List TileImage)
  | loadModelContentVerified (r : ReqId) (image : ImageMeta)
  | loadModelSetTimeout (r : ReqId)
  | loadIndexWritten (r : ReqId) (regions : RegionParts) (lists : ListParts) (residual flat : List (List (List W32)))
  | itemStaged (r : ReqId) (item unit : Nat)
  | journalProgrammed (r : ReqId) (item : Nat)
  | mergeCommit (handle unit replayed : Nat) (made : Int)
  | mergeSetTimeout (handle : Nat)
  | tableSetTimeout (r : ReqId)
  | indexRetainExpiry (handle version : Nat)
  -- sessions
  | challengeExpiry (session : W32)
  | principalLockExpiry (role : Byte) (principal : W16)
  | sessionLifetimeExpiry (session : W32)
  | sessionIdleExpiry (session : W32)
  -- Understory packets (R301)
  | understoryOpen (channel : Byte) (o : ScanOpen)
  | understoryTables (channel : Byte) (tag : W64) (t : TableSet)
  | understorySegments (channel : Byte) (tag : W64) (table : Nat) (segs : List SegmentRef)
  | understoryDrain (channel : Byte) (tag : W64) (dest : Nat)
  | understoryClose (channel : Byte) (tag : W64)
  -- Grove frames and events
  | dataFrame (port : BitVec 3) (seq : W64) (tagOk : Bool) (dest : Nat) (bytes : List Byte)
  | boundaryFrame (port : BitVec 3) (seq : W64) (tagOk : Bool) (step : Nat) (commit : Bool)
  | reserveFrame (port : BitVec 3) (seq : W64) (tagOk : Bool) (from_ : Nat) (r : ReqId) (handle : Nat) (search : FarSearch)
  | grantFrame (port : BitVec 3) (seq : W64) (tagOk : Bool) (from_ : Nat) (r : ReqId) (granted : Bool)
  | controlFrame (port : BitVec 3) (seq : W64) (tagOk : Bool) (info : ControlInfo)
  | heartbeatFrame (port : BitVec 3) (seq : W64) (tagOk : Bool)
  | ackFrame (port : BitVec 3) (upTo : W64)
  | nakFrame (port : BitVec 3) (seq : W64)
  | heartbeatSend
  | memberOut (member : Nat)
  | groveLaneFail (port : BitVec 3) (lane : BitVec 3)
  | grovePortTrained (port : BitVec 3) (authOk : Bool) (peer : Nat) (peerPort : Nat)
  | setFormTimeout
  | allreduce (d : LinkDesc) (peers : List (Nat × List W32))
  | allgather (d : LinkDesc) (peers : List (Nat × List Byte))
  | gather (d : LinkDesc) (peers : List (Nat × List Byte))
  | broadcast (d : LinkDesc) (data : List Byte)
  | send (d : LinkDesc) (data : List Byte)
  | linkUnitOverrun (unitId : Nat)
  -- shutdown and self-test
  | shutdownDrainEnd
  | zeroizationDone (clean : Bool)
  | bistGroupDone (fails : List (Nat × Nat)) (misrs : List (Nat × W64)) (starts : List StartReport)
  | onlineTestStart
  | onlineTestDone (passed : Bool) (memoryFail : Bool) (misr : W32)
  -- reads of host memory, link speed
  | hostMemoryReadCompletion (r : ReqId) (what : ReadFor) (end_ : ReadEnd) (text : List Byte) (keyOk : Bool) (fileType path : List Byte)
      (obj : Option ObjectEntry)
  | hostLinkDowntrain (hostRate : Nat)
  deriving DecidableEq, Repr

end Sys2Proof
end

