-- ==== Sys2Proof/Machine/State.lean ====
section
/-!
DEFINITION. The state of the module as plain data: every piece of INVENTORY.md's State heading, in one record per block, and the
state after reset.
-/
namespace Sys2Proof.Machine

/-- A finite table keyed by number: keys ascending, no entry equal to the table's default (the operations are in Ops.lean). -/
abbrev AMap (α : Type) := List (Nat × α)

/-- Why a step can stop. -/
inductive Fault where
  /-- Raised by `execOvervoltageStop` above the absolute maximum of R531: the spec calls behaviour beyond it undefined (R532).
  Safe: the machine goes on in no way that the spec does not give. -/
  | damaged
  deriving DecidableEq, Repr

/-- Why a command has no meaning in this model. -/
inductive Refusal where
  /-- No meaning has been written for the command yet; raised by arms of `exec` only. Safe. -/
  | notModelled (mnemonic : String)
  deriving DecidableEq, Repr

/-! ### Cores (R74 to R104) -/

/-- R102. -/
inductive SitePower where
  | issuing | clockGated | powerGated
  deriving DecidableEq, Repr

/-- R87. -/
inductive Token where
  | idle | armed | set
  deriving DecidableEq, Repr

/-- R90. -/
inductive SlotState where
  | empty | filling | full | releasePending
  deriving DecidableEq, Repr

/-- An engine instruction word (R83): engine code, opcode, issue fields, operand bits. -/
structure EWord where
  engine : Nat
  opcode : Nat
  h      : Hdr
  o      : BitVec 88
  deriving DecidableEq, Repr

/-- R119. -/
inductive PlaneState where
  | empty | loading | loaded
  deriving DecidableEq, Repr

/-- A weight plane (R112, R113, R119): the element plane's bytes and the side record's bytes, nonzero bytes listed. -/
structure Plane where
  state  : PlaneState
  fmt    : Nat
  sparse : Bool
  elems  : List Host.Cell
  side   : List Host.Cell
  deriving DecidableEq, Repr

/-- A tile reference (R222): tier 0 a slot, 1 T2, 2 T3; `core` names the core of a slot delivered by multicast. -/
structure TileRef where
  tier : Nat
  idx  : Nat
  deriving DecidableEq, Repr

/-- What one copy moves (R222): a whole tile, or `len` bytes between a slot and a T2 tile. -/
inductive CopyKind where
  | whole | part (soff doff len : Nat) | cast (group k : Nat) | receive (group k : Nat)
  deriving DecidableEq, Repr

inductive CopyState where
  | held | flying | arrived | done
  deriving DecidableEq, Repr

/-- One copy in flight (R229): `waits` lists the member cores that a multicast tile has still to be written on. -/
structure Copy where
  src   : TileRef
  dst   : TileRef
  kind  : CopyKind
  state : CopyState
  waits : List Nat
  data  : List Host.Cell
  desc  : BitVec 512
  deriving DecidableEq, Repr

/-- R98. -/
inductive CtxState where
  | free | ready | waiting | done
  deriving DecidableEq, Repr

/-- One gather lookup (R183): its bag, row index, weight bits and home address; once launched its context number and the address of the
copy it reads (R191); once its row has arrived the row's bytes. -/
structure GCtx where
  bag    : Nat
  row    : Nat
  weight : Nat
  addr   : Nat
  num    : Nat
  copy   : Nat
  data   : List Byte
  state  : CtxState
  deriving DecidableEq, Repr

/-- One scan context (R266): its probe entry, the phase of its reads (0 tombstones and envelope, 1 header line, 2 columns, 3 none), once
launched its context number, what its reads have brought (tombstone block, lines of the segment, their number), records tested, and the
bound of its set once it is computed (R267). -/
structure QCtx where
  segment : Nat
  tomb    : Nat
  header  : Nat
  phase   : Nat
  num     : Nat
  tombs   : List Byte
  cells   : List Host.Cell
  lines   : Nat
  tested  : Nat
  bound   : Option (Option Int)
  state   : CtxState
  deriving DecidableEq, Repr

/-- What an instruction in execution still has to do. -/
inductive Work where
  | none
  | copies (l : List Copy)
  | gather (desc : Nat) (table version home : Nat) (l : List GCtx)
  | scan (coll : Nat) (l : List QCtx)
  | drain (coll : Nat)
  | stream (row steps : Nat) (zero loaded : Bool)
  deriving DecidableEq, Repr

/-- An issued instruction that has not completed: its number, index, LOOP iteration, the slots it has still to read (`reads`), all slots it
reads (`rel`, what RELEASE releases), the slots it has begun to write, its cycles (R122, R157, R171, R184, R268, R370) and its work. -/
structure Flight where
  id      : Nat
  index   : Nat
  word    : EWord
  iter    : Nat
  started : Bool
  reads   : List Nat
  rel     : List Nat
  writes  : List Nat
  cycles  : Nat
  work    : Work
  deriving DecidableEq, Repr

/-- A LOOP in progress (R84): index of the body's first instruction, body length, count, iteration. -/
structure Frame where
  start : Nat
  body  : Nat
  count : Nat
  iter  : Nat
  deriving DecidableEq, Repr

/-- The unit a core runs: descriptor, program words (R85), next instruction index, open loops, instructions presented and held at
the dispatcher, instructions issued, END issued. -/
structure Running where
  desc    : UnitDesc
  buffer  : List W128
  pc      : Nat
  frames  : List Frame
  waiting : List EWord
  issued  : Nat
  ended   : Bool
  replay  : Bool
  result  : UnitResult
  deriving DecidableEq, Repr

/-- A ranked entry of a collector (R261). -/
structure Held where
  score : Int
  pid   : Nat
  tag   : Nat
  deriving DecidableEq, Repr

/-- The scan descriptor and filter block of an open collector (R259, R263). -/
structure ScanDesc where
  handle  : Nat
  version : Nat
  m       : Nat
  code    : Nat
  metric  : Nat
  attrs   : Nat
  nMax    : Nat
  tomb    : Nat
  tenant  : Nat
  preds   : List Predicate
  acl     : Option (List Byte)
  deriving DecidableEq, Repr

/-- A collector (R261, R265). -/
structure Collector where
  isOpen     : Bool
  k          : Nat
  entries    : List Held
  scored     : Nat
  filtered   : Nat
  tombstoned : Nat
  scanned    : Nat
  skipped    : Nat
  scan       : ScanDesc
  deriving DecidableEq, Repr

/-- One core (R74): `ahead` is the dispatcher's second program buffer with the unit it is for (R85), `gLast` and `qLast` the context
numbers last served (R99, R100). -/
structure Core where
  power   : SitePower
  run     : Option Running
  ahead   : Option (Nat × List W128)
  tokens  : AMap Token
  slots   : AMap SlotState
  descs   : AMap (BitVec 512)
  bytes   : List Host.Cell
  scalars : AMap W32
  active  : Plane
  shadow  : Plane
  arrayOn : Bool
  colls   : AMap Collector
  flights : List Flight
  near    : List (Nat × Nat)
  lookups : Nat
  gLast   : Nat
  qLast   : Nat
  deriving DecidableEq, Repr

/-! ### Chip (R79 to R81, R95, R227, R501) -/

/-- A committed unit that has not ended: predecessors still running, whether it runs, and its place in the order of admission (R96). -/
structure UnitState where
  desc    : UnitDesc
  left    : Nat
  running : Bool
  order   : Nat
  deriving DecidableEq, Repr

/-- A multicast group with its match counts (R227). -/
structure Group where
  desc  : GroupDesc
  casts : Nat
  recvs : AMap Nat
  deriving DecidableEq, Repr

/-- A link unit waiting or running (R458, R459). -/
structure LinkState where
  kind    : LinkKind
  desc    : LinkDesc
  left    : Nat
  overran : Bool
  deriving DecidableEq, Repr

/-- A stop (R94): cause code, instruction index, engine code, and the token or slot concerned. -/
structure Stop where
  code   : Nat
  index  : Nat
  engine : Nat
  which  : Nat
  deriving DecidableEq, Repr

/-- A Clearing (R501): the unit, the logical core and the site it stopped on, its quarantine site, the half under replay, the half that
follows it, how the lower half failed, and the time of the stop. -/
structure Clearing where
  unit       : UnitDesc
  core       : Nat
  site       : Nat
  first      : Stop
  quarantine : Option Nat
  whole      : Bool
  current    : List ReqId
  other      : List ReqId
  lowerCode  : Option Nat
  lowerSet   : List ReqId
  sameAll    : Bool
  result     : UnitResult
  since      : Nat
  deriving DecidableEq, Repr

/-- The die's scheduling state. `cores` is keyed by logical core, and by 512 + site for a site without one. `homes` lists the logical cores
that are not at their place of R79, `none` for an absent core. -/
structure Chip where
  cores     : AMap Core
  homes     : AMap (Option (Option Nat))
  moves     : List Nat
  fenced    : List Nat
  knownBad  : List Nat
  heldBack  : List Nat
  step      : Nat
  units     : List UnitState
  groups    : List Group
  links     : List LinkState
  clearings : List Clearing
  deriving DecidableEq, Repr

/-! ### Error log (R413) -/

structure LogRec where
  seq    : Nat
  time   : Nat
  kind   : Nat
  code   : Nat
  func   : Nat
  glade  : Nat
  rid    : W64
  unit   : Nat
  core   : Nat
  site   : Nat
  index  : Nat
  engine : Nat
  detail : W128
  deriving DecidableEq, Repr

/-- The last 1,048,576 records, oldest first, and the next sequence number. -/
structure Log where
  recs : List LogRec
  next : Nat
  deriving DecidableEq, Repr

/-! ### Regulators (R430) -/

/-- A token bucket: rate, depth, reserved rate, and the two parts. -/
structure Bucket where
  rate  : Nat
  depth : Nat
  rRes  : Nat
  res   : Int
  free  : Int
  deriving DecidableEq, Repr

structure RegSet where
  t2      : Bucket
  t3      : Bucket
  grove   : Bucket
  hostOut : Bucket
  hostIn  : Bucket
  deriving DecidableEq, Repr

/-- An access of a core that holds at a T2 or T3 tile, in order of arrival (R215): tile key, core, instruction, copy, and whether it is
a write. -/
structure TileWait where
  key   : Nat
  core  : Nat
  index : Nat
  copy  : Nat
  write : Bool
  deriving DecidableEq, Repr

/-- A transfer held for tokens: set, resource (0 T2, 1 T3), core, instruction index, copy number. -/
structure Ticket where
  set   : Nat
  res   : Nat
  core  : Nat
  index : Nat
  copy  : Nat
  deriving DecidableEq, Repr

/-! ### T2 and T3 (R210, R242, R245) -/

/-- A T2 channel that has failed accesses or is retired: times of its uncorrectable accesses, retired, being rebuilt, rebuilt. -/
inductive ChanState where
  | live (errors : List Nat) | retired | rebuilding | rebuilt
  deriving DecidableEq, Repr

structure Media where
  bytes       : List Host.Cell
  tiles       : AMap (BitVec 512)
  bins        : AMap Nat
  trained     : List Nat
  channels    : AMap ChanState
  spareInUse  : List Nat
  spareCost   : List Nat
  unprotected : List Nat
  failedDies  : List (Nat × Nat)
  waits       : List TileWait
  deriving DecidableEq, Repr

/-! ### Tables and hot rows (R174 to R204) -/

/-- A held version of a table (R179), with the image it belongs to, the rows updated since its commit, and the T2 bytes it holds beside
the image's footprint (a replacement, R200). -/
structure TableVer where
  table   : Nat
  version : Nat
  base    : Nat
  rows    : Nat
  width   : Nat
  code    : Nat
  stride  : Nat
  digest  : W128
  updated : Nat
  image   : Nat
  current : Bool
  extra   : Nat
  deriving DecidableEq, Repr

/-- R195. -/
inductive Replica where
  | absent | copying | valid | cleared
  deriving DecidableEq, Repr

/-- Who holds or waits for a row lock (R195), in the order of request: a copy into a stack, or an update. -/
inductive LockUser where
  | copy (stack : Nat) | update
  deriving DecidableEq, Repr

/-- A hot-row directory entry (R190): `since` is the place in the order of admission at which it was pinned, `keep` the requests that keep
an unpinned row's replicas (R193), `leaving` a demoted row, `grace` the GPOOLs that its cleared space waits for (R196). -/
structure HotRow where
  stride  : Nat
  offset  : Nat
  pinned  : Bool
  since   : Nat
  keep    : List ReqId
  share   : Nat
  below   : Nat
  repl    : List Replica
  lock    : List LockUser
  leaving : Bool
  grace   : List (Nat × Nat × Nat)
  deriving DecidableEq, Repr

/-- An update of one version applying since a boundary (R198): the request, its rows, the boundary's step, and whether the row locks have
been asked for. -/
structure Apply where
  table   : Nat
  version : Nat
  req     : ReqId
  rows    : List RowRecord
  since   : Nat
  asked   : Bool
  deriving DecidableEq, Repr

/-- A replacement in progress (R200). -/
structure Replace where
  req   : ReqId
  table : Nat
  code  : Nat
  width : Nat
  rows  : Nat
  base  : Nat
  bytes : Nat
  ready : Option TableVer
  deriving DecidableEq, Repr

/-- `numbers` holds the last version number of each table (R179), `waits` candidates for promotion that await space: home, stride, share. -/
structure Tables where
  versions : List TableVer
  damaged  : List Nat
  hot      : AMap (Option HotRow)
  pins     : List (Nat × Nat)
  samples  : List (Nat × Nat)
  stepRows : Nat
  applying : List Apply
  replaces : List Replace
  numbers  : AMap Nat
  waits    : List (Nat × Nat × Nat)
  deriving DecidableEq, Repr

/-! ### Glades (R425, R427, R440, R443) -/

/-- A Glade, or regulator set 8: settings in force, a pending reduction, the share range (first core and count) and
the common-pool cores that stand in for absent ones (R429). -/
structure GladeState where
  set     : GladeSettings
  pending : Option GladeSettings
  first   : Nat
  count   : Nat
  extra   : List Nat
  deriving DecidableEq, Repr

/-- Glades 0 to 7 and set 8, the defined profiles 8 to 63, and the host rate offered (bytes per microsecond). -/
structure Glades where
  sets     : AMap (Option GladeState)
  profiles : AMap (Option Profile)
  hostCap  : Nat
  deriving DecidableEq, Repr

/-! ### Keys and object entries (R363, R367, R368) -/

/-- What a live handle's key is for (R362). -/
inductive Purpose where
  | credential | kek | object | passage | atRest | flashKey | t2 | session | link
  deriving DecidableEq, Repr

/-- A live handle (R363): key, the second half of a 512-bit XTS key (0 for any other, R362), purpose, Glade and tenant or none, the boundary
at which it was made. -/
structure VKey where
  key     : BitVec 256
  half    : BitVec 256
  purpose : Purpose
  glade   : Option Nat
  tenant  : Option Nat
  step    : Nat
  deriving DecidableEq, Repr

/-- An object of a request, verified by the inbound cipher (R367). -/
structure ObjState where
  req      : ReqId
  key      : Nat
  nonce    : BitVec 96
  length   : Nat
  tiles    : List Nat
  verified : Bool
  deriving DecidableEq, Repr

/-- An output entry (R368): request, segment number, final flag, host buffer address, session key handle. -/
structure OutEntry where
  req    : ReqId
  number : Nat
  final  : Bool
  addr   : Nat
  key    : Nat
  deriving DecidableEq, Repr

structure Keys where
  handles : AMap (Option VKey)
  objects : AMap (Option ObjState)
  outputs : AMap (Option OutEntry)
  t2Key   : Nat
  deriving DecidableEq, Repr

/-! ### Protection (R362 to R381) -/

/-- A credential (R365, R371): password or key, the credential key, and for a password its salt and iteration count. -/
structure Cred where
  password   : Bool
  key        : BitVec 256
  salt       : BitVec 256
  iterations : Nat
  deriving DecidableEq, Repr

structure OperBind where
  glades : Byte
  rights : Byte
  cred   : Option Cred
  deriving DecidableEq, Repr

/-- A tenant's binding (R371) with its KEK; a credential and a KEK that PROTECTION_RESET has zeroed are gone (R381). -/
structure TenBind where
  glade  : Nat
  cls    : Byte
  rights : Byte
  grants : List Nat
  cred   : Option Cred
  kek    : Option (BitVec 256)
  deriving DecidableEq, Repr

/-- The protection store (R364), with retiring tenants and their Glades (R378); Glade settings and profiles stand beside it in
`StoreImage`. -/
structure Store where
  generation : Nat
  owner      : Option Cred
  opers      : AMap (Option OperBind)
  tens       : AMap (Option TenBind)
  policy     : Policy
  set        : Option SetBody
  retiring   : List (Nat × Nat)
  deriving DecidableEq, Repr

/-- A written or exported copy of the store with the Glade settings and the profiles. -/
structure StoreImage where
  store    : Store
  sets     : AMap (Option GladeState)
  profiles : AMap (Option Profile)
  deriving DecidableEq, Repr

/-- An open session (R374 to R379): key handle, step and time of its opening, last sealed request ID, drain, idle since. -/
structure Session where
  id         : Nat
  role       : Nat
  principal  : Nat
  func       : Byte
  key        : Nat
  step       : Nat
  opened     : Nat
  lastSealed : Nat
  draining   : Bool
  idle       : Nat
  deriving DecidableEq, Repr

/-- A pending challenge (R374); `first` is the credential of a first owner's blob, `proved` that its PROOF was correct. -/
structure Challenge where
  id        : Nat
  role      : Nat
  principal : Nat
  func      : Byte
  host      : BitVec 256
  dev       : BitVec 256
  first     : Option Cred
  proved    : Bool
  deriving DecidableEq, Repr

/-- What the vault and Wenik hold for sessions: closed sessions with their reason, failed proofs with their time, locked principals,
unbound tenants whose keys wait for R380, and closed sessions whose key still seals what sequences of the running iteration write (R10). -/
structure Prot where
  store       : Option Store
  exports     : List StoreImage
  flashCopy   : Option StoreImage
  sessions    : List Session
  closed      : List (Nat × Byte × Nat)
  challenges  : List Challenge
  fails       : List (Nat × Nat × Nat)
  locks       : List (Nat × Nat)
  nextSession : Nat
  dying       : List Nat
  leaving     : List (Nat × Nat)
  deriving DecidableEq, Repr

/-! ### Caddy (R386 to R394, R421) -/

/-- CD_SQBASE, CD_CQBASE and CD_QCFG of one pair (R387). -/
structure PairCfg where
  sq   : W64
  cq   : W64
  qcfg : W64
  deriving DecidableEq, Repr

/-- A completion record (R393) but for PHASE, which its place in the queue gives. -/
structure Completion where
  rid     : W64
  session : W32
  status  : Nat
  detail  : Nat
  flags   : Nat
  queue   : Nat
  head    : Nat
  result  : BitVec 320
  deriving DecidableEq, Repr

/-- One queue pair (R387 to R394): `unraised` counts the records written and not yet raised. -/
structure Pair where
  force    : PairCfg
  shadow   : PairCfg
  commit   : Option PairCfg
  head     : Nat
  tail     : Nat
  cqHead   : Nat
  cqTail   : Nat
  phase    : Bool
  disagree : Bool
  busy     : Bool
  baddb    : Bool
  held     : List Completion
  unraised : Nat
  deriving DecidableEq, Repr

/-- One function (R383, R387), with the local pair at which its next turn begins (R389). -/
structure Func where
  enabled  : Bool
  qsel     : Nat
  readychg : Bool
  gladechg : Bool
  turn     : Nat
  deriving DecidableEq, Repr

/-- An MSI-X table entry with its pending bit (R382, R394). -/
structure Vec where
  addr    : W64
  data    : W32
  masked  : Bool
  pending : Bool
  deriving DecidableEq, Repr

/-- Pairs by number 0 to 63, functions by number 0 to 8, vectors keyed `16 × function + vector`, and the function at which the next turn
begins, 9 for the sideband (R389). -/
structure Caddy where
  pairs : AMap Pair
  funcs : AMap Func
  vecs  : AMap Vec
  turn  : Nat
  deriving DecidableEq, Repr

/-- The sideband (R421, R422): selected register, submission buffer, message running, pending reply, overflow, READYCHG unreported,
SMB_ALERT_N asserted. -/
structure Sideband where
  reg      : Nat
  buffer   : List Byte
  running  : Bool
  reply    : List Byte
  overflow : Bool
  ready    : Bool
  alert    : Bool
  out      : List Byte
  deriving DecidableEq, Repr

/-! ### Images (R52 to R73) -/

/-- A loaded image: its serial number, what it holds, the sections reported damaged (R506). -/
structure Img where
  serial  : Nat
  info    : ImageMeta
  damaged : List Nat
  deriving DecidableEq, Repr

/-- Current and outgoing image, the image store's two slots, and the image whose vocabulary each text unit holds (R341). -/
structure Images where
  current  : Option Img
  outgoing : Option Img
  stored   : AMap (Option ImageMeta)
  unit0    : Nat
  unit1    : Nat
  next     : Nat
  deriving DecidableEq, Repr

/-! ### Indexes (R246 to R308) -/

/-- One record of a version state: its place (a list, or the Thicket), tenant, ACL class, attributes, codes, g and stored vector, the
request that inserted it, and its tombstone bit. -/
structure IRec where
  pid    : Nat
  place  : Option Nat
  tenant : Nat
  acl    : Nat
  attrs  : List W32
  codes  : List Nat
  g      : Nat
  vec    : List Nat
  tomb   : Bool
  deriving DecidableEq, Repr

/-- A held version state (R290). -/
structure VState where
  num  : Nat
  recs : List IRec
  deriving DecidableEq, Repr

/-- A P-tile of a passage store (R280): tenant, the TAG's first ID and count (R212), the handle of the passage key, the nonce of its write, and
the ciphertext of its payload with its tag. -/
structure PTile where
  tenant : Nat
  first  : Nat
  count  : Nat
  key    : Nat
  nonce  : BitVec 96
  cipher : List Byte
  tag    : List Byte
  deriving DecidableEq, Repr

/-- The P-tile being filled (R280): tenant and passage key, first ID and count so far, payload so far. -/
structure OpenTile where
  tenant  : Nat
  key     : Nat
  first   : Nat
  count   : Nat
  payload : List Byte
  deriving DecidableEq, Repr

/-- A held version with its held states, latest last, whether INDEX_RETAIN retains it (R294), its creation time in UTC seconds (R189), the
version that wrote each of its lists' segments (the TAG version of R253), and, once it is no longer current, the P-tiles of its passage map
(R282). -/
structure IdxVer where
  num      : Nat
  states   : List VState
  retained : Bool
  made     : Int
  wrote    : List (Nat × Nat)
  tiles    : Option (List PTile)
  deriving DecidableEq, Repr

/-- A change applied to the current version since the snapshot (R297). -/
inductive Replay where
  | insert (r : IRec) | tomb (pid : Nat)
  deriving DecidableEq, Repr

/-- A merge in progress (R295 to R299): its request (none for a merge of Wenik's own), target residency, snapshot flag, fractions, claim,
the snapshot state, the committed version's records with the lists it rewrote, its counts, and the time at which it was made. -/
structure Merge where
  req       : Option ReqId
  target    : Nat
  snapshot  : Bool
  tombFrac  : W32
  liveFrac  : W32
  t2        : Nat
  t3        : Nat
  snap      : Option (List IRec)
  log       : List Replay
  committed : Bool
  built     : List IRec
  fresh     : List Nat
  lists     : Nat
  moved     : Nat
  made      : Int
  deriving DecidableEq, Repr

/-- A loaded index: parameters (R246), components (R249), versions, passage store of the current version with its open tile (R280), next
sequence number, merge, policy, retention, passage keys by tenant, at-rest key, and on a durable index the snapshot and the journal in T3
(R307). -/
structure Index where
  handle    : Nat
  body      : LoadIndexBody
  fp        : W128
  parts     : IndexParts
  versions  : List IdxVer
  store     : List PTile
  filling   : Option OpenTile
  current   : Nat
  seqNo     : Nat
  merge     : Option Merge
  threshold : Nat
  retain    : Nat
  dropped   : Bool
  lost      : Bool
  keys      : AMap Nat
  atRest    : Nat
  snapshot  : Option (Nat × List IRec)
  journal   : List Replay
  deriving DecidableEq, Repr

structure Indexes where
  loaded   : List Index
  flashOnly : List Index
  next     : Nat
  deriving DecidableEq, Repr

/-! ### Requests and sequences (R20 to R46, R309 to R333, R398) -/

/-- How a request ends: status, detail, flags and result fields (offset, size, value). -/
structure Ending where
  status : Nat
  detail : Nat
  flags  : Nat
  result : List (Nat × Nat × Nat)
  deriving DecidableEq, Repr

/-- A change that ends a sequence of the batch at the next boundary that begins an iteration (R10): status, detail, flags, and the CANCEL
that asked for it. -/
structure Doom where
  status : Nat
  detail : Nat
  flags  : Nat
  cancel : Option ReqId
  deriving DecidableEq, Repr

/-- A retrieval or generation in progress: QUERY (kind 0), GENERATE (1), ASK (2), its pins, its reservations and its progress; `searchBy` is
the budgeted end of its search in µs, `searched` whether it has ended, `reranked` whether its rerank has; `pageTable` its KV pages in
position order (R312), `classes` the tenants' classes in force at its admission (R189); `homeRate`, `slots`, `ctxs`, `hot` and `cores` the
T2 rate of its rerank's home rows, its table slots (bytes of T0, or pages of a unit), search contexts, hot-row reads per millisecond and the
cores that each stage still to run needs (R26); `doomed` is the first accepted change that ends it at the next boundary that begins an
iteration (R10, R44). -/
structure Serve where
  kind      : Nat
  handle    : Nat
  version   : Nat
  vstate    : Nat
  statePin  : Bool
  image     : Nat
  k         : Nat
  pr        : Nat
  p         : Nat
  pMax      : Nat
  profile   : Profile
  budget    : Nat
  maxNew    : Nat
  ttft      : Nat
  interval  : Nat
  outLen    : Nat
  filter    : FilterBody
  retPrompt : Bool
  inclStop  : Bool
  template  : Bool
  params    : ParamObj
  text      : List Byte
  truncated : Bool
  started   : Bool
  awaits    : List Nat
  tables    : List (Nat × Nat)
  stage     : Nat
  searchBy  : Nat
  searched  : Bool
  question  : Option (List Nat)
  found     : Option SearchOut
  ranked    : List (Nat × W32)
  reranked  : Bool
  classes   : List (Nat × Nat)
  whole     : Nat
  cut       : Nat
  skipped   : Nat
  conf      : W32
  pages     : Nat
  pageBytes : Nat
  pageTable : List Nat
  t2rate    : Nat
  t3rate    : Nat
  homeRate  : Nat
  outRate   : Nat
  grove     : Nat
  slots     : Nat
  ctxs      : Nat
  hot       : Nat
  cores     : List Nat
  point     : Nat
  power     : Nat
  reserve   : Nat
  seq       : Nat
  joinable  : Bool
  prompt    : List Nat
  gen       : List Nat
  fresh     : Bool
  gstate    : Nat
  seed      : W64
  chunks    : List Nat
  pos       : Nat
  pendBytes : List Byte
  heldBytes : List Byte
  released  : List Byte
  segs      : Nat
  outUsed   : Nat
  lastToken : Nat
  longest   : Nat
  ending    : Option Ending
  doomed    : Option Doom
  deriving DecidableEq, Repr

/-- One item of INGEST or INSERT (R285, R286): outcome once decided, text and metadata once read, staged records, accepted for apply,
first ID, and the handle of its object data key (0 for none). -/
structure ItemState where
  entry     : ItemEntry
  status    : Option Nat
  text      : Option (List Byte)
  fileType  : List Byte
  path      : List Byte
  truncated : Bool
  staged    : Option (List IRec)
  accepted  : Bool
  first     : Nat
  key       : Nat
  deriving DecidableEq, Repr

/-- A LOAD_MODEL in progress (R67 to R73). -/
structure LoadJob where
  body     : LoadModelBody
  tagFail  : Bool
  chunks   : Nat
  oldFreed : Bool
  info     : Option ImageMeta
  swap     : Bool
  peers    : List (Nat × Bool)
  deriving DecidableEq, Repr

/-- What a request is doing until its record is written. -/
inductive Job where
  | proof (session : Nat)
  | closing (session : Nat) (abort : Bool)
  | config (c : Instr)
  | table (c : Instr) (peers : List Nat)
  | cancel (target : ReqId)
  | load (j : LoadJob)
  | index (b : LoadIndexBody) (handle : Nat) (ready : Bool)
  | items (insert : Bool) (b : IngestBody) (image : Nat) (l : List ItemState)
  | delete (b : DeleteBody) (ready : Bool)
  | merge (handle : Nat)
  | serve (v : Serve)
  | shutdown (abort : Bool)
  | setForm (b : SetBody)
  deriving DecidableEq, Repr

/-- A request taken and not completed (R389): the pair it came from (64 for the sideband), the session, the submission head after it,
its opcode (R398), its Glade and tenant, its submission time stamp, and its place in the order of admission (R96). -/
structure Req where
  id      : ReqId
  pair    : Nat
  session : Nat
  head    : Nat
  opcode  : Nat
  glade   : Option Nat
  tenant  : Option Nat
  time    : Nat
  entered : Nat
  job     : Job
  deriving DecidableEq, Repr

/-- A change accepted for the next boundary (R9, R11), in acceptance order. -/
inductive Change where
  | request (r : ReqId)
  | item (r : ReqId) (i : Nat)
  | snapshot (handle : Nat)
  | swap (handle : Nat)
  | pair (n : Nat)
  | power (sustained peak : Nat)
  | expire (session : Nat) (reason : Nat)
  | linkReset
  | channelOut (channel : Nat)
  | moveEnd (channel : Nat)
  | unfence (site : Nat)
  | hostScale
  | replan (steps : List (Nat × Nat)) (site slack : Nat)
  | reg (offset : Nat) (value : W64)
  | farDelete (member : Nat) (r : ReqId) (handle : Nat) (tenant : Option Nat) (ranges : List (Nat × Nat))
  deriving DecidableEq, Repr

/-- A round of a step's cold experts (R59): the image's serial number, the layer, and the experts copied into the slots, in slot order. -/
structure StageRound where
  image   : Nat
  layer   : Nat
  experts : List Nat
  deriving DecidableEq, Repr

/-- The Step Scheduler's boundary (R8, R10, R319): time of the last boundary, the step's length by its plan, the step's place in the run of
its decode iteration and the run's steps (R10), the cold staging rounds of the step (R59), the recovery mode (R6), reservations of requests
that have ended since, held until the next boundary (R26, R331), whether a boundary inside a run is being applied (R10), and the number of
the next admission (R96). -/
structure Sched where
  start  : Nat
  length : Nat
  runAt  : Nat
  runOf  : Nat
  staging : List StageRound
  yalelo : Bool
  lag    : List (Option Nat × Serve)
  inside : Bool
  admits : Nat
  deriving DecidableEq, Repr

/-! ### What leaves the module (log 4) -/

/-- Writes outward at the edge, as data: segments in host memory (R397), completion records with their pair, place and PHASE (R394),
sideband replies (R422), outputs and reports, interrupts, answers of configuration requests and of the sideband, packets. -/
inductive HostOut where
  | segment (r : ReqId) (number : Nat) (final : Bool) (cipher tag : List Byte)
  | record (pair place : Nat) (phase : Bool) (c : Completion)
  | output (r : ReqId) (bytes : List Byte)
  | msix (func vec : Nat)
  | config (func : Nat) (crs : Bool)
  | smbus (bytes : List Byte)
  | scan (channel : Nat) (tile : List Byte)
  | frame (port : Nat) (bytes : List Byte)
  | aer (func : Nat)
  deriving DecidableEq, Repr

/-- R487, R499, R516: no power, Kettle power only, a start under way, running, recovery mode, held by MRST_N. -/
inductive Life where
  | off | kettleOnly | starting | running | recovery | held
  deriving DecidableEq, Repr

/-- The kinds of start of R487 and R488. -/
inductive StartKind where
  | cold | native | yalelo
  deriving DecidableEq, Repr

/-- A shutdown in progress (R514 to R516): the request that asked for it, abort or drain, the limit in ms, and whether the secrets are
being cleared (phases 3 to 6). -/
structure Shut where
  req      : Option ReqId
  abort    : Bool
  limit    : Nat
  clearing : Bool
  deriving DecidableEq, Repr

/-- A decision entry of the boot journal (R496). -/
structure Decision where
  kind  : Nat
  value : Nat
  comp  : Nat
  hours : Nat
  deriving DecidableEq, Repr

/-- A start-log record of the boot journal (R496). -/
structure StartRec where
  start   : Nat
  step    : Nat
  outcome : Nat
  comp    : Nat
  alt     : Nat
  ms      : Nat
  deriving DecidableEq, Repr

/-- The boot journal (R496). -/
structure Journal where
  startNo      : Nat
  slot         : Nat
  fails        : Nat
  lastComplete : Nat
  decisions    : List Decision
  log          : List StartRec
  deriving DecidableEq, Repr

/-- The BIST results (R524): header, site records (result, source, MISR), partition records (result, MISR), the online ring (site, result,
operating seconds), and whether the next start has still to act on them (R525). -/
structure BistRes where
  kind      : Nat
  startNo   : Nat
  duration  : Nat
  clearFail : Bool
  shared    : Bool
  sites     : AMap (Nat × Nat × Nat)
  parts     : AMap (Nat × Nat)
  ring      : List (Nat × Nat × Nat)
  fresh     : Bool
  deriving DecidableEq, Repr

/-- A BIST under way (R522, R526): at a start or at shutdown, and the next group (8 the shared logic). -/
structure BistRun where
  atStart : Bool
  next    : Nat
  deriving DecidableEq, Repr

/-- A start that is not complete, waiting for its BIST (R492 step 9) or in recovery mode: kind, whether it is a full attempt (R499), and
what it finds. -/
structure Boot where
  kind   : StartKind
  full   : Bool
  report : StartReport
  tried  : List Nat
  deriving DecidableEq, Repr

/-- The recovery summary (R507): cause, step number, the last 64 error-log numbers. -/
structure Summary where
  cause : Nat
  step  : Nat
  logs  : List Nat
  deriving DecidableEq, Repr

/-- The always-on domain (R416, R417, R466, R480, R481, R487, R492): power-good and the overvoltage latch; the tick count at time 0 of the
current start; the retained header; operating seconds before the current start, their shadow and OTP counts; KT_BOOT; the recovery area. -/
structure Kettle where
  life         : Life
  ready        : W64
  shut         : Option Shut
  vaultCounter : Nat
  good         : Bool
  latch        : Bool
  ticks        : Nat
  fallback     : Bool
  lastStart    : Nat
  powerOns     : Nat
  unorderly    : Bool
  running      : Bool
  lastShut     : Nat
  opBase       : Nat
  shadowHours  : Nat
  otpHours     : Nat
  scratch      : W64
  step         : Nat
  cause        : Nat
  journal      : Journal
  bist         : BistRes
  run          : Option BistRun
  cleared      : Bool
  boot         : Option Boot
  complete     : Bool
  ctrls        : List Nat
  summary      : Option Summary
  crash        : Option (Nat × List ReqId)
  deriving DecidableEq, Repr

/-- Input pins as last seen (R421, R487, R490, R536, R537): true is asserted, or low for LOCATE_N. -/
structure Pins where
  perst  : Bool
  slotId : BitVec 4
  locate : Bool
  refclk : Bool
  flash  : Option Nat
  deriving DecidableEq, Repr

/-- RC_STAT and a block reset in progress (R419, R491): type, index, engine. -/
structure ResetCtl where
  done    : Bool
  notIdle : Bool
  badSel  : Bool
  block   : Option (Nat × Nat × Nat)
  deriving DecidableEq, Repr

/-- BI_CTRL, BI_ONSTAT and online tests (R505, R528 to R530): sites asked for and queued, the one under test, failures in a row. -/
structure SelfTest where
  pinDrain : Nat
  auto     : Bool
  done     : Bool
  pass     : Bool
  refused  : Bool
  tsite    : Nat
  wanted   : List Nat
  queue    : List Nat
  testing  : Option Nat
  fails    : AMap Nat
  deriving DecidableEq, Repr

/-- R540. -/
inductive TapInstr where
  | bypass | idcode | sample | extest | clamp | highz | extestPulse | extestTrain | scan
  deriving DecidableEq, Repr

/-- The test access port (R540, R541): the instruction selected, the boundary cells, pins disconnected from their functions. -/
structure Tap where
  instr   : TapInstr
  cells   : List Bool
  cut     : Bool
  deriving DecidableEq, Repr

/-- What a unit has still to do for a scan, in order: a segment of a table set, or a drain into a T2 tile (R301, R302). -/
inductive UTodo where
  | seg (table : Nat) (ref : SegmentRef) | drain (dest : Nat)
  deriving DecidableEq, Repr

/-- A scan open on an Understory unit (R300, R301): its descriptor, key, collector, the table sets loaded for it and its work. -/
structure UScan where
  channel : Nat
  tag     : Nat
  desc    : ScanDesc
  key     : W32
  coll    : Collector
  tables  : List TableSet
  todo    : List UTodo
  deriving DecidableEq, Repr

/-- The Understory (R300 to R304): open scans, channels out of service with the covering channel, channels whose tiles have moved. -/
structure Under where
  scans : List UScan
  out   : AMap (Option Nat)
  moved : List Nat
  deriving DecidableEq, Repr

/-- A Grove port (R447, R448, R465): GL_PORTp and GL_ERRp, frames sent and not acknowledged, sequence numbers sent and expected,
consecutive failures, link-key handle. -/
structure Port where
  state    : Nat
  width    : Nat
  peer     : Nat
  peerPort : Nat
  laneFail : Byte
  retrains : Nat
  lane     : Bool
  lost     : Bool
  auth     : Bool
  miscable : Bool
  retry    : Bool
  resent   : Nat
  txSeq    : Nat
  rxSeq    : Nat
  unacked  : List (Nat × List Byte)
  fails    : Nat
  key      : Nat
  rxKey    : Nat
  deriving DecidableEq, Repr

/-- SET_FORM under way (R453): its request, its body, the members that matched digest and version with ports up, and the detail of a
fault found here. -/
structure Forming where
  req    : ReqId
  body   : SetBody
  match_ : List Nat
  fault  : Option Nat
  deriving DecidableEq, Repr

/-- A reservation a peer made on this shard holder (R26, R27): T2 rate, distance-table slots, contexts and cores; `spent` once the peer's search
has ended. -/
structure Reserved where
  member : Nat
  req    : ReqId
  handle : Nat
  version : Nat
  vstate  : Nat
  lists  : Nat
  t2rate : Nat
  slots  : Nat
  ctxs   : Nat
  cores  : Nat
  spent  : Bool
  deriving DecidableEq, Repr

/-- A sequence of another member, whose entry and pages stand here too (R332): its home, its request, bytes of its pages, its tokens. -/
structure FarEntry where
  member : Nat
  req    : ReqId
  bytes  : Nat
  tokens : List Nat
  deriving DecidableEq, Repr

/-- The Grove (R446 to R465): GL_CTRL, GL_STEP, GL_MEMBERS, GL_SET STATE, ports, a formation, peers' acceptances, commits (R204),
verifications and failures, reservations held for peers, sequences of peers and the own ones that they know (R332), the step a BOUNDARY
frame proposed or committed, members declared out, and whether a port has been lost since the last boundary (R464). -/
structure Grove where
  porten   : Byte
  loop     : Bool
  step     : Nat
  present  : W16
  ready    : W16
  state    : Nat
  ports    : AMap Port
  forming  : Option Forming
  accepts  : List (Nat × ReqId)
  commits  : List (Nat × ReqId)
  verifies : List (Nat × SliceInfo)
  failed   : List (Nat × ReqId)
  reserves : List Reserved
  entries  : List FarEntry
  told     : List ReqId
  proposed : Option Nat
  out      : List Nat
  recheck  : Bool
  deriving DecidableEq, Repr

/-- One operating point of the V/F table (R469, R484): its voltage in steps of 6.25 mV above 0.600 V, usable, raised at the last re-plan,
steps raised since the start. -/
structure VfPoint where
  volt   : Nat
  usable : Bool
  raised : Bool
  steps  : Nat
  deriving DecidableEq, Repr

/-- A re-plan record (R482): operating seconds, the voltage each point needs, the worst site and its slack. -/
structure Replan where
  time  : Nat
  volts : List Nat
  site  : Nat
  slack : Nat
  deriving DecidableEq, Repr

/-- Power (R418, R469 to R486): limits in force, shadows, a pending cut, points in MHz, enabled Grove ports in the baseline (R478), PW_STAT,
the thermal state, the V/F table, re-plan records, worst slacks by site (ps), groups that skip cycles, DEEP IDLE. -/
structure Power where
  sust       : Nat
  peak       : Nat
  sustShadow : Nat
  peakShadow : Nat
  cut        : Option (Nat × Nat)
  costing    : Nat
  floor      : Nat
  point      : Nat
  ports      : Nat
  disagree   : Bool
  warning    : Bool
  tripped    : Bool
  junction   : Int
  stack      : Int
  points     : List VfPoint
  overLimit  : Bool
  records    : List Replan
  lastPlan   : Nat
  nextPlan   : Nat
  worst      : AMap Nat
  skipping   : List Nat
  deep       : Bool
  deriving DecidableEq, Repr

/-- The whole module. -/
structure State where
  chip      : Chip
  media     : Media
  log       : Log
  tabs      : Tables
  glades    : Glades
  regs      : AMap (Option RegSet)
  holds     : List Ticket
  keys      : Keys
  prot      : Prot
  caddy     : Caddy
  side      : Sideband
  images    : Images
  idx       : Indexes
  reqs      : List Req
  changes   : List Change
  sched     : Sched
  kt        : Kettle
  power     : Power
  grove     : Grove
  pins      : Pins
  rc        : ResetCtl
  bi        : SelfTest
  tap       : Tap
  under     : Under
  host      : List HostOut
  flash     : Bool
  serial    : W128
  time      : Nat
  freeCount : Nat
  pending   : List Instr
  deriving DecidableEq, Repr

/-! ### Reset (log 1): a delivered module with no power applied -/

/-- R387, R416: nothing running. -/
def Kettle.reset : Kettle :=
  { life := .off, ready := 0#64, shut := none, vaultCounter := 0, good := false, latch := false, ticks := 0, fallback := false, lastStart := 0
    powerOns := 0, unorderly := false, running := false, lastShut := 0, opBase := 0, shadowHours := 0, otpHours := 0, scratch := 0#64
    step := 0, cause := 0, journal := ⟨0, 0, 0, 0, [], []⟩, bist := ⟨0, 0, 0, false, false, [], [], [], false⟩, run := none
    cleared := false, boot := none, complete := false, ctrls := [], summary := none, crash := none }

/-- R418: limits of 3,000 W; the points at 1,200 MHz and 0.600 V (log 5). -/
def Power.reset : Power :=
  { sust := 3000, peak := 3000, sustShadow := 3000, peakShadow := 3000, cut := none, costing := 1200, floor := 1200, point := 1200, ports := 8
    disagree := false, warning := false, tripped := false, junction := 0, stack := 0, points := List.replicate 33 ⟨0, true, false, 0⟩
    overLimit := false, records := [], lastPlan := 0, nextPlan := 86400, worst := [], skipping := [], deep := false }

/-- R465: every port enabled, nothing formed. -/
def Grove.reset : Grove :=
  { porten := 0xFF#8, loop := false, step := 0, present := 0#16, ready := 0#16, state := 0, ports := [], forming := none, accepts := [], commits := []
    verifies := [], failed := [], reserves := [], entries := [], told := [], proposed := none, out := [], recheck := false }

/-- R530: BI_CTRL with ONLINEAUTO set. -/
def SelfTest.reset : SelfTest := ⟨0, true, false, false, false, 0, [], [], none, []⟩

def Chip.reset : Chip := ⟨[], [], [], [], [], [], 0, [], [], [], []⟩
def Media.reset : Media := ⟨[], [], [], [], [], [], [], [], [], []⟩

/-- The module at delivery, before power is applied. -/
def State.reset : State :=
  { chip := Chip.reset, media := Media.reset, log := ⟨[], 0⟩, tabs := ⟨[], [], [], [], [], 0, [], [], [], []⟩, glades := ⟨[], [], 98000⟩, regs := []
    holds := [], keys := ⟨[], [], [], 0⟩, prot := ⟨none, [], none, [], [], [], [], [], 1, [], []⟩
    caddy := ⟨[], [], [], 0⟩, side := ⟨0, [], false, [], false, false, false, []⟩, images := ⟨none, none, [], 0, 0, 1⟩, idx := ⟨[], [], 1⟩
    reqs := [], changes := [], sched := ⟨0, 0, 0, 1, [], false, [], false, 0⟩, kt := Kettle.reset, power := Power.reset, grove := Grove.reset
    pins := ⟨true, 0#4, false, false, none⟩, rc := ⟨false, false, false, none⟩, bi := SelfTest.reset, tap := ⟨.idcode, [], false⟩
    under := ⟨[], [], []⟩, host := [], flash := true, serial := 0#128, time := 0, freeCount := 0, pending := [] }

end Sys2Proof.Machine
end

