-- ==== Sys2Proof/Machine/Ops.lean ====
section
/-!
DEFINITION. The named operations over the state that every meaning shares: finite tables, bytes, cores and slots, tile descriptors,
the reach of the engines, regulators, the error log.
-/
namespace Sys2Proof.Machine

/-! ### Finite tables -/

/-- The entry of a key, `d` when it is not listed. -/
def AMap.get {α : Type} (d : α) : AMap α → Nat → α
  | [], _ => d
  | (k, v) :: r, x => if k = x then v else AMap.get d r x

/-- The entries with a key below `k`. -/
def AMap.below {α : Type} (m : AMap α) (k : Nat) : AMap α := m.filter (fun p => decide (p.1 < k))

/-- The entries with a key of at least `k`. -/
def AMap.from {α : Type} (m : AMap α) (k : Nat) : AMap α := m.filter (fun p => decide (k ≤ p.1))

/-- The table with `k` holding `v`; the default is never listed. -/
def AMap.put {α : Type} [DecidableEq α] (d : α) (m : AMap α) (k : Nat) (v : α) : AMap α :=
  m.below k ++ ((if v = d then [] else [(k, v)]) ++ m.from (k + 1))

/-- The canonical form: keys strictly rising and no entry equal to the default. -/
def AMap.wf {α : Type} [DecidableEq α] (d : α) : AMap α → Bool
  | [] => true
  | [(_, v)] => decide (v ≠ d)
  | (k, v) :: (k', v') :: r => decide (k < k') && decide (v ≠ d) && AMap.wf d ((k', v') :: r)

/-! ### Bytes -/

/-- The byte at an address; an address with nothing listed reads 0 (R90, R214; log 10). -/
def readByte (m : List Host.Cell) (a : Nat) : Byte := AMap.get 0#8 m a

def readBytes (m : List Host.Cell) (a n : Nat) : List Byte := (List.range n).map (fun i => readByte m (a + i))

/-- Little-endian number of `n` bytes (R14). -/
def readNat (m : List Host.Cell) (a n : Nat) : Nat := leNat (readBytes m a n)

/-- The nonzero bytes of a list, keyed from `a`. -/
def cellsOf (a : Nat) : List Byte → List Host.Cell
  | [] => []
  | b :: r => if b = 0#8 then cellsOf (a + 1) r else (a, b) :: cellsOf (a + 1) r

/-- The listed bytes of `[a, a+n)`, keyed from 0. -/
def cutCells (m : List Host.Cell) (a n : Nat) : List Host.Cell :=
  (m.filter (fun p => decide (a ≤ p.1) && decide (p.1 < a + n))).map (fun p => (p.1 - a, p.2))

/-- `[a, a+n)` holding the given cells, keyed from 0, and nothing else there. -/
def putCells (m : List Host.Cell) (a n : Nat) (c : List Host.Cell) : List Host.Cell :=
  AMap.below m a ++ (c.map (fun p => (p.1 + a, p.2)) ++ AMap.from m (a + n))

def writeBytes (m : List Host.Cell) (a : Nat) (l : List Byte) : List Host.Cell :=
  putCells m a l.length (cellsOf 0 l)

def clearBytes (m : List Host.Cell) (a n : Nat) : List Host.Cell := putCells m a n []

/-- The canonical form of a byte store. -/
def memWf (m : List Host.Cell) : Bool := AMap.wf 0#8 m

/-! ### Fields of words -/

/-- `len` bits of `w` from bit `lo`. -/
def fld {n : Nat} (w : BitVec n) (lo len : Nat) : Nat := (w.extractLsb' lo len).toNat

/-- `w` with the bits from `lo` replaced by `v`. -/
def setFld {n : Nat} (w : BitVec n) (lo len v : Nat) : BitVec n :=
  (w &&& ~~~(BitVec.ofNat n ((2 ^ len - 1) * 2 ^ lo))) ||| BitVec.ofNat n ((v % 2 ^ len) * 2 ^ lo)

/-! ### Time and drawn values -/

/-- Bump the counter that makes each free value a fresh one (log 3). -/
def drawn (s : State) : State := { s with freeCount := s.freeCount + 1 }

/-! ### Cores -/

def tileBytes : Nat := 16384

def planeEmpty : Plane := ⟨.empty, 0, false, [], []⟩

/-- A power-gated core: everything lost (R102). -/
def coreOff : Core :=
  ⟨.powerGated, none, none, [], [], [], [], [], planeEmpty, planeEmpty, false, [], [], [], 0, 0, 0⟩

def coreOf (s : State) (c : Nat) : Core := AMap.get coreOff s.chip.cores c
def setCore (s : State) (c : Nat) (k : Core) : State :=
  { s with chip := { s.chip with cores := AMap.put coreOff s.chip.cores c k } }

def tokenOf (k : Core) (t : Nat) : Token := AMap.get .idle k.tokens t
def setToken (k : Core) (t : Nat) (v : Token) : Core := { k with tokens := AMap.put .idle k.tokens t v }
def slotOf (k : Core) (n : Nat) : SlotState := AMap.get .empty k.slots n
def setSlot (k : Core) (n : Nat) (v : SlotState) : Core := { k with slots := AMap.put .empty k.slots n v }
def slotDesc (k : Core) (n : Nat) : BitVec 512 := AMap.get 0#512 k.descs n
def setSlotDesc (k : Core) (n : Nat) (d : BitVec 512) : Core := { k with descs := AMap.put 0#512 k.descs n d }
def scalarOf (k : Core) (n : Nat) : W32 := AMap.get 0#32 k.scalars n
def setScalar (k : Core) (n : Nat) (v : W32) : Core := { k with scalars := AMap.put 0#32 k.scalars n v }

def scanNone : ScanDesc := ⟨0, 0, 0, 0, 0, 0, 0, 0, 0, [], none⟩
def collClosed : Collector := ⟨false, 0, [], 0, 0, 0, 0, 0, scanNone⟩
def collOf (k : Core) (n : Nat) : Collector := AMap.get collClosed k.colls n
def setColl (k : Core) (n : Nat) (v : Collector) : Core := { k with colls := AMap.put collClosed k.colls n v }

/-- Address of a slot's first byte among the core's own bytes. -/
def slotAddr (n : Nat) : Nat := n * tileBytes

/-- R90: the slot becomes EMPTY, and bytes not written since then read 0. -/
def emptySlot (k : Core) (n : Nat) : Core :=
  { setSlot k n .empty with bytes := clearBytes k.bytes (slotAddr n) tileBytes }

/-- Slots touched by `len` bytes at `a`. -/
def slotsOf (a len : Nat) : List Nat :=
  if len = 0 then [] else (List.range ((a + len - 1) / tileBytes - a / tileBytes + 1)).map (· + a / tileBytes)

/-- The unit's allocation (R90, R95): its T0 slots and all 16 accumulator slots. -/
def ownsSlot (d : UnitDesc) (n : Nat) : Bool :=
  (decide (d.slotBase ≤ n) && decide (n < d.slotBase + d.slotCount) && decide (n < 192))
    || (decide (192 ≤ n) && decide (n ≤ 207))

/-- A T0 slot of the unit's allocation. -/
def ownsT0 (d : UnitDesc) (n : Nat) : Bool := ownsSlot d n && decide (n < 192)

/-- R148: `len` bytes wholly within slots 0 to 191, or wholly within the accumulator slots, and within the allocation. -/
def rangeOk (d : UnitDesc) (a len : Nat) : Bool :=
  let e := a + len
  (decide (e ≤ 192 * tileBytes) || (decide (192 * tileBytes ≤ a) && decide (e ≤ 208 * tileBytes)))
    && (slotsOf a len).all (ownsSlot d)

/-! ### Slot states as an engine meets them (R90) -/

inductive Gate where
  | pass | hold (slot : Nat) | fail (slot : Nat)
  deriving DecidableEq, Repr

/-- Reads: a RELEASE-PENDING slot is READ_AFTER_RELEASE, a slot that is not FULL stalls. -/
def readGate (k : Core) : List Nat → Gate
  | [] => .pass
  | n :: r =>
    match slotOf k n with
    | .releasePending => .fail n
    | .full => readGate k r
    | _ => .hold n

/-- Slots that the issued instructions of other engines still read (R149, R229). -/
def readByOthers (k : Core) (engine n : Nat) : Bool :=
  k.flights.any (fun f => f.word.engine != engine && f.reads.contains n)

/-- R130: a slot of an activation ring that an issued M instruction with ACONS will still read; `reads` lists the slots its rows reach. -/
def heldByRing (k : Core) (n : Nat) : Bool :=
  k.flights.any (fun f => f.word.engine == 0 && (f.word.opcode == 3 || f.word.opcode == 4) && bitOf f.word.o 83
    && decide (fld f.word.o 16 8 ≤ n) && decide (n ≤ fld f.word.o 16 8 + fld f.word.o 24 6) && f.reads.contains n)

/-- Writes: FILLING and RELEASE-PENDING hold; with `held`, so does a FULL slot that another engine has not finished reading, and
a FULL slot of a ring that a stream with ACONS will still read holds in any case (R130). -/
def writeGate (k : Core) (engine : Nat) (held : Bool) : List Nat → Gate
  | [] => .pass
  | n :: r =>
    match slotOf k n with
    | .filling => .hold n
    | .releasePending => .hold n
    | .full => if (held && readByOthers k engine n) || heldByRing k n then .hold n else writeGate k engine held r
    | .empty => writeGate k engine held r

def Gate.and (a b : Gate) : Gate := match a with | .pass => b | _ => a

/-- The slots become FILLING. -/
def fillSlots (k : Core) (l : List Nat) : Core := l.foldl (fun k n => setSlot k n .filling) k

/-- R213: an engine's write into a slot clears its descriptor but for LENGTH. -/
def wroteSlot (k : Core) (n len : Nat) : Core := setSlotDesc k n (setFld 0#512 32 15 len)

/-- Bytes of `[a, a+len)` that lie in slot `n`. -/
def bytesInSlot (a len n : Nat) : Nat :=
  min (a + len) ((n + 1) * tileBytes) - max a (n * tileBytes)

/-- Bytes an engine puts into a slot, over all the ranges it writes. -/
def bytesPut (l : List (Nat × List Byte)) (n : Nat) : Nat :=
  (l.map (fun r => bytesInSlot r.1 r.2.length n)).foldl (· + ·) 0

/-- The ranges in place. -/
def putRanges (m : List Host.Cell) (l : List (Nat × List Byte)) : List Host.Cell :=
  l.foldl (fun m r => writeBytes m r.1 r.2) m

/-- An engine's writes: the slots FILLING, their descriptors cleared, the bytes in place. -/
def engineWrite (k : Core) (slots : List Nat) (l : List (Nat × List Byte)) : Core :=
  let k := fillSlots k slots
  let k := slots.foldl (fun k n => wroteSlot k n (bytesPut l n)) k
  { k with bytes := putRanges k.bytes l }

/-! ### T2 and T3 tiles (R205, R208, R210, R211) -/

def t2Tiles : Nat := 75399168
def t3Base : Nat := 2 ^ 32

/-- The key of a tile: its device address over 16,384 (T2 from 0, T3 from 2^32). -/
def tileKey (r : TileRef) : Nat := if r.tier = 2 then t3Base + r.idx else r.idx

def tileDesc (s : State) (key : Nat) : BitVec 512 := AMap.get 0#512 s.media.tiles key
def setTile (s : State) (key : Nat) (d : BitVec 512) : State :=
  { s with media := { s.media with tiles := AMap.put 0#512 s.media.tiles key d } }

def tileEmpty : Nat := 0
def tileFilling : Nat := 1
def tileFull : Nat := 2
def tilePoisoned : Nat := 3

def dState (d : BitVec 512) : Nat := fld d 0 2
def dKind (d : BitVec 512) : Nat := fld d 2 4
def dNc (d : BitVec 512) : Bool := bitOf d 14
def dGlade (d : BitVec 512) : Nat := fld d 16 4
def dWp (d : BitVec 512) : Bool := bitOf d 47
def dLength (d : BitVec 512) : Nat := fld d 32 15
def setDState (d : BitVec 512) (v : Nat) : BitVec 512 := setFld d 0 2 v

/-- Bits that R213 moves with the payload: all but STATE, NC, GLADE and WP. -/
def movedMask : BitVec 512 :=
  ~~~(BitVec.ofNat 512 (3 + 2 ^ 14 + 15 * 2 ^ 16 + 2 ^ 47))

def moveDesc (src dst : BitVec 512) : BitVec 512 := (src &&& movedMask) ||| (dst &&& ~~~movedMask)

def devBytes (s : State) (a n : Nat) : List Byte := readBytes s.media.bytes a n
def setDevBytes (s : State) (b : List Host.Cell) : State := { s with media := { s.media with bytes := b } }

/-- R205, R208 item 1: a T2 tile of the interleaved range, or a T3 tile on the 64T variant. -/
def tilePopulated (s : State) (key : Nat) : Bool :=
  decide (key < t2Tiles) || (s.flash && decide (t3Base ≤ key) && decide (key < 2 * t3Base))

/-- R208: may the unit of Glade `g` make this access? -/
def reachOk (s : State) (g key : Nat) (write near : Bool) : Bool :=
  let d := tileDesc s key
  tilePopulated s key && (dGlade d == g || dGlade d == 15) && !(write && dWp d) && !(near && !dNc d)

/-- The channel of a T2 tile: interleaved (R216), or in a stack's replica area (R217). -/
def t2Channel (t : Nat) : Nat :=
  if t < t2Tiles then
    let q := t / 12
    32 * (t % 12) + (q % 32 ^^^ (q / 32 % 32))
  else 32 * ((t - t2Tiles) / 8192) + (t - t2Tiles) % 8192 % 32

/-- The tile row of a T2 tile within its channel (R216, R217). -/
def t2Row (t : Nat) : Nat := if t < t2Tiles then t / 384 else 196352 + (t - t2Tiles) % 8192 / 32

/-- Tiles of the T2 address space with the replica areas (R205). -/
def t2All : Nat := t2Tiles + 12 * 8192

/-- R218: the channel of a T3 tile, and the die of its logical page. -/
def t3Channel (n : Nat) : Nat := n % 256 ^^^ (n / 256 % 256)
def t3Die (n : Nat) : Nat := n / 256 % 8

/-- R220: the near caches drop the lines of a tile before it leaves FULL. -/
def dropLines (s : State) (key : Nat) : State :=
  { s with chip := { s.chip with cores := s.chip.cores.map (fun p =>
      (p.1, { p.2 with near := p.2.near.filter (fun l => l.1 / 256 != key) })) } }

/-- R219: a read of a line through the near cache of 1,024 sets of 8 lines, least recently used replaced. -/
def touchLine (near : List (Nat × Nat)) (line glade : Nat) : List (Nat × Nat) :=
  let rest := near.filter (fun l => l.1 != line)
  let same := rest.filter (fun l => l.1 % 1024 == line % 1024)
  let rest := if same.length < 8 then rest else
    match same.getLast? with | some v => rest.filter (fun l => l.1 != v.1) | none => rest
  (line, glade) :: rest

/-- Reads of `n` bytes at `a` through the near cache. -/
def touchRange (s : State) (near : List (Nat × Nat)) (a n : Nat) : List (Nat × Nat) :=
  (List.range ((a + n + 63) / 64 - a / 64)).foldl
    (fun near i => let l := a / 64 + i; touchLine near l (dGlade (tileDesc s (l / 256)))) near

/-- Bytes of the lines that reads filled into the near cache (R431). -/
def filledBytes (old new : List (Nat × Nat)) : Nat := 64 * (new.filter (fun l => !old.any (fun o => o.1 == l.1))).length

/-- Lines of the range that miss. -/
def lineMisses (near : List (Nat × Nat)) (a n : Nat) : Nat :=
  ((List.range ((a + n + 63) / 64 - a / 64)).filter (fun i => !near.any (fun l => l.1 == a / 64 + i))).length

/-! ### Sites (R75, R78 to R81) -/

/-- R79: the site of a logical core at delivery. -/
def homeSite (c : Nat) : Nat :=
  let g := c / 64
  let k := c % 64
  let row := if k < 2 then 0 else if k < 62 then 1 + (k - 2) / 3 else 21
  let col := if k < 2 then 3 * g + 2 * k else if k < 62 then 3 * g + (k - 2) % 3 else 3 * g + 2 * (k - 62)
  24 * row + col

/-- The site a core sits at now; none for an absent logical core (R81). -/
def siteOf (s : State) (c : Nat) : Option Nat :=
  if 512 ≤ c then some (c - 512)
  else match AMap.get none s.chip.homes c with
  | some h => h
  | none => some (homeSite c)

/-- MHz of operating point `n` (R469). -/
def pointMhz (n : Nat) : Nat := 400 + 25 * n

/-- Logical cores that sit at a site. -/
def presentCores (s : State) : Nat := 512 - (s.chip.homes.filter (fun h => h.2 == some none)).length

/-- A wake from DEEP IDLE to QUIET (R477), which the wait for the next boundary counts: 310 µs (R479). -/
def wake (s : State) : State :=
  if s.power.deep then { s with power := { s.power with deep := false }, sched := { s.sched with length := s.time + 310 - s.sched.start } } else s

/-- A T3 page operation, which FL_ACT shows for 20 ms (R536). -/
def pageOp (s : State) : State := if s.flash then { s with pins := { s.pins with flash := some s.time } } else s

/-- R78. -/
def groupOfSite (p : Nat) : Nat := p % 24 / 3

/-- R78: the two default spare sites of each group, ascending in site number over the die. -/
def defaultSpares : List Nat := (List.range 8).map (fun g => 3 * g + 1) ++ (List.range 8).map (fun g => 24 * 21 + 3 * g + 1)

/-! ### Error log (R413) -/

def logLimit : Nat := 1048576

def logNone : LogRec := ⟨0, 0, 0, 0, 0, 0xFF, 0#64, 0, 0xFFFF, 0xFFFF, 0, 0, 0#128⟩

/-- Append a record; it overwrites the oldest when 1,048,576 are kept. -/
def logAdd (s : State) (r : LogRec) : State :=
  let l := s.log.recs ++ [{ r with seq := s.log.next, time := s.time }]
  { s with log := ⟨if logLimit < l.length then l.tail else l, s.log.next + 1⟩ }

/-! ### Grove events (R465) -/

/-- A change of STATE in GL_SET: a kind 5 record with code 16 + STATE (log 24). -/
def setGroveState (s : State) (n : Nat) : State :=
  if s.grove.state = n then s
  else logAdd { s with grove := { s.grove with state := n } } { logNone with kind := 5, code := 16 + n }

/-! ### Operating time and decisions (R481, R496) -/

/-- Operating seconds. -/
def opSeconds (s : State) : Nat := s.kt.opBase + s.time / 1000000

def putDecisions (s : State) (l : List Decision) : State :=
  { s with kt := { s.kt with journal := { s.kt.journal with decisions := l } } }

/-- A decision entry; one of the same kind and component is replaced. The table holds 384 entries. -/
def addDecision (s : State) (kind value comp : Nat) : State :=
  let l := s.kt.journal.decisions.filter (fun d => !(d.kind == kind && d.comp == comp))
  putDecisions s ((l ++ [(⟨kind, value, comp, opSeconds s / 3600⟩ : Decision)]).take 384)

def dropDecision (s : State) (kind comp : Nat) : State :=
  putDecisions s (s.kt.journal.decisions.filter (fun d => !(d.kind == kind && d.comp == comp)))

/-! ### Regulators (R430) -/

/-- Depths of the two parts. -/
def bucketDepths (b : Bucket) : Nat × Nat :=
  let dRes := if b.rate = 0 then 0 else b.depth * b.rRes / b.rate
  (dRes, b.depth - dRes)

/-- Start a transfer of `n` bytes: from the reserved part for an admitted request, failing that from the free part. -/
def bucketDraw (b : Bucket) (n : Nat) (admitted : Bool) : Option Bucket :=
  let (dRes, dFree) := bucketDepths b
  if admitted && decide (((min n dRes : Nat) : Int) ≤ b.res) then some { b with res := b.res - n }
  else if decide (((min n dFree : Nat) : Int) ≤ b.free) then some { b with free := b.free - n }
  else none

def bucketNone : Bucket := ⟨0, 65536, 0, 0, 0⟩

/-- The resources a set regulates (R430, R431). -/
inductive Resource where
  | t2 | t3 | grove | hostOut | hostIn
  deriving DecidableEq, Repr

def bucketOf (r : RegSet) : Resource → Bucket
  | .t2 => r.t2
  | .t3 => r.t3
  | .grove => r.grove
  | .hostOut => r.hostOut
  | .hostIn => r.hostIn

def setBucket (r : RegSet) (x : Resource) (b : Bucket) : RegSet :=
  match x with
  | .t2 => { r with t2 := b }
  | .t3 => { r with t3 := b }
  | .grove => { r with grove := b }
  | .hostOut => { r with hostOut := b }
  | .hostIn => { r with hostIn := b }

def resNumber : Resource → Nat
  | .t2 => 0
  | .t3 => 1
  | .grove => 2
  | .hostOut => 3
  | .hostIn => 4

/-- R430: a transfer of `n` bytes starts behind the transfers of its set and resource requested before it; `none` when it is held. -/
def drawTokens (s : State) (set : Nat) (x : Resource) (n : Nat) (admitted : Bool) (t : Ticket) : Option State :=
  if n = 0 then some s
  else if (s.holds.takeWhile (· != t)).any (fun h => h.set == set && h.res == resNumber x) then none
  else match AMap.get none s.regs set with
    | none => none
    | some r => (bucketDraw (bucketOf r x) n admitted).map (fun b =>
        { s with regs := AMap.put none s.regs set (some (setBucket r x b)), holds := s.holds.filter (· != t) })

/-- R431: a transfer of Wenik's own to or from the host, counted in its set; one that its bucket would hold is counted in the free part (log
29: it is not delayed). -/
def chargeTokens (s : State) (set : Nat) (x : Resource) (n : Nat) (admitted : Bool) : State :=
  match AMap.get none s.regs set with
  | none => s
  | some r =>
    let b := bucketOf r x
    { s with regs := AMap.put none s.regs set (some (setBucket r x ((bucketDraw b n admitted).getD { b with free := b.free - n }))) }

/-- The regulator set of a function's own traffic (R426, R431): a VF's Glade, set 8 for the PF. -/
def setOfFunc (f : Byte) : Nat := if f = 0#8 then 8 else f.toNat - 1

/-- The transfer waits its turn (R430). -/
def holdTicket (s : State) (t : Ticket) : State := if s.holds.contains t then s else { s with holds := s.holds ++ [t] }

/-- Whether the work of a unit has a reservation (R430): work of INGEST, merges and Wenik's own draws on the free part only. -/
def unitReserved (u : UnitDesc) : Bool := u.owner.isSome || !u.members.isEmpty

end Sys2Proof.Machine
end

