-- ==== Sys2Proof/Machine/Operands.lean ====
section
/-!
DEFINITION. The operand forms of the engines: the fields of bits [87:0] of each instruction (R127, R128, R147, R163, R182, R222 to
R227, R263 to R265, R368), the addresses they name, and the reserved bits.
-/
namespace Sys2Proof.Machine

abbrev Ops88 := BitVec 88

/-- Bits `[hi:lo]` are all 0. -/
def zeroBits (o : Ops88) (lo hi : Nat) : Bool := fld o lo (hi + 1 - lo) == 0

def engM : Nat := 0
def engV : Nat := 1
def engS : Nat := 2
def engG : Nat := 3
def engQ : Nat := 4
def engC : Nat := 5
def engX : Nat := 6
def engD : Nat := 15

/-- R83: the engine code of an engine. -/
def engineCode : EngineId → Nat
  | .m => 0
  | .v => 1
  | .s => 2
  | .g => 3
  | .q => 4
  | .c => 5
  | .x => 6

/-- A slot and an offset in 16-byte units (R148). -/
def addr16 (slot off : Nat) : Nat := slot * tileBytes + off * 16

/-- A slot and an offset in 32-byte units (R163). -/
def addr32 (slot off : Nat) : Nat := slot * tileBytes + off * 32

def roundUp (n m : Nat) : Nat := ceilDiv n m * m

/-! ### Matrix (R127, R128) -/

/-- A plane load: element slot, half, side flag, side slot, side offset, format, sparse flag. -/
structure LoadOp where
  wslot  : Nat
  half   : Nat
  side   : Bool
  sslot  : Nat
  soff   : Nat
  wfmt   : Nat
  sparse : Bool
  deriving DecidableEq, Repr

def mloadOp (o : Ops88) : LoadOp :=
  ⟨fld o 0 8, fld o 8 1, bitOf o 9, fld o 10 8, fld o 18 5, fld o 23 4, bitOf o 27⟩

structure StreamOp where
  rows  : Nat
  abase : Nat
  alen  : Nat
  arow  : Nat
  afmt  : Nat
  oidx  : Nat
  orow  : Nat
  olen  : Nat
  lben  : Bool
  lb    : LoadOp
  acons : Bool
  deriving DecidableEq, Repr

def streamOp (o : Ops88) : StreamOp :=
  ⟨fld o 0 16, fld o 16 8, fld o 24 6, fld o 30 8, fld o 38 3, fld o 41 4, fld o 45 5, fld o 50 4, bitOf o 54,
   ⟨fld o 55 8, fld o 63 1, bitOf o 64, fld o 65 8, fld o 73 5, fld o 78 4, bitOf o 82⟩, bitOf o 83⟩

/-! ### Vector (R147) -/

structure VOp where
  a    : Nat
  b    : Nat
  d    : Nat
  dslot : Nat
  doff : Nat
  afmt : Nat
  dfmt : Nat
  sidx : Nat
  aadv : Bool
  badv : Bool
  dadv : Bool
  wide : Bool
  len  : Nat
  deriving DecidableEq, Repr

def vOp (o : Ops88) : VOp :=
  ⟨addr16 (fld o 0 8) (fld o 8 10), addr16 (fld o 18 8) (fld o 26 10), addr16 (fld o 36 8) (fld o 44 10),
   fld o 36 8, fld o 44 10, fld o 54 4, fld o 58 4, fld o 62 4, bitOf o 66, bitOf o 67, bitOf o 68, bitOf o 69, fld o 70 18 + 1⟩

/-! ### Select (R163) -/

structure SOp where
  row   : Nat
  dst   : Nat
  len   : Nat
  k     : Nat
  sfmt  : Nat
  keyed : Bool
  mass  : Bool
  ninf  : Bool
  bound : Bool
  adv   : Bool
  bnd   : Nat
  deriving DecidableEq, Repr

def sOp (o : Ops88) : SOp :=
  ⟨addr32 (fld o 0 8) (fld o 8 9), addr32 (fld o 17 8) (fld o 25 9), fld o 34 18 + 1, fld o 52 8 + 1, fld o 60 4,
   bitOf o 64, bitOf o 65, bitOf o 66, bitOf o 67, bitOf o 68, addr32 (fld o 69 8) (fld o 77 9)⟩

/-- Bytes of one element of a row (R160). -/
def sElemSize (p : SOp) : Nat := if p.keyed then 16 else if p.sfmt = 7 || p.sfmt = 8 then 2 else 4

/-- Bytes of the result (R165). -/
def sResultSize (p : SOp) : Nat := 64 + (if p.keyed then 16 else 8) * p.k

/-! ### Gather (R182) -/

structure GOp where
  desc : Nat
  doff : Nat
  list : Nat
  out  : Nat
  ofmt : Nat
  unw  : Bool
  adv  : Bool
  bag  : Nat
  bags : Nat
  deriving DecidableEq, Repr

def gOp (o : Ops88) : GOp :=
  ⟨addr16 (fld o 0 8) (fld o 8 10), fld o 8 10, addr16 (fld o 18 8) (fld o 26 10), addr16 (fld o 36 8) (fld o 44 10), fld o 54 4,
   bitOf o 58, bitOf o 59, fld o 60 8 + 1, fld o 68 16 + 1⟩

/-! ### Search (R263 to R265) -/

structure QOpenOp where
  coll : Nat
  desc : Nat
  filt : Nat
  k    : Nat
  deriving DecidableEq, Repr

def qOpenOp (o : Ops88) : QOpenOp :=
  ⟨fld o 0 4, addr16 (fld o 4 8) (fld o 12 10), addr16 (fld o 22 8) (fld o 30 10), fld o 40 8 + 1⟩

structure QScanOp where
  coll  : Nat
  probe : Nat
  n     : Nat
  deriving DecidableEq, Repr

def qScanOp (o : Ops88) : QScanOp := ⟨fld o 0 4, addr16 (fld o 4 8) (fld o 12 10), fld o 22 12 + 1⟩

structure QDrainOp where
  coll : Nat
  out  : Nat
  deriving DecidableEq, Repr

def qDrainOp (o : Ops88) : QDrainOp := ⟨fld o 0 4, addr16 (fld o 4 8) (fld o 12 10)⟩

/-! ### Copy (R222 to R227) -/

/-- A 34-bit tile reference. -/
def tileRef (n : Nat) : TileRef := ⟨n / 2 ^ 32 % 4, n % 2 ^ 32⟩

def refNext (r : TileRef) (i : Nat) : TileRef := ⟨r.tier, r.idx + i⟩

/-- R223: the allowed tier pairs. -/
def pairAllowed (src dst : Nat) : Bool :=
  (src == 0 && dst == 0) || (src == 0 && dst == 1) || (src == 1 && dst == 0) || (src == 1 && dst == 1)
    || (src == 1 && dst == 2) || (src == 2 && dst == 1)

structure CPartOp where
  slot : Nat
  soff : Nat
  tile : Nat
  toff : Nat
  len  : Nat
  toT2 : Bool
  deriving DecidableEq, Repr

def cPartOp (o : Ops88) : CPartOp := ⟨fld o 0 8, fld o 8 10, fld o 18 27, fld o 45 10, fld o 55 10 + 1, bitOf o 65⟩

/-! ### Cipher (R368) -/

structure XDecOp where
  src  : TileRef
  slot : Nat
  ksrc : Bool
  key  : Nat
  deriving DecidableEq, Repr

def xDecOp (o : Ops88) : XDecOp := ⟨tileRef (fld o 0 34), fld o 34 8, bitOf o 42, fld o 43 32⟩

structure XEncOp where
  src    : Nat
  dst    : Nat
  len    : Nat
  key    : Nat
  tenant : Nat
  deriving DecidableEq, Repr

def xEncOp (o : Ops88) : XEncOp := ⟨fld o 0 8, fld o 8 8, fld o 16 14 + 1, fld o 30 32, fld o 62 12⟩

structure XOpenOp where
  tile : Nat
  slot : Nat
  obj  : Nat
  deriving DecidableEq, Repr

def xOpenOp (o : Ops88) : XOpenOp := ⟨fld o 0 27, fld o 27 8, fld o 35 24⟩

structure XSealOp where
  slot : Nat
  off  : Nat
  len  : Nat
  desc : Nat
  deriving DecidableEq, Repr

def xSealOp (o : Ops88) : XSealOp := ⟨fld o 0 8, fld o 8 10, fld o 18 14 + 1, fld o 32 24⟩

end Sys2Proof.Machine
end

