-- ==== Sys2Proof/Decode.lean ====
section
/-!
DEFINITION. The words of the module's own instructions (R83): fields of the 128 bits of an engine instruction, the operation that an
engine code and an opcode name (R84, R126, R150, R164, R182, R222, R262, R368), and the encoder beside them. The table of commands gives
no bits: a command is no word, so the host's word spells none.
-/
namespace Sys2Proof

/-- The command that a word spells by the table of commands: it gives no bits. -/
def decodeTableWord (_nbits _w : Nat) : Option Instr := none

/-- Issue fields, bits [115:88]. -/
def decodeHdr (w : W128) : Hdr :=
  { sigen := bitOf w 115, sigtok := w.extractLsb' 109 6, waen := bitOf w 108, watok := w.extractLsb' 102 6, wben := bitOf w 101
    wbtok := w.extractLsb' 95 6, consume := bitOf w 94, release := bitOf w 93, rsvd := w.extractLsb' 88 5 }

def decodeEngineCode (w : W128) : Nat := (w.extractLsb' 124 4).toNat
def decodeOpcode (w : W128) : Nat := (w.extractLsb' 116 8).toNat
def decodeOperands (w : W128) : BitVec 88 := w.extractLsb' 0 88

def bit1 (b : Bool) : BitVec 1 := if b then 1#1 else 0#1

/-- The 128 bits of an instruction, from the engine code down to the operands. -/
def encodeParts (engine opcode : Nat) (h : Hdr) (o : BitVec 88) : W128 :=
  BitVec.ofNat 4 engine ++ (BitVec.ofNat 8 opcode ++ (bit1 h.sigen ++ (h.sigtok ++ (bit1 h.waen ++ (h.watok ++ (bit1 h.wben ++ (h.wbtok
    ++ (bit1 h.consume ++ (bit1 h.release ++ (h.rsvd ++ o))))))))))

/-- The operation of an engine code and an opcode; reserved ones name none. -/
def operationOf (engine opcode : Nat) (core : CoreId) (h : Hdr) (o : BitVec 88) : Option Instr :=
  match engine, opcode with
  | 15, 0x00 => some (.nop core h o)
  | 15, 0x01 => some (.endUnit core h o)
  | 15, 0x02 => some (.loop core h o)
  | 15, 0x03 => some (.slotfree core h o)
  | 15, 0x04 => some (.tokclr core h o)
  | 15, 0x05 => some (.drain core h o)
  | 0, 0x01 => some (.mload core h o)
  | 0, 0x02 => some (.mswap core h o)
  | 0, 0x03 => some (.mstream core h o)
  | 0, 0x04 => some (.macc core h o)
  | 1, 0x01 => some (.vadd core h o)
  | 1, 0x02 => some (.vsub core h o)
  | 1, 0x03 => some (.vmul core h o)
  | 1, 0x04 => some (.vfma core h o)
  | 1, 0x05 => some (.vscale core h o)
  | 1, 0x06 => some (.vmax core h o)
  | 1, 0x07 => some (.vmin core h o)
  | 1, 0x08 => some (.vcvt core h o)
  | 1, 0x09 => some (.vexp core h o)
  | 1, 0x0A => some (.vrsqrt core h o)
  | 1, 0x0B => some (.vsilu core h o)
  | 1, 0x0C => some (.vswiglu core h o)
  | 1, 0x0D => some (.vgelu core h o)
  | 1, 0x0E => some (.vgeglu core h o)
  | 1, 0x10 => some (.vsum core h o)
  | 1, 0x11 => some (.vsumsq core h o)
  | 1, 0x12 => some (.vdot core h o)
  | 1, 0x13 => some (.vmaxr core h o)
  | 1, 0x20 => some (.vrmsnorm core h o)
  | 1, 0x21 => some (.vnorm2 core h o)
  | 1, 0x22 => some (.vsoftmax core h o)
  | 1, 0x23 => some (.vrope core h o)
  | 1, 0x30 => some (.packa core h o)
  | 1, 0x31 => some (.dtip core h o)
  | 1, 0x32 => some (.dtl2 core h o)
  | 1, 0x38 => some (.sload core h o)
  | 1, 0x39 => some (.sstore core h o)
  | 2, 0x01 => some (.topk core h o)
  | 2, 0x02 => some (.argmax core h o)
  | 2, 0x03 => some (.thresh core h o)
  | 3, 0x01 => some (.gpool core h o)
  | 4, 0x01 => some (.qopen core h o)
  | 4, 0x02 => some (.qscan core h o)
  | 4, 0x03 => some (.qdrain core h o)
  | 5, 0x01 => some (.ctile core h o)
  | 5, 0x02 => some (.clist core h o)
  | 5, 0x03 => some (.cpart core h o)
  | 5, 0x04 => some (.cmcast core h o)
  | 5, 0x05 => some (.crecv core h o)
  | 5, 0x06 => some (.csetd core h o)
  | 6, 0x01 => some (.xdec core h o)
  | 6, 0x02 => some (.xenc core h o)
  | 6, 0x03 => some (.xopen core h o)
  | 6, 0x04 => some (.xseal core h o)
  | _, _ => none

/-- The instruction that a program word gives a core. -/
def decodeEngine (core : CoreId) (w : W128) : Option Instr :=
  operationOf (decodeEngineCode w) (decodeOpcode w) core (decodeHdr w) (decodeOperands w)

/-- Engine code, opcode, issue fields and operands of an instruction; other commands have no word. -/
def partsOf : Instr → Option (Nat × Nat × Hdr × BitVec 88)
  | .nop _ h o => some (15, 0x00, h, o)
  | .endUnit _ h o => some (15, 0x01, h, o)
  | .loop _ h o => some (15, 0x02, h, o)
  | .slotfree _ h o => some (15, 0x03, h, o)
  | .tokclr _ h o => some (15, 0x04, h, o)
  | .drain _ h o => some (15, 0x05, h, o)
  | .mload _ h o => some (0, 0x01, h, o)
  | .mswap _ h o => some (0, 0x02, h, o)
  | .mstream _ h o => some (0, 0x03, h, o)
  | .macc _ h o => some (0, 0x04, h, o)
  | .vadd _ h o => some (1, 0x01, h, o)
  | .vsub _ h o => some (1, 0x02, h, o)
  | .vmul _ h o => some (1, 0x03, h, o)
  | .vfma _ h o => some (1, 0x04, h, o)
  | .vscale _ h o => some (1, 0x05, h, o)
  | .vmax _ h o => some (1, 0x06, h, o)
  | .vmin _ h o => some (1, 0x07, h, o)
  | .vcvt _ h o => some (1, 0x08, h, o)
  | .vexp _ h o => some (1, 0x09, h, o)
  | .vrsqrt _ h o => some (1, 0x0A, h, o)
  | .vsilu _ h o => some (1, 0x0B, h, o)
  | .vswiglu _ h o => some (1, 0x0C, h, o)
  | .vgelu _ h o => some (1, 0x0D, h, o)
  | .vgeglu _ h o => some (1, 0x0E, h, o)
  | .vsum _ h o => some (1, 0x10, h, o)
  | .vsumsq _ h o => some (1, 0x11, h, o)
  | .vdot _ h o => some (1, 0x12, h, o)
  | .vmaxr _ h o => some (1, 0x13, h, o)
  | .vrmsnorm _ h o => some (1, 0x20, h, o)
  | .vnorm2 _ h o => some (1, 0x21, h, o)
  | .vsoftmax _ h o => some (1, 0x22, h, o)
  | .vrope _ h o => some (1, 0x23, h, o)
  | .packa _ h o => some (1, 0x30, h, o)
  | .dtip _ h o => some (1, 0x31, h, o)
  | .dtl2 _ h o => some (1, 0x32, h, o)
  | .sload _ h o => some (1, 0x38, h, o)
  | .sstore _ h o => some (1, 0x39, h, o)
  | .topk _ h o => some (2, 0x01, h, o)
  | .argmax _ h o => some (2, 0x02, h, o)
  | .thresh _ h o => some (2, 0x03, h, o)
  | .gpool _ h o => some (3, 0x01, h, o)
  | .qopen _ h o => some (4, 0x01, h, o)
  | .qscan _ h o => some (4, 0x02, h, o)
  | .qdrain _ h o => some (4, 0x03, h, o)
  | .ctile _ h o => some (5, 0x01, h, o)
  | .clist _ h o => some (5, 0x02, h, o)
  | .cpart _ h o => some (5, 0x03, h, o)
  | .cmcast _ h o => some (5, 0x04, h, o)
  | .crecv _ h o => some (5, 0x05, h, o)
  | .csetd _ h o => some (5, 0x06, h, o)
  | .xdec _ h o => some (6, 0x01, h, o)
  | .xenc _ h o => some (6, 0x02, h, o)
  | .xopen _ h o => some (6, 0x03, h, o)
  | .xseal _ h o => some (6, 0x04, h, o)
  | _ => none

/-- The core an instruction is presented to. -/
def coreOfInstr : Instr → CoreId
  | .nop core _ _ => core
  | .endUnit core _ _ => core
  | .loop core _ _ => core
  | .slotfree core _ _ => core
  | .tokclr core _ _ => core
  | .drain core _ _ => core
  | .mload core _ _ => core
  | .mswap core _ _ => core
  | .mstream core _ _ => core
  | .macc core _ _ => core
  | .vadd core _ _ => core
  | .vsub core _ _ => core
  | .vmul core _ _ => core
  | .vfma core _ _ => core
  | .vscale core _ _ => core
  | .vmax core _ _ => core
  | .vmin core _ _ => core
  | .vcvt core _ _ => core
  | .vexp core _ _ => core
  | .vrsqrt core _ _ => core
  | .vsilu core _ _ => core
  | .vswiglu core _ _ => core
  | .vgelu core _ _ => core
  | .vgeglu core _ _ => core
  | .vsum core _ _ => core
  | .vsumsq core _ _ => core
  | .vdot core _ _ => core
  | .vmaxr core _ _ => core
  | .vrmsnorm core _ _ => core
  | .vnorm2 core _ _ => core
  | .vsoftmax core _ _ => core
  | .vrope core _ _ => core
  | .packa core _ _ => core
  | .dtip core _ _ => core
  | .dtl2 core _ _ => core
  | .sload core _ _ => core
  | .sstore core _ _ => core
  | .topk core _ _ => core
  | .argmax core _ _ => core
  | .thresh core _ _ => core
  | .gpool core _ _ => core
  | .qopen core _ _ => core
  | .qscan core _ _ => core
  | .qdrain core _ _ => core
  | .ctile core _ _ => core
  | .clist core _ _ => core
  | .cpart core _ _ => core
  | .cmcast core _ _ => core
  | .crecv core _ _ => core
  | .csetd core _ _ => core
  | .xdec core _ _ => core
  | .xenc core _ _ => core
  | .xopen core _ _ => core
  | .xseal core _ _ => core
  | _ => 0#11

/-- The word of an engine instruction. -/
def encodeEngine (i : Instr) : Option W128 := (partsOf i).map (fun p => encodeParts p.1 p.2.1 p.2.2.1 p.2.2.2)

end Sys2Proof
end

