-- ==== Sys2Proof/Machine/Float.lean ====
section
/-!
DEFINITION. Arithmetic of the engines: element formats (R110, R143), exact values, one rounding to nearest even per operation
(R115, R145), conversions (R144, R146) and the correctly rounded functions of R145.
-/
namespace Sys2Proof.Machine

/-- An exact value: `±m × 2^e`, an infinity, or NaN. -/
inductive Num where
  | nan
  | inf (neg : Bool)
  | fin (neg : Bool) (m : Nat) (e : Int)
  deriving DecidableEq, Repr

/-- A binary format: precision with the hidden bit, exponent of the least subnormal, largest exponent field of a finite value. -/
structure FpFmt where
  prec  : Nat
  qmin  : Int
  emaxF : Nat
  deriving DecidableEq, Repr

def fmtFp32 : FpFmt := ⟨24, -149, 254⟩
def fmtBf16 : FpFmt := ⟨8, -133, 254⟩
def fmtFp16 : FpFmt := ⟨11, -24, 30⟩
def fmtE5m2 : FpFmt := ⟨3, -16, 30⟩
def fmtE4m3 : FpFmt := ⟨4, -9, 15⟩
def fmtE2m1 : FpFmt := ⟨2, -1, 3⟩

/-- Number of bits of `n`, 0 for 0. -/
def bitLen (n : Nat) : Nat := if n = 0 then 0 else n.log2 + 1

/-- Sign, exponent field and fraction of a finite encoding. -/
def finiteOf (f : FpFmt) (neg : Bool) (ef fr : Nat) : Num :=
  if ef = 0 then .fin neg fr f.qmin else .fin neg (fr + 2 ^ (f.prec - 1)) (f.qmin + ef - 1)

/-- The exact value of an IEEE encoding of `1 + eb + (prec - 1)` bits. -/
def numOfIeee (f : FpFmt) (eb : Nat) (w : Nat) : Num :=
  let fb := f.prec - 1
  let fr := w % 2 ^ fb
  let ef := w / 2 ^ fb % 2 ^ eb
  let neg := w / 2 ^ (fb + eb) % 2 == 1
  if ef = 2 ^ eb - 1 then (if fr = 0 then .inf neg else .nan) else finiteOf f neg ef fr

def numOfFp32 (w : W32) : Num := numOfIeee fmtFp32 8 w.toNat
def numOfBf16 (w : Nat) : Num := numOfIeee fmtBf16 8 w
def numOfFp16 (w : Nat) : Num := numOfIeee fmtFp16 5 w
def numOfE5m2 (w : Nat) : Num := numOfIeee fmtE5m2 5 w

/-- R110: no infinity; exponent and mantissa all ones is NaN. -/
def numOfE4m3 (w : Nat) : Num :=
  if w % 128 = 127 then .nan else finiteOf fmtE4m3 (w / 128 % 2 == 1) (w / 8 % 16) (w % 8)

/-- R110: no infinity and no NaN; negative zero equals zero. -/
def numOfE2m1 (w : Nat) : Num :=
  if w % 8 = 0 then .fin false 0 0 else finiteOf fmtE2m1 (w / 8 % 2 == 1) (w / 2 % 4) (w % 2)

def numOfInt (i : Int) : Num := .fin (decide (i < 0)) i.natAbs 0

/-- Two's complement value of the low `bits` of `w`. -/
def signedOf (bits w : Nat) : Int :=
  let v := w % 2 ^ bits
  if v < 2 ^ (bits - 1) then (v : Int) else (v : Int) - 2 ^ bits

/-! ### Rounding -/

/-- `m × 2^e` (plus a part below one unit of `m` when `sticky`) in units of `2^q`, to nearest, ties to even. -/
def roundUnits (m : Nat) (e q : Int) (sticky : Bool) : Nat :=
  if q ≤ e then m * 2 ^ (e - q).toNat
  else
    let sh := (q - e).toNat
    let n := m / 2 ^ sh
    let r := m % 2 ^ sh
    let half := 2 ^ (sh - 1)
    if half < r || (r == half && (sticky || n % 2 == 1)) then n + 1 else n

/-- Exponent and fraction bits of the nearest encoding; the exponent field can exceed `emaxF` (overflow). -/
def roundBits (f : FpFmt) (m : Nat) (e : Int) (sticky : Bool) : Nat :=
  let q := max f.qmin ((bitLen m : Int) + e - f.prec)
  let n := roundUnits m e q sticky
  if n < 2 ^ (f.prec - 1) then n
  else ((q - f.qmin).toNat + 1) * 2 ^ (f.prec - 1) + (n - 2 ^ (f.prec - 1))

/-- Largest finite magnitude's bits (the all-ones fraction of E4M3's top exponent is NaN, R110). -/
def maxBits (f : FpFmt) : Nat :=
  if f.prec = 4 then 126 else f.emaxF * 2 ^ (f.prec - 1) + (2 ^ (f.prec - 1) - 1)

def fp32NaN : W32 := 0x7FC00000#32
def fp32Inf (neg : Bool) : W32 := if neg then 0xFF800000#32 else 0x7F800000#32
def fp32NegInf : W32 := 0xFF800000#32
def fp32One : W32 := 0x3F800000#32

/-- One rounding to FP32: to nearest even, overflow to infinity, gradual underflow (R115, R145). -/
def fp32Round (neg : Bool) (m : Nat) (e : Int) (sticky : Bool) : W32 :=
  let b := roundBits fmtFp32 m e sticky
  let b := if maxBits fmtFp32 < b then 0x7F800000 else b
  BitVec.ofNat 32 (if neg then b + 2 ^ 31 else b)

def fp32OfNum : Num → W32
  | .nan => fp32NaN
  | .inf n => fp32Inf n
  | .fin n m e => fp32Round n m e false

/-! ### FP32 operations -/

def Num.isNan : Num → Bool
  | .nan => true
  | _ => false

def signedMant (neg : Bool) (m : Nat) : Int := if neg then -(m : Int) else m

/-- The exact sum of two finite values as a mantissa and the lower exponent. -/
def exactAdd (n1 : Bool) (m1 : Nat) (e1 : Int) (n2 : Bool) (m2 : Nat) (e2 : Int) : Int × Int :=
  let e := min e1 e2
  (signedMant n1 (m1 * 2 ^ (e1 - e).toNat) + signedMant n2 (m2 * 2 ^ (e2 - e).toNat), e)

def numAdd (a b : Num) : Num :=
  match a, b with
  | .nan, _ => .nan
  | _, .nan => .nan
  | .inf n, .inf k => if n = k then .inf n else .nan
  | .inf n, _ => .inf n
  | _, .inf n => .inf n
  | .fin n1 m1 e1, .fin n2 m2 e2 =>
    let (s, e) := exactAdd n1 m1 e1 n2 m2 e2
    if s = 0 then .fin (n1 && n2) 0 0 else .fin (decide (s < 0)) s.natAbs e

def numMul (a b : Num) : Num :=
  match a, b with
  | .nan, _ => .nan
  | _, .nan => .nan
  | .inf n, .inf k => .inf (n != k)
  | .inf n, .fin k m _ => if m = 0 then .nan else .inf (n != k)
  | .fin n m _, .inf k => if m = 0 then .nan else .inf (n != k)
  | .fin n1 m1 e1, .fin n2 m2 e2 => .fin (n1 != n2) (m1 * m2) (e1 + e2)

def numNeg : Num → Num
  | .nan => .nan
  | .inf n => .inf (!n)
  | .fin n m e => .fin (!n) m e

def fpAdd (a b : W32) : W32 := fp32OfNum (numAdd (numOfFp32 a) (numOfFp32 b))
def fpSub (a b : W32) : W32 := fp32OfNum (numAdd (numOfFp32 a) (numNeg (numOfFp32 b)))
def fpMul (a b : W32) : W32 := fp32OfNum (numMul (numOfFp32 a) (numOfFp32 b))
def fpFma (a b c : W32) : W32 := fp32OfNum (numAdd (numMul (numOfFp32 a) (numOfFp32 b)) (numOfFp32 c))
def fpNeg (a : W32) : W32 := fp32OfNum (numNeg (numOfFp32 a))

/-- Division of finite nonzero magnitudes: 32 extra quotient bits and a sticky remainder. -/
def divRound (neg : Bool) (m1 : Nat) (e1 : Int) (m2 : Nat) (e2 : Int) : W32 :=
  let k := bitLen m2 + 32
  let n := m1 * 2 ^ k
  fp32Round neg (n / m2) (e1 - e2 - k) (n % m2 != 0)

def fpDiv (a b : W32) : W32 :=
  match numOfFp32 a, numOfFp32 b with
  | .nan, _ => fp32NaN
  | _, .nan => fp32NaN
  | .inf _, .inf _ => fp32NaN
  | .inf n, .fin k _ _ => fp32Inf (n != k)
  | .fin n _ _, .inf k => fp32Round (n != k) 0 0 false
  | .fin n m1 e1, .fin k m2 e2 =>
    if m2 = 0 then (if m1 = 0 then fp32NaN else fp32Inf (n != k)) else divRound (n != k) m1 e1 m2 e2

/-- `⌊√n⌋`, by bits from the highest. -/
def isqrt (n : Nat) : Nat :=
  ((List.range (bitLen n / 2 + 1)).reverse).foldl
    (fun r i => if (r + 2 ^ i) * (r + 2 ^ i) ≤ n then r + 2 ^ i else r) 0

/-- A magnitude with an even exponent. -/
def evenExp (m : Nat) (e : Int) : Nat × Int := if e % 2 = 0 then (m, e) else (2 * m, e - 1)

def fpSqrt (a : W32) : W32 :=
  match numOfFp32 a with
  | .nan => fp32NaN
  | .inf n => if n then fp32NaN else fp32Inf false
  | .fin n m e =>
    if m = 0 then a else if n then fp32NaN
    else
      let (m, e) := evenExp m e
      let w := m * 2 ^ 64
      let r := isqrt w
      fp32Round false r (e / 2 - 32) (r * r != w)

/-- `1/√a`, correctly rounded: `⌊√(2^k / m)⌋` and a sticky remainder. -/
def fpRsqrt (a : W32) : W32 :=
  match numOfFp32 a with
  | .nan => fp32NaN
  | .inf n => if n then fp32NaN else 0#32
  | .fin n m e =>
    if m = 0 then fp32Inf n else if n then fp32NaN
    else
      let (m, e) := evenExp m e
      let w := 2 ^ 128
      let r := isqrt (w / m)
      fp32Round false r (-(e / 2) - 64) (r * r * m != w)

/-- Exact comparison of finite or infinite values: `a < b` (−0 equal to +0); false when either is NaN. -/
def numLt (a b : Num) : Bool :=
  match a, b with
  | .nan, _ => false
  | _, .nan => false
  | .inf n, .inf k => n && !k
  | .inf n, _ => n
  | _, .inf k => !k
  | .fin n1 m1 e1, .fin n2 m2 e2 => decide ((exactAdd n1 m1 e1 (!n2) m2 e2).1 < 0)

def numEq (a b : Num) : Bool :=
  !a.isNan && !b.isNan && !numLt a b && !numLt b a

def numNegSign : Num → Bool
  | .nan => false
  | .inf n => n
  | .fin n _ _ => n

/-- VMAX of R150: NaN when either input is NaN; −0 less than +0. -/
def fpMax (a b : W32) : W32 :=
  let x := numOfFp32 a
  let y := numOfFp32 b
  if x.isNan || y.isNan then fp32NaN
  else if numLt x y then b else if numLt y x then a else if numNegSign x then b else a

/-- VMIN of R150. -/
def fpMin (a b : W32) : W32 :=
  let x := numOfFp32 a
  let y := numOfFp32 b
  if x.isNan || y.isNan then fp32NaN
  else if numLt x y then a else if numLt y x then b else if numNegSign x then a else b

def fpIsNan (a : W32) : Bool := (numOfFp32 a).isNan
def fpLt (a b : W32) : Bool := numLt (numOfFp32 a) (numOfFp32 b)
def fpEq (a b : W32) : Bool := numEq (numOfFp32 a) (numOfFp32 b)
def fpFinite (a : W32) : Bool := match numOfFp32 a with | .fin _ _ _ => true | _ => false
def fpIsFinite (a : W32) : Bool := match numOfFp32 a with | .fin _ _ _ => true | _ => false
def fpIsZero (a : W32) : Bool := match numOfFp32 a with | .fin _ m _ => m == 0 | _ => false
def fpOfInt (i : Int) : W32 := fp32OfNum (numOfInt i)
def fpOfNat (n : Nat) : W32 := fpOfInt n

/-- The nearest integer, ties to even, of a finite value; `none` for NaN and infinities. -/
def numRne : Num → Option Int
  | .fin n m e => some (signedMant n (roundUnits m e 0 false))
  | _ => none

def clampInt (lo hi v : Int) : Int := max lo (min hi v)

/-- Nearest integer of an FP32 value saturated to `bits` bits; 0 for NaN (R146). -/
def fpToInt (bits : Nat) (a : W32) : Int :=
  let lo : Int := -(2 ^ (bits - 1))
  let hi : Int := 2 ^ (bits - 1) - 1
  match numOfFp32 a with
  | .nan => 0
  | .inf n => if n then lo else hi
  | .fin n m e => clampInt lo hi (signedMant n (roundUnits m e 0 false))

/-! ### Correctly rounded functions (R145)

Each is evaluated in fixed point with `p` fraction bits and a stated error; the result stands when both ends of the error interval
round to the same FP32 value, and the precision is doubled otherwise. -/

/-- `2 × atanh(1/3) = ln 2` in units of `2^-p`; error below the number of terms. -/
def lnTwo (p : Nat) : Nat :=
  (List.range (p / 3 + 2)).foldl (fun s i => s + 2 * 2 ^ p / (3 ^ (2 * i + 1) * (2 * i + 1))) 0

/-- `atan(1/x)` in units of `2^-p`. -/
def atanInv (p x : Nat) : Int :=
  (List.range (p / 4 + 2)).foldl
    (fun s i => let t : Int := (2 ^ p / (x ^ (2 * i + 1) * (2 * i + 1)) : Nat)
                if i % 2 = 0 then s + t else s - t) 0

/-- `π` in units of `2^-p` (Machin's formula); error below `2^10` units. -/
def piFix (p : Nat) : Nat := (16 * atanInv p 5 - 4 * atanInv p 239).toNat

/-- The terms `x^i / i!` of the exponential series, in units of `2^-p`, `n` of them after the first. -/
def expSeries (p x : Nat) : Nat → Nat → Nat → Nat
  | 0, _, _ => 0
  | n + 1, i, t => t + expSeries p x n (i + 1) (t * x / 2 ^ p / (i + 1))

/-- `e^(±m·2^e)` as `f × 2^k` with `f` in units of `2^-p`, `1 ≤ f < 2` up to its error, which is below `2^(p/4)` units. -/
def expFix (p : Nat) (neg : Bool) (m : Nat) (e : Int) : Nat × Int :=
  let pp := p + 160
  let x : Nat := if 0 ≤ e + pp then m * 2 ^ (e + pp).toNat else m / 2 ^ (-(e + pp)).toNat
  let l := lnTwo pp
  let k : Int := if neg then -(((x + l - 1) / l : Nat) : Int) else ((x / l : Nat) : Int)
  let r : Int := (if neg then -(x : Int) else x) - k * l
  let r := r.toNat / 2 ^ 160
  (expSeries p r p 0 (2 ^ p), k)

/-- Try an interval at rising precision: `f p` gives the two ends, each a mantissa with its exponent. -/
def zivRound (f : Nat → (Nat × Int) × (Nat × Int)) : Nat → Nat → W32
  | 0, p => fp32Round false (f p).1.1 (f p).1.2 true
  | n + 1, p =>
    let ((m1, e1), (m2, e2)) := f p
    let lo := fp32Round false m1 e1 true
    let hi := fp32Round false m2 e2 true
    if lo = hi then lo else zivRound f n (2 * p)

/-- `exp`, correctly rounded. -/
def fpExp (a : W32) : W32 :=
  match numOfFp32 a with
  | .nan => fp32NaN
  | .inf n => if n then 0#32 else fp32Inf false
  | .fin n m e =>
    if m = 0 then fp32One
    else if numLt (.fin false 128 0) (.fin false m e) then (if n then 0#32 else fp32Inf false)
    else zivRound (fun p => let (f, k) := expFix p n m e
                            ((f - 2 ^ (p / 4), k - p), (f + 2 ^ (p / 4), k - p))) 5 128

/-- `σ(x) = 1/(1 + e^-x)`, correctly rounded. -/
def fpSigma (a : W32) : W32 :=
  match numOfFp32 a with
  | .nan => fp32NaN
  | .inf n => if n then 0#32 else fp32One
  | .fin n m e =>
    if m = 0 then 0x3F000000#32
    else if numLt (.fin false 128 0) (.fin false m e) then (if n then 0#32 else fp32One)
    else zivRound (fun p =>
        let (f, k) := expFix p true m e
        -- e^-|x| = f·2^k, k ≤ 0: σ is f/(2^(p-k) + f) below 0 and 2^(p-k)/(2^(p-k) + f) above
        let one := 2 ^ (p + (-k).toNat)
        let q := fun (f : Nat) => if n then f * 2 ^ (2 * p + 256) / (one + f) else one * 2 ^ (2 * p + 256) / (one + f)
        let x := q (f - 2 ^ (p / 4))
        let y := q (f + 2 ^ (p / 4))
        ((min x y - 1, -(2 * p + 256 : Nat)), (max x y + 1, -(2 * p + 256 : Nat)))) 5 128

/-- The terms `x^(2i+1)/(2i+1)!!`, in units of `2^-p`. -/
def phiSeries (p x2 : Nat) : Nat → Nat → Nat → Nat
  | 0, _, _ => 0
  | n + 1, i, t => t + phiSeries p x2 n (i + 1) (t * x2 / 2 ^ p / (2 * i + 3))

/-- The standard normal distribution function `Φ`, correctly rounded: `1/2 ± φ(x) Σ x^(2i+1)/(2i+1)!!`. -/
def fpPhi (a : W32) : W32 :=
  match numOfFp32 a with
  | .nan => fp32NaN
  | .inf n => if n then 0#32 else fp32One
  | .fin n m e =>
    if numLt (.fin false 16 0) (.fin false m e) then (if n then 0#32 else fp32One)
    else zivRound (fun p =>
        let pp := 2 * p + 256
        let x : Nat := m * 2 ^ (e + pp).toNat
        let x2 := x * x / 2 ^ pp
        let s := phiSeries pp x2 (pp + 512) 0 x
        let (f, k) := expFix pp true (x * x) (-(2 * pp : Nat) - 1)
        -- φ(x) = f·2^k / √(2π)
        let root := isqrt (2 * piFix pp * 2 ^ pp)
        let t := f * s / root / 2 ^ (-k).toNat
        let half := 2 ^ (pp - 1)
        let err := 2 ^ (pp - p - p / 2)
        let v := if n then half - t else half + t
        ((v - err, -(pp : Nat)), (v + err, -(pp : Nat)))) 5 192

/-- Series of sine (`odd`) or cosine at `y` with `y2 = y²`, alternating, in units of `2^-p`. -/
def trigSeries (p y2 : Nat) : Nat → Nat → Int → Int
  | 0, _, _ => 0
  | n + 1, i, t => t + trigSeries p y2 n (i + 2) (-(t * y2 / 2 ^ p / ((i + 1) * (i + 2) : Nat)))

/-- `sin` (`cosine` false) or `cos` of a finite value, correctly rounded. -/
def fpTrig (cosine : Bool) (a : W32) : W32 :=
  match numOfFp32 a with
  | .nan => fp32NaN
  | .inf _ => fp32NaN
  | .fin n m e =>
    if m = 0 then (if cosine then fp32One else a)
    else
      let g := fun (p : Nat) =>
        let pp := p + 320
        let x : Nat := if 0 ≤ e + pp then m * 2 ^ (e + pp).toNat else m / 2 ^ (-(e + pp)).toNat
        let h : Nat := piFix pp / 2
        let q : Nat := x / h
        let y : Nat := (x - q * h) / 2 ^ 320
        let y2 : Nat := y * y / 2 ^ p
        let useCos := if cosine then q % 2 == 0 else q % 2 == 1
        let v := if useCos then trigSeries p y2 p 0 (2 ^ p : Nat) else trigSeries p y2 p 1 (y : Nat)
        let sgn := if cosine then q % 4 == 1 || q % 4 == 2 else q % 4 == 2 || q % 4 == 3
        (v, sgn)
      let neg := (g 256).2 != (!cosine && n)
      let r := zivRound (fun p => let (v, _) := g p
                                  (((v - 2 ^ (p / 4)).toNat, -(p : Nat)), ((v + 2 ^ (p / 4)).toNat, -(p : Nat)))) 5 256
      if neg then r ||| 0x80000000#32 else r

def fpSin (a : W32) : W32 := fpTrig false a
def fpCos (a : W32) : W32 := fpTrig true a

/-! ### Narrow destinations (R146) -/

/-- Encoding of an FP32 result in a narrower IEEE format; overflow to infinity. -/
def narrow (f : FpFmt) (eb : Nat) (nanBits : Nat) (a : W32) : Nat :=
  let sign := fun (n : Bool) (b : Nat) => if n then b + 2 ^ (f.prec - 1 + eb) else b
  let infB := (2 ^ eb - 1) * 2 ^ (f.prec - 1)
  match numOfFp32 a with
  | .nan => nanBits
  | .inf n => sign n infB
  | .fin n m e => let b := roundBits f m e false
                  sign n (if maxBits f < b then infB else b)

def toBf16 (a : W32) : Nat := narrow fmtBf16 8 0x7FC0 a
def toFp16 (a : W32) : Nat := narrow fmtFp16 5 0x7E00 a
def toE5m2 (a : W32) : Nat := narrow fmtE5m2 5 0x7E a

/-- E4M3 saturates at ±448 (R146). -/
def toE4m3 (a : W32) : Nat :=
  match numOfFp32 a with
  | .nan => 0x7F
  | .inf n => if n then 254 else 126
  | .fin n m e => let b := min (roundBits fmtE4m3 m e false) 126
                  if n then b + 128 else b

/-- Low bits of a two's complement integer. -/
def intBits (bits : Nat) (i : Int) : Nat := (i % (2 ^ bits : Int)).toNat

/-- Size in bytes of an element of a code of R143 (0 for codes without a byte size). -/
def fmtSize (code : Nat) : Nat :=
  if code = 2 || code = 3 || code = 4 then 1 else if code = 7 || code = 8 || code = 10 then 2
  else if code = 9 || code = 11 then 4 else 0

/-- Formats the V engine reads and writes elementwise (R143). -/
def vReadable (code : Nat) : Bool := fmtSize code != 0

/-- Formats the S engine reads (R143). -/
def sReadable (code : Nat) : Bool := code == 7 || code == 8 || code == 9 || code == 11

/-- R144: every element read becomes FP32. -/
def fpOfCode (code w : Nat) : W32 :=
  if code = 2 then fpOfInt (signedOf 8 w)
  else if code = 3 then fp32OfNum (numOfE4m3 w)
  else if code = 4 then fp32OfNum (numOfE5m2 w)
  else if code = 7 then fp32OfNum (numOfBf16 w)
  else if code = 8 then fp32OfNum (numOfFp16 w)
  else if code = 10 then fpOfInt (signedOf 16 w)
  else if code = 11 then fpOfInt (signedOf 32 w)
  else fp32OfNum (numOfFp32 (BitVec.ofNat 32 w))

/-- R146: the bits written for an FP32 result in a destination format. -/
def codeOfFp (code : Nat) (a : W32) : Nat :=
  if code = 2 then intBits 8 (fpToInt 8 a)
  else if code = 3 then toE4m3 a
  else if code = 4 then toE5m2 a
  else if code = 7 then toBf16 a
  else if code = 8 then toFp16 a
  else if code = 10 then intBits 16 (fpToInt 16 a)
  else if code = 11 then intBits 32 (fpToInt 32 a)
  else (fp32OfNum (numOfFp32 a)).toNat

end Sys2Proof.Machine
end

