-- ==== Sys2Proof/Machine/Matrix.lean ====
section
/-!
DEFINITION. The M engine: element planes, side records and A-tiles (R112 to R114), the arithmetic of a block and of a row (R115 to
R118, R124), plane loads and swaps (R119 to R121, R127), streams (R128 to R135) and their errors (R136).
-/
namespace Sys2Proof.Machine

/-! ### Formats (R109 to R114) -/

/-- R109: the allowed weight and activation pairs. -/
def pairOk (w a : Nat) : Bool :=
  (w == 1 && a == 1) || (w == 1 && a == 2) || (w == 2 && a == 1) || (w == 2 && a == 2) || (w == 0 && a == 0) || (w == 0 && a == 3)
    || (w == 3 && a == 0) || (w == 4 && a == 0) || (w == 3 && a == 3) || (w == 4 && a == 3)

/-- R109: steps per row group. -/
def stepsPerGroup (a : Nat) : Nat := if a = 2 || a = 3 then 2 else 1

/-- R109: output columns. -/
def outColumns (w : Nat) : Nat := if w = 0 || w = 1 then 128 else 64

def intPath (w : Nat) : Bool := w == 1 || w == 2

/-- R113. -/
def recordSize (w : Nat) (sparse : Bool) : Nat :=
  if w = 0 then (if sparse then 5120 else 512)
  else if !sparse then 0 else if w = 1 then 4096 else 2048

/-- R127: SIDE is 1 exactly for HB4 or 2:4 planes. -/
def sideNeeded (w : Nat) (sparse : Bool) : Bool := w == 0 || sparse

/-- R114: rows per A-tile. -/
def rowsPerTile (a : Nat) (sparse : Bool) : Nat :=
  let t := if a = 1 then 256 else if a = 0 then 240 else 128
  if sparse then t / 2 else t

/-- R114: bytes of a row's elements. -/
def rowBytes (a : Nat) (sparse : Bool) : Nat :=
  (if a = 0 || a = 1 then 64 else 128) * (if sparse then 2 else 1)

/-- Bytes of a row's HB4 scales. -/
def rowScales (sparse : Bool) : Nat := if sparse then 8 else 4

def nibble (b : Byte) (odd : Bool) : Nat := if odd then b.toNat / 16 else b.toNat % 16

/-- The value of an element code (R110); HB4 elements are E2M1. -/
def elemValue (fmt code : Nat) : Num :=
  if fmt = 0 then numOfE2m1 code else if fmt = 1 then numOfInt (signedOf 4 code) else if fmt = 2 then numOfInt (signedOf 8 code)
  else if fmt = 3 then numOfE4m3 code else numOfE5m2 code

/-- R112: the stored weight at stored index `k` of column `n`. -/
def planeWeight (p : Plane) (k n : Nat) : Num :=
  if p.fmt = 0 || p.fmt = 1 then elemValue p.fmt (nibble (readByte p.elems (n * 64 + k / 2)) (k % 2 == 1))
  else elemValue p.fmt (readByte p.elems (n * 128 + k)).toNat

/-- R113: the scale byte of column `n`, block `b`; an operand without scales has exponent 0, scale byte 127. -/
def planeScale (p : Plane) (n b : Nat) : Nat :=
  if p.fmt = 0 then (readByte p.side (n * (if p.sparse then 8 else 4) + b)).toNat else 127

/-- R113, R124: the metadata field of column `n`, group `g`. -/
def planeMeta (p : Plane) (n g : Nat) : Nat :=
  nibble (readByte p.side ((if p.fmt = 0 then 1024 else 0) + n * 32 + g / 2)) (g % 2 == 1)

/-- R119: no NaN or infinite element and no scale byte 0xFF. -/
def specialFree (p : Plane) : Bool :=
  let cols := outColumns p.fmt
  intPath p.fmt ||
    ((List.range cols).all (fun n => (List.range 128).all (fun k =>
        match planeWeight p k n with | .fin _ _ _ => true | _ => false))
     && (List.range cols).all (fun n => (List.range (if p.sparse then 8 else 4)).all (fun b => planeScale p n b != 255)))

/-- A row of activations as the array receives it: element codes and scale bytes. -/
structure ARow where
  fmt    : Nat
  vals   : List Num
  scales : List Nat
  deriving DecidableEq, Repr

def aRowZero (r : ARow) : Bool :=
  r.vals.all (fun v => match v with | .fin _ m _ => m == 0 | _ => false) && r.scales.all (· != 255)

/-- R114: row `r` of the A-tile in a slot. -/
def readARow (bytes : List Host.Cell) (slot fmt : Nat) (sparse : Bool) (r : Nat) : ARow :=
  let base := slotAddr slot
  let rb := rowBytes fmt sparse
  let raw := readBytes bytes (base + r * rb) rb
  let vals := if fmt = 0 || fmt = 1 then raw.flatMap (fun b => [elemValue fmt (nibble b false), elemValue fmt (nibble b true)])
    else raw.map (fun b => elemValue fmt b.toNat)
  let scales := if fmt = 0 then
      (readBytes bytes (base + 15360 + r * rowScales sparse) (rowScales sparse)).map (fun b => b.toNat) else []
  ⟨fmt, vals, scales⟩

/-! ### Arithmetic (R115 to R117, R124) -/

/-- Stored index and logical K of every product of block `b` (R107, R124). -/
def blockPairs (p : Plane) (n b : Nat) : List (Nat × Nat) :=
  if p.sparse then
    (List.range 8).flatMap (fun j =>
      let g := 8 * b + j
      let f := planeMeta p n g
      [(2 * g, 4 * g + f % 4), (2 * g + 1, 4 * g + f / 4)])
  else (List.range 32).map (fun j => (32 * b + j, 32 * b + j))

/-- The exact sum of a block's products; +0 when it is zero. -/
def blockSum (p : Plane) (r : ARow) (n b : Nat) : Num :=
  let x := (blockPairs p n b).foldl (fun acc q => numAdd acc (numMul (planeWeight p q.1 n) (r.vals.getD q.2 (.fin false 0 0))))
    (.fin false 0 0)
  match x with
  | .fin _ 0 _ => .fin false 0 0
  | _ => x

/-- R115, R116: the block's value, rounded once. -/
def blockValue (p : Plane) (r : ARow) (n b : Nat) : W32 :=
  let ws := planeScale p n b
  let as := r.scales.getD b 127
  let anyNan := (List.range 32).any (fun j => (r.vals.getD (32 * b + j) (.fin false 0 0)).isNan)
  if ws = 255 || as = 255 || anyNan then fp32NaN
  else fp32OfNum (numMul (blockSum p r n b) (.fin false 1 ((ws : Int) - 127 + ((as : Int) - 127))))

/-- R117: the block's exact integer sum. -/
def blockInt (p : Plane) (r : ARow) (n b : Nat) : Int :=
  match blockSum p r n b with
  | .fin s m e => signedMant s (m * 2 ^ e.toNat)
  | _ => 0

/-- The running sum over the tile's blocks in ascending order, from `s0`. -/
def columnResult (p : Plane) (r : ARow) (n : Nat) (s0 : W32) : W32 :=
  let blocks := List.range (if p.sparse then 8 else 4)
  if intPath p.fmt then
    BitVec.ofInt 32 (blocks.foldl (fun s b => clampInt (-(2 ^ 31)) (2 ^ 31 - 1) (s + blockInt p r n b)) s0.toInt)
  else blocks.foldl (fun s b => fpAdd s (blockValue p r n b)) s0

/-! ### Checks at issue (R136) -/

def slotsIn (d : UnitDesc) (l : List Nat) : Bool := l.all (ownsT0 d)

def loadForm (l : LoadOp) : Bool :=
  decide (l.wfmt ≤ 4) && (l.side == sideNeeded l.wfmt l.sparse) && decide (l.soff * 512 + recordSize l.wfmt l.sparse ≤ 16384)

def loadSlots (l : LoadOp) : List Nat := if l.side then [l.wslot, l.sslot] else [l.wslot]

def ringSlots (p : StreamOp) : List Nat := (List.range (p.alen + 1)).map (· + p.abase)

def streamForm (p : StreamOp) (o : Ops88) (macc : Bool) : Bool :=
  zeroBits o 84 87 && decide (0 < p.rows) && decide (p.afmt ≤ 3) && decide (p.oidx + p.olen ≤ 15)
    && (p.lben || zeroBits o 55 82) && (!p.lben || loadForm p.lb)
    && (!macc || (p.olen == 0 && decide (p.orow + p.rows ≤ (16 - p.oidx) * 32)))

/-- The plan error an M instruction raises at issue, if any. -/
def mCheck (d : UnitDesc) (op : Nat) (o : Ops88) : Option Nat :=
  if op = 1 then
    let l := mloadOp o
    if !(zeroBits o 28 87 && loadForm l) then some 0x01 else if !slotsIn d (loadSlots l) then some 0x05 else none
  else if op = 2 then (if zeroBits o 0 87 then none else some 0x01)
  else if op = 3 || op = 4 then
    let p := streamOp o
    if !streamForm p o (op == 4) then some 0x01
    else if !slotsIn d (ringSlots p ++ (if p.lben then loadSlots p.lb else [])) then some 0x05 else none
  else some 0x01

/-- R129: slot and row of stream row `j`. -/
def streamRow (p : StreamOp) (sparse : Bool) (j : Nat) : Nat × Nat :=
  let t := rowsPerTile p.afmt sparse
  (p.abase + (p.arow + j) / t % (p.alen + 1), (p.arow + j) % t)

/-- The slots rows `j` on will still read, and those of a load-behind not yet made (R130). -/
def streamReads (p : StreamOp) (sparse : Bool) (j : Nat) (loaded : Bool) : List Nat :=
  ((ringSlots p).filter (fun n => (List.range (p.rows - j)).any (fun i => (streamRow p sparse (j + i)).1 == n)))
    ++ (if p.lben && !loaded then loadSlots p.lb else [])

/-- The planes, active and shadow, that an M instruction issued now will meet are 2:4 planes: those of the core, after the swaps and
loads issued before it and not yet made (R121, R123, R128). -/
def sparseAhead (k : Core) : Bool × Bool :=
  k.flights.foldl (fun p f =>
    if f.word.engine != engM then p
    else if f.word.opcode = 2 then (if f.started then p else (p.2, p.1))
    else if f.word.opcode = 1 then (if f.started then p else (p.1, (mloadOp f.word.o).sparse))
    else if (streamOp f.word.o).lben && !(match f.work with | .stream _ _ _ loaded => loaded | _ => false) then
      (p.1, (streamOp f.word.o).lb.sparse)
    else p) (k.active.sparse, k.shadow.sparse)

/-- The T0 slots an M instruction issued now is to read (R129, R130). -/
def mReads (k : Core) (op : Nat) (o : Ops88) : List Nat :=
  if op = 1 then loadSlots (mloadOp o)
  else if op = 3 || op = 4 then streamReads (streamOp o) (sparseAhead k).1 0 false
  else []

/-! ### Plane loads and swaps (R120, R121) -/

def loadPlane (k : Core) (l : LoadOp) : Plane :=
  ⟨.loading, l.wfmt, l.sparse, cutCells k.bytes (slotAddr l.wslot + l.half * 8192) 8192,
   if l.side then cutCells k.bytes (slotAddr l.sslot + l.soff * 512) (recordSize l.wfmt l.sparse) else []⟩

/-- R120. -/
def loadCycles (l : LoadOp) : Nat := 64 + ceilDiv (recordSize l.wfmt l.sparse) 128

/-! ### Streams (R129 to R135) -/

/-- R131: output slot and row of stream row `j`. -/
def streamOut (p : StreamOp) (macc : Bool) (j : Nat) : Nat × Nat :=
  let q := (p.orow + j) / 32
  (192 + p.oidx + (if macc then q else q % (p.olen + 1)), (p.orow + j) % 32)

/-- R131, R134: the row written, column by column. -/
def outputRow (k : Core) (macc : Bool) (r : ARow) (a : Nat) : List Byte :=
  let cols := outColumns k.active.fmt
  ((List.range 128).flatMap (fun n =>
    let old := BitVec.ofNat 32 (readNat k.bytes (a + 4 * n) 4)
    leBytes 4 (if n < cols then columnResult k.active r n (if macc then old else 0#32) else if macc then old else 0#32).toNat))

inductive RowStep where
  | wait | fail (slot : Nat) | done (k : Core) (steps : Nat) (zero : Bool)
  deriving DecidableEq, Repr

/-- One row of a stream: read its slot, form its sums, write them, empty a consumed slot (R130), close a filled slot (R132). -/
def streamOne (k : Core) (p : StreamOp) (macc : Bool) (j steps : Nat) (zero : Bool) : RowStep :=
  let sparse := k.active.sparse
  let (slot, row) := streamRow p sparse j
  match readGate k [slot] with
  | .fail n => .fail n
  | .hold _ => .wait
  | .pass =>
    let (os, orow) := streamOut p macc j
    let first := j == 0 || orow == 0
    let wrapped := !macc && decide (p.olen + 1 ≤ (p.orow + j) / 32)
    let st := slotOf k os
    if first && (st == .releasePending || (wrapped && st != .empty)) then .wait
    else
      let r := readARow k.bytes slot p.afmt sparse row
      let a := slotAddr os + orow * 512
      let k1 := if first then setSlot k os .filling else k
      let k1 := { k1 with bytes := writeBytes k1.bytes a (outputRow k macc r a) }
      let k1 := wroteSlot k1 os tileBytes
      let k1 := if orow == 31 || j + 1 == p.rows then setSlot k1 os .full else k1
      let k1 := if p.acons && row + 1 == rowsPerTile p.afmt sparse then emptySlot k1 slot else k1
      let z := zero && aRowZero r
      let last := j % 4 == 3 || j + 1 == p.rows
      let steps' := if last && !(z && specialFree k.active) then steps + stepsPerGroup p.afmt else steps
      .done k1 steps' (if last then true else z)

/-- Rows taken while nothing holds the stream. -/
def streamRows (p : StreamOp) (macc : Bool) : Nat → Core → Nat → Nat → Bool → Option Nat × Core × Nat × Nat × Bool
  | 0, k, j, steps, zero => (none, k, j, steps, zero)
  | n + 1, k, j, steps, zero =>
    match streamOne k p macc j steps zero with
    | .wait => (none, k, j, steps, zero)
    | .fail slot => (some slot, k, j, steps, zero)
    | .done k' steps' zero' => streamRows p macc n k' (j + 1) steps' zero'

/-- R135: what RELEASE releases: the A-tile slots read and not released under R130, and the slots of the load-behind. -/
def streamRel (p : StreamOp) (sparse : Bool) : List Nat :=
  let last := streamRow p sparse (p.rows - 1)
  (if p.acons then (if last.2 + 1 = rowsPerTile p.afmt sparse then [] else [last.1]) else streamReads p sparse 0 true)
    ++ (if p.lben then loadSlots p.lb else [])

/-- What an engine's attempt to go on gives: nothing to do, a stop, or the core with the instruction's new record. -/
inductive Begin where
  | wait
  | fail (code which : Nat)
  | go (k : Core) (f : Flight)
  deriving DecidableEq, Repr

/-- R128: the load-behind begins with the first step, once its slots are FULL and no other load is running; a RELEASE-PENDING slot is
READ_AFTER_RELEASE (R136). -/
def loadBehind (k : Core) (p : StreamOp) (loaded : Bool) : Gate × Core × Bool :=
  if !p.lben || loaded then (.pass, k, loaded)
  else match readGate k (loadSlots p.lb) with
    | .pass => if k.shadow.state == .loading then (.pass, k, false) else (.pass, { k with shadow := loadPlane k p.lb }, true)
    | .hold n => (.hold n, k, false)
    | .fail n => (.fail n, k, false)

/-- R120, R123: a load-behind has ended by the time the next instruction meets the array input, so a chain goes on over its plane
(log 45). -/
def closeLoad (k : Core) (p : StreamOp) (j : Nat) (loaded : Bool) : Core :=
  if p.lben && loaded && decide (p.rows ≤ j) && k.shadow.state == .loading then { k with shadow := { k.shadow with state := .loaded } } else k

/-- A stream goes on as far as it can: its first row, the load-behind that begins with it, and the rows behind. -/
def streamGo (k : Core) (f : Flight) (j steps : Nat) (zero loaded : Bool) : Begin :=
  let p := streamOp f.word.o
  let macc := f.word.opcode == 4
  match streamRows p macc (if j = 0 then 1 else 0) k j steps zero with
  | (some slot, _, _, _, _) => .fail 0x06 slot
  | (none, k1, j1, steps1, zero1) =>
    match if j1 = 0 then (Gate.pass, k1, loaded) else loadBehind k1 p loaded with
    | (.fail slot, _, _) => .fail 0x06 slot
    | (_, k2, loaded') =>
      match streamRows p macc (if j1 = 0 then 0 else p.rows - j1) k2 j1 steps1 zero1 with
      | (some slot, _, _, _, _) => .fail 0x06 slot
      | (none, k3, j3, steps3, zero3) =>
        .go (closeLoad k3 p j3 loaded') { f with
          started := true
          reads := streamReads p k.active.sparse j3 loaded'
          cycles := steps3 + 40
          work := .stream j3 steps3 zero3 loaded' }

/-- The array input accepts an M instruction only when the stepping instruction before it has taken its last step (R123). -/
def mStepping (f : Flight) : Bool :=
  match f.work with
  | .stream j _ _ loaded => decide (j < (streamOp f.word.o).rows) || ((streamOp f.word.o).lben && !loaded)
  | _ => false

/-- An M instruction reaches the array input (R121, R136, R138). -/
def mBegin (k : Core) (f : Flight) : Begin :=
  let op := f.word.opcode
  if op = 1 then
    let l := mloadOp f.word.o
    if k.shadow.state == .loading then .wait
    else match readGate k (loadSlots l) with
      | .fail n => .fail 0x06 n
      | .hold _ => .wait
      | .pass => .go { k with shadow := loadPlane k l } { f with started := true, cycles := loadCycles l }
  else if op = 2 then
    match k.shadow.state with
    | .loading => .wait
    | .empty => .fail 0x03 0
    | .loaded => .go { k with active := k.shadow, shadow := k.active } { f with started := true, cycles := 0 }
  else
    let p := streamOp f.word.o
    if k.active.state != .loaded then .fail 0x03 0
    else if !pairOk k.active.fmt p.afmt || decide (rowsPerTile p.afmt k.active.sparse ≤ p.arow) then .fail 0x01 0
    else streamGo { k with arrayOn := true } { f with rel := streamRel p k.active.sparse } 0 (if k.arrayOn then 0 else 48) true false

/-- Whether an M instruction has nothing left but to complete. -/
def mDone (f : Flight) : Bool := f.started && !mStepping f

end Sys2Proof.Machine
end

