-- ==== Sys2Proof/Machine/Vector.lean ====
section
/-!
DEFINITION. The V engine: operand forms and checks (R147 to R149, R158), elementwise operations, reductions and fused operations
(R150 to R153), PACKA (R154, R155), distance tables (R156) and times (R157).
-/
namespace Sys2Proof.Machine

/-! ### Forms -/

def vAddSub (op : Nat) : Bool := op == 1 || op == 2 || op == 3 || op == 4 || op == 6 || op == 7
def vFun1 (op : Nat) : Bool := op == 0x08 || op == 0x0A || op == 0x0B || op == 0x0D || op == 0x21
def vFun1c (op : Nat) : Bool := op == 0x05 || op == 0x09 || op == 0x22
def vGated (op : Nat) : Bool := op == 0x0C || op == 0x0E
def vReduce (op : Nat) : Bool := op == 0x10 || op == 0x11 || op == 0x13
def vTable (op : Nat) : Bool := op == 0x31 || op == 0x32

/-- R150: the listed opcodes. -/
def vKnown (op : Nat) : Bool :=
  vAddSub op || vFun1 op || vFun1c op || vGated op || vReduce op || vTable op || op == 0x12 || op == 0x20 || op == 0x23 || op == 0x30
    || op == 0x38 || op == 0x39

def vUsesA (op : Nat) : Bool := op != 0x39
def vUsesB (op : Nat) (wide : Bool) : Bool :=
  vAddSub op || vGated op || op == 0x12 || op == 0x20 || op == 0x23 || vTable op || (op == 0x30 && wide)
def vUsesD (op : Nat) : Bool := !(vReduce op || op == 0x12 || op == 0x38)
def vUsesC (op : Nat) : Bool :=
  vFun1c op || vReduce op || op == 0x12 || op == 0x20 || op == 0x23 || op == 0x30 || vTable op || op == 0x38 || op == 0x39
def vWideOk (op : Nat) : Bool := op == 0x23 || op == 0x30 || vTable op
def vMoves (op : Nat) : Bool := op == 0x38 || op == 0x39

/-- The reserved fields of an opcode are 0 (R147). -/
def vReserved (op : Nat) (o : Ops88) (p : VOp) : Bool :=
  (vUsesA op || (zeroBits o 0 17 && !p.aadv)) && (vUsesB op p.wide || (zeroBits o 18 35 && !p.badv))
    && (vUsesD op || (zeroBits o 36 53 && !p.dadv)) && (vUsesC op || p.sidx == 0)
    && (!vMoves op || p.afmt == 0) && ((vUsesD op && !vMoves op) || p.dfmt == 0) && (vWideOk op || !p.wide)

/-- R158: formats, LEN and row ranges. -/
def vFormats (op : Nat) (p : VOp) : Bool :=
  if vMoves op then decide (p.len ≤ 16) && decide (p.sidx + p.len ≤ 16)
  else if op = 0x30 then p.afmt == 9 && decide (p.dfmt ≤ 3) && decide (p.doff + p.len ≤ rowsPerTile p.dfmt p.wide)
    && !p.aadv && !p.badv && !p.dadv
  else if vTable op then (p.afmt == 9 || p.afmt == 7) && p.dfmt == 10
  else vReadable p.afmt && (!vUsesD op || vReadable p.dfmt) && (op != 0x23 || p.len % 2 == 0)

/-- Centroids of a distance table. -/
def tableC (p : VOp) : Nat := if p.wide then 16 else 256

def vLenA (op : Nat) (p : VOp) : Nat :=
  if vMoves op then 4 * p.len else if op = 0x30 then 512 * p.len else p.len * fmtSize p.afmt
def vLenB (op : Nat) (p : VOp) : Nat :=
  if op = 0x30 then 512 * p.len else if op = 0x23 then p.len / 2 * 4 else if vTable op then tableC p * p.len * fmtSize p.afmt
  else p.len * fmtSize p.afmt
def vLenD (op : Nat) (p : VOp) : Nat :=
  if vMoves op then 4 * p.len else if vTable op then 2 * tableC p else p.len * fmtSize p.dfmt

/-- R148, R156: the advance per LOOP iteration. -/
def vStep (op len : Nat) : Nat := if vTable op then len else roundUp len 16

def vAddrA (op : Nat) (p : VOp) (it : Nat) : Nat := p.a + (if p.aadv then it * vStep op (vLenA op p) else 0)
def vAddrB (op : Nat) (p : VOp) (it : Nat) : Nat := p.b + (if p.badv then it * vStep op (vLenB op p) else 0)
def vAddrD (op : Nat) (p : VOp) (it : Nat) : Nat := p.d + (if p.dadv then it * vStep op (vLenD op p) else 0)

/-- The byte ranges written: an A-tile's row elements and scales for PACKA, one range otherwise. -/
def vDest (op : Nat) (p : VOp) (it : Nat) : List (Nat × Nat) :=
  if op = 0x30 then
    let base := slotAddr p.dslot
    let rb := rowBytes p.dfmt p.wide
    (base + p.doff * rb, p.len * rb) ::
      (if p.dfmt = 0 then [(base + 15360 + p.doff * rowScales p.wide, p.len * rowScales p.wide)] else [])
  else if vUsesD op then [(vAddrD op p it, vLenD op p)] else []

def disjoint (a la b lb : Nat) : Bool := decide (a + la ≤ b) || decide (b + lb ≤ a)

/-- R149: the destination coincides with a source exactly or does not meet it. -/
def vOverlapOk (op : Nat) (p : VOp) (it : Nat) : Bool :=
  let ok := fun (a la es : Nat) => (vDest op p it).all (fun d =>
    disjoint a la d.1 d.2 || (a == d.1 && la == d.2 && es == fmtSize p.dfmt))
  let esA := if vMoves op then 4 else fmtSize p.afmt
  (!vUsesA op || ok (vAddrA op p it) (vLenA op p) esA)
    && (!vUsesB op p.wide || ok (vAddrB op p it) (vLenB op p) (if op = 0x23 then 4 else fmtSize p.afmt))

/-- The plan error a V instruction raises at issue, if any. -/
def vCheck (d : UnitDesc) (op : Nat) (o : Ops88) (it : Nat) : Option Nat :=
  let p := vOp o
  if !(vKnown op && vReserved op o p && vFormats op p) then some 0x01
  else if !((!vUsesA op || rangeOk d (vAddrA op p it) (vLenA op p))
      && (!vUsesB op p.wide || rangeOk d (vAddrB op p it) (vLenB op p))
      && (vDest op p it).all (fun r => rangeOk d r.1 r.2 && decide (r.1 + r.2 ≤ 192 * tileBytes))) then some 0x05
  else if !vOverlapOk op p it then some 0x01
  else none

/-- The slots read: A, B, and for VFMA the old D. -/
def vReads (op : Nat) (o : Ops88) (it : Nat) : List Nat :=
  let p := vOp o
  ((if vUsesA op then slotsOf (vAddrA op p it) (vLenA op p) else [])
    ++ (if vUsesB op p.wide then slotsOf (vAddrB op p it) (vLenB op p) else [])
    ++ (if op = 4 then slotsOf (vAddrD op p it) (vLenD op p) else [])).eraseDups

def vWrites (op : Nat) (o : Ops88) (it : Nat) : List Nat :=
  ((vDest op (vOp o) it).flatMap (fun r => slotsOf r.1 r.2)).eraseDups

/-! ### Values -/

/-- Elements as raw words of `size` bytes. -/
def rawElems (m : List Host.Cell) (a size n : Nat) : List Nat := (List.range n).map (fun i => readNat m (a + i * size) size)

/-- Elements after R144. -/
def fpElems (m : List Host.Cell) (a code n : Nat) : List W32 := (rawElems m a (fmtSize code) n).map (fpOfCode code)

/-- Results in the destination format (R146), as bytes. -/
def packElems (code : Nat) (l : List W32) : List Byte := l.flatMap (fun x => leBytes (fmtSize code) (codeOfFp code x))

def foldSum (l : List W32) : W32 := l.foldl fpAdd 0#32
def foldSumSq (l : List W32) : W32 := l.foldl (fun acc a => fpFma a a acc) 0#32
def foldDot (a b : List W32) : W32 := (a.zip b).foldl (fun acc p => fpFma p.1 p.2 acc) 0#32
def foldMax (l : List W32) : W32 := l.foldl fpMax fp32NegInf

/-- R150: the result of one element; `c` is the scalar register. -/
def vElem (op : Nat) (a b old c : W32) : W32 :=
  if op = 1 then fpAdd a b else if op = 2 then fpSub a b else if op = 3 then fpMul a b else if op = 4 then fpFma a b old
  else if op = 5 then fpMul a c else if op = 6 then fpMax a b else if op = 7 then fpMin a b else if op = 8 then a
  else if op = 9 then fpExp (fpSub a c) else if op = 0x0A then fpRsqrt a else if op = 0x0B then fpMul a (fpSigma a)
  else if op = 0x0C then fpMul (fpMul a (fpSigma a)) b else if op = 0x0D then fpMul a (fpPhi a)
  else fpMul (fpMul a (fpPhi a)) b

/-- R152; R159 gives a row of zeros with c > 0 the result +0 in every position with a finite gain. -/
def rmsNorm (a b : List W32) (c : W32) : List W32 :=
  let r := fpRsqrt (fpAdd (fpDiv (foldSumSq a) (fpOfNat a.length)) c)
  let zeros := a.all fpIsZero && !bitOf c 31 && !fpIsZero c && !fpIsNan c
  (a.zip b).map (fun p => if zeros && fpIsFinite p.2 then 0#32 else fpMul (fpMul p.1 r) p.2)

/-- R152. -/
def normTwo (a : List W32) : List W32 :=
  let ss := foldSumSq a
  if fpIsZero ss then a.map (fun _ => 0#32) else a.map (fun x => fpDiv x (fpSqrt ss))

/-- R152. -/
def softmax (a : List W32) (c : W32) : List W32 :=
  let x := a.map (fun v => fpMul v c)
  if x.any fpIsNan then x.map (fun _ => fp32NaN)
  else
    let m := foldMax x
    let t := x.map (fun v => if fpEq v m then fp32One else fpExp (fpSub v m))
    let s := foldSum t
    t.map (fun v => fpDiv v s)

/-- R153: the two values of a rotated pair. -/
def ropePair (x y f p : W32) : W32 × W32 :=
  let th := fpMul p f
  let co := fpCos th
  let si := fpSin th
  (fpFma x co (fpNeg (fpMul y si)), fpFma y co (fpMul x si))

/-- R153: pairs `(j, j+h)`, or `(2j, 2j+1)` with WIDE. -/
def rope (a f : List W32) (p : W32) (wide : Bool) : List W32 :=
  let h := a.length / 2
  let pr := fun j => if wide then ropePair (a.getD (2 * j) 0) (a.getD (2 * j + 1) 0) (f.getD j 0) p
                     else ropePair (a.getD j 0) (a.getD (j + h) 0) (f.getD j 0) p
  if wide then (List.range h).flatMap (fun j => [(pr j).1, (pr j).2])
  else (List.range h).map (fun j => (pr j).1) ++ (List.range h).map (fun j => (pr j).2)

/-- R156: the entry of one centroid. -/
def tableEntry (ip : Bool) (q cent : List W32) (c : W32) : Nat :=
  let acc := (q.zip cent).foldl (fun acc p => if ip then fpFma p.1 p.2 acc else let t := fpSub p.1 p.2; fpFma t t acc) 0#32
  intBits 16 (fpToInt 16 (fpMul acc c))

/-! ### PACKA (R154, R155) -/

/-- R155: the E2M1 code nearest to the exact value, ties to the even mantissa, zero without sign. -/
def e2m1Code (v : Num) (e : Int) : Nat :=
  match v with
  | .fin n m x =>
    let b := min (roundBits fmtE2m1 m (x - e) false) 7
    if b = 0 then 0 else if n then b + 8 else b
  | _ => 0

/-- Whether `v ≤ 6 × 2^e` for a magnitude `m × 2^x`. -/
def leSix (m : Nat) (x e : Int) : Bool := !numLt (.fin false 6 e) (.fin false m x)

/-- The smallest `e ≥ -127` with `m·2^x ≤ 6·2^e`. -/
def blockExp (m : Nat) (x : Int) : Int :=
  let e0 : Int := x + bitLen m - 4
  max (-127) (if leSix m x e0 then e0 else if leSix m x (e0 + 1) then e0 + 1 else e0 + 2)

/-- The value of greatest magnitude. -/
def maxMag (l : List Num) : Num :=
  l.foldl (fun b v => match v with
    | .fin _ m e => if numLt b (.fin false m e) then .fin false m e else b
    | _ => b) (.fin false 0 0)

/-- R155: scale byte and element codes of a block of 32 values. -/
def quantBlock (l : List W32) : Nat × List Nat :=
  let v := l.map numOfFp32
  if l.any (fun x => !fpFinite x) then (255, v.map (fun _ => 0))
  else match maxMag v with
    | .fin _ m e =>
      if m = 0 then (127, v.map (fun _ => 0))
      else let x := blockExp m e
           ((x + 127).toNat, v.map (fun q => e2m1Code q x))
    | _ => (255, v.map (fun _ => 0))

/-- Nibbles packed low half first. -/
def packNibbles : List Nat → List Byte
  | a :: b :: r => byteNat (a % 16 + 16 * (b % 16)) :: packNibbles r
  | [a] => [byteNat (a % 16)]
  | [] => []

/-- One row's element bytes and scale bytes in an A-tile format. -/
def packRow (fmt : Nat) (l : List W32) : List Byte × List Byte :=
  if fmt = 0 then
    let q := (chunksOf 32 l).map quantBlock
    (packNibbles (q.flatMap (fun b => b.2)), q.map (fun b => byteNat b.1))
  else if fmt = 1 then (packNibbles (l.map (fun x => intBits 4 (fpToInt 4 x))), [])
  else (l.map (fun x => byteNat (codeOfFp fmt x)), [])

/-- R154: the rows written, elements and scales. -/
def packaRows (m : List Host.Cell) (p : VOp) (c : W32) : List (List Byte × List Byte) :=
  (List.range p.len).map (fun i =>
    let lo := fpElems m (p.a + 512 * i) 9 128
    let hi := if p.wide then fpElems m (p.b + 512 * i) 9 128 else []
    packRow p.dfmt ((lo ++ hi).map (fun v => fpMul v c)))

/-! ### Results -/

/-- The bytes a V instruction writes, by address. -/
def vBytes (k : Core) (op : Nat) (o : Ops88) (it : Nat) : List (Nat × List Byte) :=
  let p := vOp o
  let c := scalarOf k p.sidx
  let a := fpElems k.bytes (vAddrA op p it) p.afmt p.len
  let bAt := vAddrB op p it
  let dAt := vAddrD op p it
  if op = 0x39 then [(dAt, (List.range p.len).flatMap (fun i => leBytes 4 (scalarOf k (p.sidx + i)).toNat))]
  else if op = 0x30 then
    let rows := packaRows k.bytes p c
    (vDest op p it).zipIdx.map (fun d => (d.1.1, rows.flatMap (fun r => if d.2 = 0 then r.1 else r.2)))
  else if vTable op then
    let q := a
    [(dAt, (List.range (tableC p)).flatMap (fun i =>
      leBytes 2 (tableEntry (op == 0x31) q (fpElems k.bytes (bAt + i * p.len * fmtSize p.afmt) p.afmt p.len) c)))]
  else if op = 0x20 then [(dAt, packElems p.dfmt (rmsNorm a (fpElems k.bytes bAt p.afmt p.len) c))]
  else if op = 0x21 then [(dAt, packElems p.dfmt (normTwo a))]
  else if op = 0x22 then [(dAt, packElems p.dfmt (softmax a c))]
  else if op = 0x23 then [(dAt, packElems p.dfmt (rope a (fpElems k.bytes bAt 9 (p.len / 2)) (fpOfInt c.toInt) p.wide))]
  else if vUsesD op then
    let b := fpElems k.bytes bAt p.afmt p.len
    let old := fpElems k.bytes dAt p.dfmt p.len
    [(dAt, packElems p.dfmt ((List.range p.len).map (fun i => vElem op (a.getD i 0) (b.getD i 0) (old.getD i 0) c)))]
  else []

/-- The scalar registers a V instruction writes (R142, R151). -/
def vScalars (k : Core) (op : Nat) (o : Ops88) (it : Nat) : List (Nat × W32) :=
  let p := vOp o
  let at_ := vAddrA op p it
  let a := fpElems k.bytes at_ p.afmt p.len
  if op = 0x10 then [(p.sidx, foldSum a)]
  else if op = 0x11 then [(p.sidx, foldSumSq a)]
  else if op = 0x12 then [(p.sidx, foldDot a (fpElems k.bytes (vAddrB op p it) p.afmt p.len))]
  else if op = 0x13 then [(p.sidx, foldMax a)]
  else if op = 0x38 then (List.range p.len).map (fun i => (p.sidx + i, BitVec.ofNat 32 (readNat k.bytes (at_ + 4 * i) 4)))
  else []

/-- R157. -/
def vCycles (op : Nat) (p : VOp) : Nat :=
  let bf := p.afmt == 7 && p.dfmt == 7
  if vAddSub op || op = 5 || op = 8 then 24 + ceilDiv p.len (if bf then 128 else 64)
  else if op = 9 || op = 0x0A || op = 0x0B || op = 0x0C || op = 0x0D || op = 0x0E then 32 + ceilDiv p.len 32
  else if vReduce op || op = 0x12 then 40 + ceilDiv p.len 64
  else if op = 0x20 || op = 0x21 then 60 + ceilDiv (2 * p.len) 64
  else if op = 0x22 then 80 + ceilDiv (2 * p.len) 64 + ceilDiv p.len 32
  else if op = 0x23 then 48 + ceilDiv (p.len / 2) 32
  else if op = 0x30 then 32 + ceilDiv (p.len * (if p.wide then 256 else 128)) 64
  else if vTable op then 24 + ceilDiv (tableC p * p.len) 64
  else 8

/-- The core after a V instruction has begun: bytes and scalars computed from the state at its start (R149), destinations FILLING. -/
def vRun (k : Core) (op : Nat) (o : Ops88) (it : Nat) : Core :=
  let k1 := engineWrite k (vWrites op o it) (vBytes k op o it)
  (vScalars k op o it).foldl (fun k r => setScalar k r.1 r.2) k1

/-- A V instruction starts when its sources are FULL and its destinations free (R90, R149). -/
def vBegin (k : Core) (f : Flight) : Begin :=
  let op := f.word.opcode
  let w := vWrites op f.word.o f.iter
  match (readGate k f.reads).and (writeGate k engV true w) with
  | .fail n => .fail 0x06 n
  | .hold _ => .wait
  | .pass => .go (vRun k op f.word.o f.iter) { f with started := true, writes := w, cycles := vCycles op (vOp f.word.o) }

end Sys2Proof.Machine
end

