-- ==== Sys2Proof/Machine/Select.lean ====
section
/-!
DEFINITION. The S engine: rows and their order (R160 to R162), TOPK, ARGMAX and THRESH (R164 to R170), times and errors (R171, R172).
-/
namespace Sys2Proof.Machine

/-- One element of a row: position, exact score, the score bits a result carries, tag and key. -/
structure SElem where
  pos  : Nat
  val  : Num
  bits : Nat
  tag  : Nat
  key  : Nat
  deriving DecidableEq, Repr

/-- Exact value of a score word (R162: INT32 compared as integers). -/
def scoreVal (sfmt w : Nat) : Num := if sfmt = 11 then numOfInt (signedOf 32 w) else numOfFp32 (fpOfCode sfmt w)

/-- R162: a score as the result carries it; float formats in FP32. -/
def scoreBits (sfmt w : Nat) : Nat := if sfmt = 11 || sfmt = 9 then w else (fpOfCode sfmt w).toNat

/-- The elements of the row at `a` (R160). -/
def sRow (m : List Host.Cell) (p : SOp) (a : Nat) : List SElem :=
  (List.range p.len).map (fun i =>
    let e := a + i * sElemSize p
    if p.keyed then
      let w := readNat m e 4
      ⟨i, scoreVal p.sfmt w, w, readNat m (e + 4) 4, readNat m (e + 8) 8⟩
    else
      let w := readNat m e (sElemSize p)
      ⟨i, scoreVal p.sfmt w, scoreBits p.sfmt w, 0, i⟩)

/-- R161. -/
def sValid (p : SOp) (e : SElem) : Bool :=
  !e.val.isNan && !(p.ninf && (match e.val with | .inf n => n | _ => false))

/-- R162: `a` ranks before `b`. -/
def ranksBefore (a b : SElem) : Bool :=
  numLt b.val a.val || (!numLt a.val b.val && (decide (a.key < b.key) || (a.key == b.key && decide (a.pos < b.pos))))

def insertRank (e : SElem) : List SElem → List SElem
  | [] => [e]
  | x :: r => if ranksBefore e x then e :: x :: r else x :: insertRank e r

/-- The elements in rank order. -/
def rankList (l : List SElem) : List SElem := l.foldl (fun acc e => insertRank e acc) []

/-- The record a pass continues from (R165). -/
structure SBound where
  short  : Bool
  pos    : Nat
  score  : Nat
  key    : Nat
  resume : Nat
  deriving DecidableEq, Repr

def sBound (m : List Host.Cell) (a : Nat) : SBound :=
  ⟨readNat m (a + 20) 4 % 2 == 1, readNat m (a + 24) 4, readNat m (a + 28) 4, readNat m (a + 32) 8, readNat m (a + 40) 4⟩

/-- The bound element of a record: its score is read as the result carries it. -/
def boundElem (p : SOp) (b : SBound) : SElem := ⟨b.pos, scoreVal (if p.sfmt = 11 then 11 else 9) b.score, b.score, 0, b.key⟩

/-- R167: the term of an element in a sum. -/
def sTerm (p : SOp) (mx : Option SElem) (e : SElem) : W32 :=
  let x := fpOfCode (if p.sfmt = 11 then 11 else 9) e.bits
  if p.mass then
    match mx with
    | some m =>
      if numEq e.val m.val then fp32One
      else fpExp (fpSub x (fpOfCode (if p.sfmt = 11 then 11 else 9) m.bits))
    | none => 0#32
  else x

def sSum (p : SOp) (mx : Option SElem) (l : List SElem) : W32 := l.foldl (fun s e => fpAdd s (sTerm p mx e)) 0#32

/-- What a selection found: entries taken, bound element, selected set, MORE, resume. -/
structure Selected where
  taken  : List SElem
  bound  : Option SElem
  sel    : List SElem
  left   : List SElem
  more   : Bool
  resume : Nat
  bscore : Nat
  deriving DecidableEq, Repr

/-- R168. -/
def topk (p : SOp) (valid : List SElem) (b : Option SBound) : Selected :=
  let elig := match b with
    | none => valid
    | some r => if r.short || r.pos == 0xFFFFFFFF then [] else valid.filter (fun e => ranksBefore (boundElem p r) e)
  let taken := (rankList elig).take p.k
  let bound := match taken.getLast? with
    | some e => some e
    | none => (match b with
      | some r => if r.pos == 0xFFFFFFFF then none else some (boundElem p r)
      | none => none)
  let isSel := fun e => match bound with | some x => !ranksBefore x e | none => false
  ⟨taken, bound, valid.filter isSel, valid.filter (fun e => !isSel e), false, 0, match bound with | some x => x.bits | none => 0⟩

/-- R170. -/
def thresh (p : SOp) (valid : List SElem) (b : SBound) : Selected :=
  let tau := scoreVal (if p.sfmt = 11 then 11 else 9) b.score
  let above := valid.filter (fun e => numLt tau e.val)
  let from_ := above.filter (fun e => decide (b.resume ≤ e.pos))
  let taken := from_.take p.k
  let resume := match taken.getLast? with | some e => e.pos + 1 | none => p.len
  ⟨taken, taken.getLast?, above, valid.filter (fun e => !numLt tau e.val), above.any (fun e => decide (resume ≤ e.pos)), resume, b.score⟩

/-- A result's entry (R165). -/
def entryBytes (p : SOp) (e : SElem) : List Byte :=
  if p.keyed then leBytes 4 e.bits ++ leBytes 4 e.tag ++ leBytes 8 e.key else leBytes 4 e.pos ++ leBytes 4 e.bits

/-- R166. -/
def fillScore (sfmt : Nat) : Nat := if sfmt = 11 then 0x80000000 else 0xFF800000

def fillBytes (p : SOp) : List Byte :=
  if p.keyed then leBytes 4 (fillScore p.sfmt) ++ leBytes 4 0 ++ leBytes 8 (2 ^ 64 - 1)
  else leBytes 4 0xFFFFFFFF ++ leBytes 4 (fillScore p.sfmt)

/-- The highest valid element. -/
def sMax (valid : List SElem) : Option SElem :=
  valid.foldl (fun b e => match b with | none => some e | some x => if ranksBefore e x then some e else b) none

/-- R165: summary and entries. -/
def sResult (p : SOp) (isThresh : Bool) (valid : List SElem) (r : Selected) : List Byte :=
  let n := r.taken.length
  let mx := sMax valid
  leBytes 4 valid.length ++ leBytes 4 n ++ leBytes 4 (sSum p mx r.sel).toNat ++ leBytes 4 (sSum p mx r.left).toNat
    ++ leBytes 4 (match mx with | some e => e.bits | none => fillScore p.sfmt)
    ++ leBytes 4 ((if n < p.k then 1 else 0) + (if p.mass then 2 else 0) + (if r.more then 4 else 0))
    ++ leBytes 4 (match r.bound with | some e => e.pos | none => 0xFFFFFFFF)
    ++ leBytes 4 r.bscore ++ leBytes 8 (match r.bound with | some e => e.key | none => 0)
    ++ leBytes 4 (if isThresh then r.resume else 0) ++ List.replicate 20 0#8
    ++ r.taken.flatMap (entryBytes p) ++ (List.replicate (p.k - n) (fillBytes p)).flatMap id

def sAddrRow (p : SOp) (it : Nat) : Nat := p.row + (if p.adv then it * roundUp (p.len * sElemSize p) 32 else 0)
def sAddrDst (p : SOp) (it : Nat) : Nat := p.dst + (if p.adv then it * roundUp (sResultSize p) 32 else 0)

/-- R172, R164, R163. -/
def sForm (op : Nat) (o : Ops88) (p : SOp) (it : Nat) : Bool :=
  (op == 1 || op == 2 || op == 3) && zeroBits o 86 87 && sReadable p.sfmt && (!p.keyed || p.sfmt == 9 || p.sfmt == 11)
    && (op != 2 || (p.k == 1 && !p.bound)) && (op != 3 || p.bound) && !(p.adv && p.bound)
    && disjoint (sAddrDst p it) (sResultSize p) (sAddrRow p it) (p.len * sElemSize p)
    && (!p.bound || disjoint (sAddrDst p it) (sResultSize p) p.bnd 64)
    && decide (sAddrDst p it + sResultSize p ≤ 192 * tileBytes)

/-- The plan error an S instruction raises at issue, if any. -/
def sCheck (d : UnitDesc) (op : Nat) (o : Ops88) (it : Nat) : Option Nat :=
  let p := sOp o
  if !sForm op o p it then some 0x01
  else if !(rangeOk d (sAddrRow p it) (p.len * sElemSize p) && (!p.bound || rangeOk d p.bnd 64)
      && rangeOk d (sAddrDst p it) (sResultSize p)) then some 0x05
  else none

def sReads (o : Ops88) (it : Nat) : List Nat :=
  let p := sOp o
  (slotsOf (sAddrRow p it) (p.len * sElemSize p) ++ (if p.bound then slotsOf p.bnd 64 else [])).eraseDups

def sWrites (o : Ops88) (it : Nat) : List Nat := slotsOf (sAddrDst (sOp o) it) (sResultSize (sOp o))

/-- The result's bytes. -/
def sBytes (k : Core) (op : Nat) (o : Ops88) (it : Nat) : List Byte :=
  let p := sOp o
  let valid := (sRow k.bytes p (sAddrRow p it)).filter (sValid p)
  if op = 3 then sResult p true valid (thresh p valid (sBound k.bytes p.bnd))
  else sResult p false valid (topk p valid (if p.bound then some (sBound k.bytes p.bnd) else none))

/-- R171. -/
def sCycles (op : Nat) (p : SOp) : Nat :=
  let w := (if p.mass then 2 else 1) * ceilDiv p.len (if p.keyed then 16 else 64)
  if op = 2 then 24 + w else 48 + w + ceilDiv p.k 16

def sRun (k : Core) (op : Nat) (o : Ops88) (it : Nat) : Core :=
  engineWrite k (sWrites o it) [(sAddrDst (sOp o) it, sBytes k op o it)]

/-- An S instruction starts when its sources are FULL and its destinations free (R90, R149). -/
def sBegin (k : Core) (f : Flight) : Begin :=
  let w := sWrites f.word.o f.iter
  match (readGate k f.reads).and (writeGate k engS true w) with
  | .fail n => .fail 0x06 n
  | .hold _ => .wait
  | .pass => .go (sRun k f.word.opcode f.word.o f.iter) { f with
      started := true, writes := w, cycles := sCycles f.word.opcode (sOp f.word.o) }

end Sys2Proof.Machine
end

