-- ==== Sys2Proof/Machine/Text.lean ====
section
/-!
DEFINITION. Text (R334 to R361): UTF-8, the vocabulary and its hash table, tokenization, chunking, the decoder, the stop matcher,
grammars, packing, and the checks of the VOCAB, GRAMMAR and TEMPLATE sections.
-/
namespace Sys2Proof.Machine

/-! ### Characters (R334) -/

/-- Bytes of a well-formed character that starts with this byte; 0 when none does. -/
def leadLen (b : Byte) : Nat :=
  let n := b.toNat
  if n < 0x80 then 1 else if n < 0xC2 then 0 else if n < 0xE0 then 2 else if n < 0xF0 then 3 else if n < 0xF5 then 4 else 0

/-- May `c` stand at place `i` (from 1) behind the lead byte `b`? -/
def contOk (b : Byte) (i : Nat) (c : Byte) : Bool :=
  let lo := if i = 1 && b == 0xE0#8 then 0xA0 else if i = 1 && b == 0xF0#8 then 0x90 else 0x80
  let hi := if i = 1 && b == 0xED#8 then 0x9F else if i = 1 && b == 0xF4#8 then 0x8F else 0xBF
  decide (lo ≤ c.toNat) && decide (c.toNat ≤ hi)

/-- Bytes behind a lead byte that go on with its character. -/
def contRun (b : Byte) (left : Nat) : Nat → List Byte → Nat
  | _, [] => 0
  | i, c :: r => if left = 0 then 0 else if contOk b i c then 1 + contRun b (left - 1) (i + 1) r else 0

/-- Bytes of the longest front part that begins a well-formed character. -/
def prefixLen : List Byte → Nat
  | [] => 0
  | b :: r => if leadLen b = 0 then 0 else 1 + contRun b (leadLen b - 1) 1 r

/-- Bytes of the well-formed character at the front; 0 for an ill-formed byte. -/
def charLen (l : List Byte) : Nat :=
  match l with
  | [] => 0
  | b :: _ => if leadLen b != 0 && prefixLen l == leadLen b then leadLen b else 0

/-- Units of a text (R334): characters and ill-formed bytes, each with whether it is a character. -/
def unitsFuel : Nat → List Byte → List (Bool × List Byte)
  | 0, _ => []
  | _ + 1, [] => []
  | n + 1, l =>
    let c := charLen l
    if c = 0 then (false, l.take 1) :: unitsFuel n (l.drop 1) else (true, l.take c) :: unitsFuel n (l.drop c)

def unitsOf (l : List Byte) : List (Bool × List Byte) := unitsFuel l.length l

def wellFormed (l : List Byte) : Bool := (unitsOf l).all (·.1)

def textLimit : Nat := 1048576

/-- R335: the cut of a text of more than 1,048,576 bytes. -/
def cutText (l : List Byte) : List Byte :=
  if l.length ≤ textLimit then l
  else
    let u := (unitsOf (l.take (textLimit + 4)))
    let fit := (u.foldl (fun (p : Nat × Bool) x =>
      if p.2 then p else if p.1 + x.2.length ≤ textLimit then (p.1 + x.2.length, false) else (p.1, true)) (0, false)).1
    l.take fit

/-! ### The vocabulary (R337 to R340) -/

/-- R339: CRC-32C with the seed as initial register. -/
def textHash (seed : W32) (l : List Byte) : W32 := ~~~(l.foldl (crcByte 0x82F63B78#32) seed)

def entryBytesOf (v : Vocab) (id : Nat) : List Byte := ((v.entries[id]?).map (·.bytes)).getD []

def probeFrom (v : Vocab) (h : Nat) (l : List Byte) : Nat → Nat → Option Nat
  | 0, _ => none
  | n + 1, i =>
    match v.table[(h + i) % v.buckets]? with
    | none => none
    | some (id, len, tag) =>
      if id = 0xFFFFFFFF then none
      else if len = l.length && tag = h / 2 ^ 24 && entryBytesOf v id == l then some id
      else probeFrom v h l n (i + 1)

/-- The TEXT entry with these bytes (R339). -/
def lookupText (v : Vocab) (l : List Byte) : Option Nat := probeFrom v (textHash v.seed l).toNat l v.probe 0

/-- Token ID of a byte (R337). -/
def byteToken (v : Vocab) (b : Byte) : Nat := v.byteBase + b.toNat

/-- The longest TEXT entry at the front that ends on a character boundary, from `n` bytes down. -/
def longestText (v : Vocab) (l : List Byte) (bounds : List Nat) : Nat → Option (Nat × Nat)
  | 0 => none
  | n + 1 =>
    if bounds.contains (n + 1) then
      (match lookupText v (l.take (n + 1)) with
       | some id => some (id, n + 1)
       | none => longestText v l bounds n)
    else longestText v l bounds n

/-- Byte counts from the front at which a character or ill-formed byte ends. -/
def boundsOf (l : List Byte) : List Nat :=
  ((unitsOf l).foldl (fun (p : Nat × List Nat) u => (p.1 + u.2.length, p.2 ++ [p.1 + u.2.length])) (0, [])).2

def tokenizeFuel (v : Vocab) : Nat → List Byte → List Nat
  | 0, _ => []
  | _ + 1, [] => []
  | n + 1, b :: r =>
    let l := b :: r
    let c := charLen l
    if c = 0 then byteToken v b :: tokenizeFuel v n r
    else
      let m := min v.lmax l.length
      match longestText v l (boundsOf (l.take (m + 3))) m with
      | some (id, k) => id :: tokenizeFuel v n (l.drop k)
      | none => (l.take c).map (byteToken v) ++ tokenizeFuel v n (l.drop c)

/-- R342. -/
def tokenize (v : Vocab) (l : List Byte) : List Nat := tokenizeFuel v l.length l

/-- R340: what Wenik checks of a VOCAB section. -/
def vocabOk (v : Vocab) (p : ModelParams) : Bool :=
  let texts := v.entries.filter (fun e => e.kind == 0)
  v.magicOk && !v.rsvd && v.entries.length == p.vocab
    && (List.range 11).any (fun i => v.buckets == 2 ^ (10 + i)) && decide (texts.length < v.buckets) && v.table.length == v.buckets
    && decide (1 ≤ v.lmax) && decide (v.lmax ≤ 64) && decide (1 ≤ v.probe) && decide (v.probe ≤ 32)
    && v.entries.all (fun e => match e.kind with
        | 0 => decide (1 ≤ e.bytes.length) && decide (e.bytes.length ≤ v.lmax) && wellFormed e.bytes
        | 1 => e.bytes.length == 1
        | 2 => e.bytes.isEmpty
        | _ => false)
    && (texts.map (·.bytes)).eraseDups.length == texts.length
    && (v.entries.filter (fun e => e.kind == 1)).length == 256
    && (List.range 256).all (fun b => match v.entries[v.byteBase + b]? with
        | some e => e.kind == 1 && e.bytes == [byteNat b]
        | none => false)
    && (match v.entries[p.eos]? with | some e => e.kind == 2 | none => false)
    && v.entries.zipIdx.all (fun e => e.1.kind != 0 || lookupText v e.1.bytes == some e.2)
    && v.table.zipIdx.all (fun b => b.1.1 == 0xFFFFFFFF || (match v.entries[b.1.1]? with
        | some e => e.kind == 0 && (let h := (textHash v.seed e.bytes).toNat
            decide ((b.2 + v.buckets - h % v.buckets) % v.buckets < v.probe))
        | none => false))

/-! ### Chunking (R344) -/

/-- Does the text of token `t` end with one of these bytes? -/
def endsWith (v : Vocab) (t : Nat) (l : List Byte) : Bool :=
  match (entryBytesOf v t).getLast? with | some b => l.contains b | none => false

def greatestIn (lo hi : Nat) (f : Nat → Bool) : Option Nat :=
  ((List.range (hi - lo)).map (fun i => hi - i)).find? f

/-- Passages as runs of tokens. -/
def chunkFuel (v : Vocab) (c o : Nat) : Nat → List Nat → List (List Nat)
  | 0, _ => []
  | _ + 1, [] => []
  | n + 1, t :: r =>
    let l := t :: r
    if l.length ≤ c then [l]
    else
      let ends := fun (b : List Byte) (j : Nat) => endsWith v (l.getD (j - 1) 0) b
      let e := match greatestIn (c - c / 8) c (ends [0x0A#8]) with
        | some e => e
        | none => (greatestIn (c - c / 8) c (ends [0x2E#8, 0x21#8, 0x3F#8])).getD c
      l.take e :: chunkFuel v c o n (l.drop (e - o))

def chunkTokens (v : Vocab) (c o : Nat) (l : List Nat) : List (List Nat) := chunkFuel v c o l.length l

/-! ### The decoder and the stop matcher (R345 to R351) -/

def replacement : List Byte := [0xEF#8, 0xBF#8, 0xBD#8]

/-- R345: characters released from the pending bytes, and the bytes that stay. -/
def decodeFuel : Nat → List Byte → List (List Byte) × List Byte
  | 0, l => ([], l)
  | _ + 1, [] => ([], [])
  | n + 1, b :: r =>
    let l := b :: r
    let c := charLen l
    if c != 0 then
      let (out, rest) := decodeFuel n (l.drop c)
      (l.take c :: out, rest)
    else
      let p := prefixLen l
      if p = l.length then ([], l)
      else
        let (out, rest) := decodeFuel n (l.drop (max p 1))
        (replacement :: out, rest)

def decodeBytes (l : List Byte) : List (List Byte) × List Byte := decodeFuel l.length l

/-- The longest suffix of `l` that is a proper prefix of a stop string (R348). -/
def heldSuffix (stops : List (List Byte)) (l : List Byte) : List Byte :=
  ((List.range (l.length + 1)).map (fun i => l.drop i)).find? (fun suf =>
    stops.any (fun st => decide (suf.length < st.length) && suf.isPrefixOf st)) |>.getD []

/-- The longest stop string that ends here (R349). -/
def matchedStop (stops : List (List Byte)) (l : List Byte) : Option (List Byte) :=
  (stops.filter (fun st => st.isSuffixOf l)).foldl (fun (acc : Option (List Byte)) st => match acc with
    | none => some st
    | some x => if x.length < st.length then some st else acc) none

/-- What the matcher makes of the characters of one token: bytes released, bytes held, and whether a stop string was completed. -/
def matchChars (stops : List (List Byte)) (incl : Bool) : List Byte → List Byte → List (List Byte) → List Byte × List Byte × Bool
  | out, held, [] => (out, held, false)
  | out, held, c :: r =>
    let l := held ++ c
    match matchedStop stops l with
    | some st => (out ++ l.take (l.length - st.length) ++ (if incl then st else []), [], true)
    | none =>
      let suf := heldSuffix stops l
      matchChars stops incl (out ++ l.take (l.length - suf.length)) suf r

/-- The bytes that fit `n`, cut at the last whole character (R39, R350). -/
def fitChars (n : Nat) (l : List Byte) : List Byte :=
  (unitsOf l).foldl (fun (p : List Byte × Bool) u =>
    if p.2 then p else if p.1.length + u.2.length ≤ n then (p.1 ++ u.2, false) else (p.1, true)) ([], false) |>.1

/-! ### Grammars (R352 to R356) -/

def classOfToken (g : Grammar) (t : Nat) : Nat := ((g.classOf.find? (fun p => p.1 == t)).map (·.2)).getD g.default

def grammarState (g : Grammar) (n : Nat) : GrammarState := g.states.getD n ⟨[], []⟩

def grammarAllows (g : Grammar) (st t : Nat) : Bool := (grammarState g st).bitmap.contains (classOfToken g t)

def grammarNext (g : Grammar) (st t : Nat) : Nat :=
  (((grammarState g st).trans.find? (fun p => p.1 == classOfToken g t)).map (·.2)).getD st

/-- R352 to R354. -/
def grammarOk (g : Grammar) (v : Nat) : Bool :=
  let n := g.states.length
  g.magicOk && !g.rsvd && g.vocab == v && decide (1 ≤ n) && decide (n ≤ 1048576) && decide (1 ≤ g.classes) && decide (g.classes ≤ 4096)
    && decide (g.start < n) && decide ((g.states.map (fun x => x.trans.length)).foldl (· + ·) 0 ≤ 16777216)
    && decide (g.default < g.classes) && g.classOf.all (fun p => decide (p.2 < g.classes))
    && g.states.all (fun x => x.trans.all (fun p => decide (p.1 < g.classes) && decide (p.2 < n))
        && (x.trans.zip (x.trans.drop 1)).all (fun q => decide (q.1.1 < q.2.1)) && x.bitmap == x.trans.map (·.1))

/-! ### Packing (R357 to R360) -/

def runOfT (t : Template) (n : Nat) : List Nat := t.runs.getD n []

/-- R357. -/
def templateOk (t : Template) (v : Nat) : Bool :=
  t.magicOk && !t.rsvd && decide (1 ≤ t.maxPassages) && decide (t.maxPassages ≤ 256)
    && (t.perPassage == 0 || (decide (32 ≤ t.perPassage) && decide (t.perPassage ≤ 2048)))
    && t.runs.length == 9 && t.runs.all (fun r => decide (r.length ≤ 4096) && r.all (fun x => decide (x < v)))
    && !(runOfT t 6).isEmpty
    && decide ((runOfT t 7).length + (runOfT t 8).length ≤ (runOfT t 0).length + (runOfT t 1).length + (runOfT t 2).length)

/-- The packing so far: tokens used, passages packed, their token runs in prompt order, whole, cut and skipped, and the IDs packed. -/
structure Packed where
  used    : Nat
  packed  : Nat
  body    : List Nat
  whole   : Nat
  cut     : Nat
  skipped : Nat
  ids     : List Nat
  deriving DecidableEq, Repr

/-- R359's loop over the candidates in rerank order. -/
def packGo (t : Template) (b : Nat) : Packed → List (Nat × List Nat) → Packed
  | p, [] => p
  | p, (id, toks) :: r =>
    if t.maxPassages ≤ p.packed then p
    else
      let sep := if p.packed = 0 then [] else runOfT t 5
      let o := (runOfT t 3).length + (runOfT t 4).length + sep.length
      let n := toks.length
      let a := if t.perPassage = 0 then n + b else t.perPassage
      if n < 32 then packGo t b { p with skipped := p.skipped + 1 } r
      else if n ≤ a && p.used + o + n ≤ b then
        packGo t b { p with used := p.used + o + n, packed := p.packed + 1, whole := p.whole + 1, ids := p.ids ++ [id]
                            body := p.body ++ sep ++ runOfT t 3 ++ toks ++ runOfT t 4 } r
      else
        let keep := min a (b - p.used - o - (runOfT t 6).length)
        if 32 ≤ keep then
          let p' := { p with used := p.used + o + keep + (runOfT t 6).length, packed := p.packed + 1, cut := p.cut + 1, ids := p.ids ++ [id]
                             body := p.body ++ sep ++ runOfT t 3 ++ toks.take keep ++ runOfT t 6 ++ runOfT t 4 }
          if keep < a then p' else packGo t b p' r
        else { p with skipped := p.skipped + 1 }

/-- R358, R359: the packing and the prompt; `none` when template and question exceed the budget. -/
def packPrompt (t : Template) (b : Nat) (question : List Nat) (cands : List (Nat × List Nat)) : Option (Packed × List Nat) :=
  let used := (runOfT t 0).length + question.length + (runOfT t 1).length + (runOfT t 2).length
  if b < used then none
  else
    let p := packGo t b ⟨used, 0, [], 0, 0, 0, []⟩ cands
    some (p, if p.packed = 0 then runOfT t 7 ++ question ++ runOfT t 8
             else runOfT t 0 ++ question ++ runOfT t 1 ++ p.body ++ runOfT t 2)

/-! ### Sampling (R324 to R328) -/

/-- A full row under mass weights, negative infinity kept (R325). -/
def sampleOp : SOp := ⟨0, 0, 0, 256, 9, false, true, false, false, false, 0⟩

/-- R325's changes to the logits: biases, penalties, NaN to negative infinity; a token that is not allowed becomes NaN. -/
def biasLogits (z : List W32) (biases : List (Nat × W32)) : List W32 :=
  biases.foldl (fun z b => z.set b.1 (fpAdd (z.getD b.1 0#32) b.2)) z

def penalize (p : ParamObj) (x : W32) : W32 :=
  let x := if fpLt 0#32 x then fpDiv x p.repetition else if fpLt x 0#32 then fpMul x p.repetition else x
  fpSub x p.presence

def penalLogits (p : ParamObj) (occ : List Nat) (z : List W32) : List W32 :=
  z.zipIdx.map (fun e => if occ.contains e.2 then penalize p e.1 else e.1)

def maskLogits (allowed : Nat → Bool) (z : List W32) : List W32 :=
  z.zipIdx.map (fun e => if allowed e.2 then (if fpIsNan e.1 then fp32NegInf else e.1) else fp32NaN)

def rowOf (z : List W32) : List SElem := z.zipIdx.map (fun e => ⟨e.2, numOfFp32 e.1, e.1.toNat, 0, e.2⟩)

/-- Running sums of the candidates' weights (R326). -/
def cumulate : W32 → List W32 → List W32
  | _, [] => []
  | a, w :: r => fpAdd a w :: cumulate (fpAdd a w) r

/-- u = (word0 >> 8) × 2⁻²⁴ (R326). -/
def unitDraw (word : W32) : W32 := fp32Round false (word.toNat / 256) (-24) false

/-- The draw for the g-th token (R327). -/
def philoxWord (seed : W64) (g : Nat) : W32 :=
  (philox (BitVec.ofNat 32 seed.toNat) (BitVec.ofNat 32 (seed.toNat / 2 ^ 32)) (BitVec.ofNat 32 (g - 1), 0#32, 0#32, 0#32)).1

/-- R326. -/
def choose (p : ParamObj) (cands : List SElem) (sel left : W32) (word : W32) : Nat :=
  match cands with
  | [] => 0
  | m :: _ =>
    let w := cands.map (sTerm sampleOp (some m))
    let cum := cumulate 0#32 w
    let q := cands.length
    let n := if fpLt p.topP fp32One then
        let tau := fpMul p.topP (fpAdd sel left)
        min q (cum.findIdx (fun c => !fpLt c tau) + 1)
      else q
    let n := if fpLt 0#32 p.minP then min n (w.takeWhile (fun x => !fpLt x p.minP)).length else n
    let n := max n 1
    let r := fpMul (unitDraw word) (cum.getD (n - 1) 0#32)
    let j := min (cum.findIdx (fun c => fpLt r c)) (n - 1)
    (cands.getD j m).pos

/-- R325: the token sampled from the logits, `none` at a dead end. -/
def sampleToken (p : ParamObj) (seed : W64) (g : Nat) (occ : List Nat) (allowed : Nat → Bool) (logits : List W32) : Option Nat :=
  let z := maskLogits allowed (penalLogits p occ (biasLogits logits p.biases))
  let valid := (rowOf z).filter (fun e => !e.val.isNan)
  if valid.isEmpty then none
  else if fpIsZero p.temperature then ((rankList valid).head?).map (·.pos)
  else
    let x := (rowOf (z.map (fun v => fpDiv v p.temperature))).filter (fun e => !e.val.isNan)
    let r := topk { sampleOp with k := if p.topK = 0 then 256 else p.topK, len := z.length } x none
    let mx := sMax x
    some (choose p r.taken (sSum sampleOp mx r.sel) (sSum sampleOp mx r.left) (philoxWord seed g))

/-- R324. -/
def occurrence (window : Nat) (penalPrompt : Bool) (prompt gen : List Nat) : List Nat :=
  let n := prompt.length + gen.length
  let s := max (if penalPrompt then 0 else prompt.length) (n - window)
  ((prompt ++ gen).drop s).eraseDups

/-! ### Rerank (R34, R35) -/

/-- R34: the pair of a question and a passage. -/
def pairTokens (len : Nat) (question passage : List Nat) : List Nat := (question ++ passage).take len

/-- R35: candidates by score, NaN behind every valid one; the key is the passage ID. -/
def rerankOrder (l : List (Nat × W32)) : List (Nat × W32) :=
  let e := l.map (fun c => (⟨c.1, numOfFp32 c.2, c.2.toNat, 0, c.1⟩ : SElem))
  let valid := rankList (e.filter (fun x => !x.val.isNan))
  let bad := (l.filter (fun c => fpIsNan c.2)).map (·.1)
  valid.map (fun x => (x.key, BitVec.ofNat 32 x.bits)) ++
    (bad.foldl (fun (acc : List Nat) x => (acc.filter (· < x)) ++ x :: acc.filter (fun y => decide (x < y))) []).map (fun x => (x, fp32NaN))

/-- R35: the mass of the packed valid candidates over that of all valid ones; +0 when there is none. The sums run in candidate order. -/
def rerankConfidence (l : List (Nat × W32)) (packed : List Nat) : W32 :=
  let valid := (l.map (fun c => (⟨c.1, numOfFp32 c.2, c.2.toNat, 0, c.1⟩ : SElem))).filter (fun x => !x.val.isNan)
  let mx := sMax valid
  let all := sSum sampleOp mx valid
  if valid.isEmpty then 0#32 else fpDiv (sSum sampleOp mx (valid.filter (fun x => packed.contains x.key))) all

end Sys2Proof.Machine
end

