-- ==== Sys2Proof/Machine/Image.lean ====
section
/-!
DEFINITION. The bytes of an image (R52 to R55, R61, R65): its section table and sections, the records that the sections of a fixed layout
hold (R55, R188, R337, R338, R352, R353, R357), its digest, and the embedding fingerprint.
-/
namespace Sys2Proof.Machine

/-! ### Sections -/

/-- The `n`-byte little-endian field at byte `off`. -/
def fieldAt (l : List Byte) (off n : Nat) : Nat := leNat ((l.drop off).take n)

/-- `n` bytes at `off` are 0. -/
def zeroAt (l : List Byte) (off n : Nat) : Bool := ((l.drop off).take n).all (fun b => b == 0#8)

/-- R53: the entry of a section. -/
def sectionEntry (x : Section) : List Byte :=
  leBytes 2 x.type ++ leBytes 2 x.flags.toNat ++ leBytes 4 x.locator.toNat ++ leBytes 8 x.offset ++ leBytes 8 x.size ++ leBytes 1 x.placement
    ++ leBytes 1 x.format ++ leBytes 2 x.reserved.toNat ++ leBytes 4 x.crc.toNat

/-- The end of the section table, from the image's start (R52, R53). -/
def tableEnd (sections : List Section) : Nat := 128 + 32 * sections.length

/-- A section's bytes, of those behind the section table. -/
def bytesOfSection (start : Nat) (data : List Byte) (x : Section) : List Byte := (data.drop (x.offset - start)).take x.size

def sectionBytes (m : ImageMeta) (x : Section) : List Byte := bytesOfSection (tableEnd m.sections) m.data x

/-- Bytes 128 to the end of the image. -/
def imageBody (sections : List Section) (data : List Byte) : List Byte := sections.flatMap sectionEntry ++ data

/-- R52: SHA-384 of them, as a 48-byte number. -/
def imageDigest (sections : List Section) (data : List Byte) : BitVec 384 := BitVec.ofNat 384 (leNat (sha384 (imageBody sections data)))

def sectionsOfType (m : ImageMeta) (t : Nat) : List Section := m.sections.filter (fun x => x.type == t)

/-- The bytes of the section of a type with a locator; of a single section the locator is 0. -/
def sectionAt (m : ImageMeta) (t loc : Nat) : List Byte :=
  match m.sections.find? (fun x => x.type == t && x.locator.toNat == loc) with
  | some x => sectionBytes m x
  | none => []

/-- The grammar with an index: grammars stand in the order of their sections. -/
def grammarAt (m : ImageMeta) (n : Nat) : Option Grammar :=
  ((((sectionsOfType m 11).map (fun x => x.locator.toNat)).zip m.grammars).find? (fun p => p.1 == n)).map (·.2)

/-! ### Records of a fixed layout -/

/-- R55. -/
def readParams (l : List Byte) : ModelParams :=
  let f := fieldAt l
  { layers := f 0 2, e := f 2 2, r := f 4 2, firstMoe := f 6 2, hidden := f 8 4, ffn := f 12 4, expertFfn := f 16 4, heads := f 20 2
    kvHeads := f 22 2, headDim := f 24 2, routed := f 26 2, active := f 28 1, shared := f 29 1, pooling := f 30 1, norm := f 31 1, dim := f 32 4
    vocab := f 36 4, context := f 40 4, rotary := BitVec.ofNat 32 (f 44 4), eps := BitVec.ofNat 32 (f 48 4), act := f 52 4, eos := f 56 4
    coldSlots := f 60 2, rsvd := !zeroAt l 62 66 }

/-- The `n` records of `size` bytes at `off`. -/
def recordsAt (l : List Byte) (off size n : Nat) : List (List Byte) := (List.range n).map (fun i => (l.drop (off + i * size)).take size)

/-- Whether `n` bytes at an offset that is a multiple of `unit` lie within the section. -/
def areaIn (l : List Byte) (unit off n : Nat) : Bool := off % unit == 0 && decide (off + n ≤ l.length)

/-- R338: the entry of a token ID, with the strings of the pool. -/
def readEntry (pool : List Byte) (e : List Byte) : VocabEntry := ⟨fieldAt e 5 1, (pool.drop (fieldAt e 0 4)).take (fieldAt e 4 1)⟩

/-- R337, R338; `magicOk` also says that the arrays lie within the section and every string within the pool. -/
def readVocab (l : List Byte) : Vocab :=
  let f := fieldAt l
  let buckets := recordsAt l (f 28 4) 8 (f 12 4)
  let entries := recordsAt l (f 32 4) 8 (f 8 4)
  let pool := (l.drop (f 36 4)).take (f 40 4)
  { magicOk := l.take 8 == strBytes "HXVOCAB1" && areaIn l 16 (f 28 4) (8 * f 12 4) && areaIn l 16 (f 32 4) (8 * f 8 4)
      && areaIn l 16 (f 36 4) (f 40 4) && entries.all (fun e => decide (fieldAt e 0 4 + fieldAt e 4 1 ≤ f 40 4))
    buckets := f 12 4, seed := BitVec.ofNat 32 (f 16 4), lmax := f 20 1, probe := f 21 1, byteBase := f 24 4
    entries := entries.map (readEntry pool)
    table := buckets.map (fun b => (fieldAt b 0 4, fieldAt b 4 1, fieldAt b 5 1))
    rsvd := !(zeroAt l 22 2 && zeroAt l 44 20 && (buckets ++ entries).all (fun e => zeroAt e 6 2)) }

/-- R357. -/
def readTemplate (l : List Byte) : Template :=
  let f := fieldAt l
  let runs := recordsAt l 16 8 9
  { magicOk := l.take 8 == strBytes "HXTMPL01" && runs.all (fun e => areaIn l 4 (fieldAt e 0 4) (4 * fieldAt e 4 4))
    maxPassages := f 8 2, perPassage := f 12 4
    runs := runs.map (fun e => (recordsAt l (fieldAt e 0 4) 4 (fieldAt e 4 4)).map leNat)
    rsvd := !(zeroAt l 10 2 && zeroAt l 88 40) }

/-- R353: a state with its transitions; `none` when they do not lie within the transition count. -/
def readState (l : List Byte) (bitmap trans total classes i : Nat) (e : List Byte) : Option GrammarState :=
  let first := fieldAt e 0 4
  let n := fieldAt e 4 2
  if total < first + n then none
  else
    let row := (l.drop (bitmap + i * (ceilDiv classes 64 * 8))).take (ceilDiv classes 64 * 8)
    some ⟨(recordsAt l (trans + 4 * first) 4 n).map (fun t => (leNat t % 4096, leNat t / 4096)),
      (List.range (8 * row.length)).filter (fun c => bitOf (row.getD (c / 8) 0#8) (c % 8))⟩

/-- R352, R353: the section holds this grammar. -/
def grammarIs (g : Grammar) (l : List Byte) : Bool :=
  let f := fieldAt l
  let states := recordsAt l (f 40 8) 8 (f 12 4)
  let classes := recordsAt l (f 32 8) 2 (f 8 4)
  (g.magicOk == (l.take 8 == strBytes "HXGRAMR1" && areaIn l 16 (f 32 8) (2 * f 8 4) && areaIn l 16 (f 40 8) (8 * f 12 4)
      && areaIn l 16 (f 48 8) (f 12 4 * (ceilDiv (f 16 2) 64 * 8)) && areaIn l 16 (f 56 8) (4 * f 24 4)))
    && g.vocab == f 8 4 && g.classes == f 16 2 && g.start == f 20 4
    && states.zipIdx.map (fun e => readState l (f 48 8) (f 56 8) (f 24 4) (f 16 2) e.2 e.1) == g.states.map some
    && classes.zipIdx.all (fun e => leNat e.1 % 4096 == classOfToken g e.2)
    && g.rsvd == !(zeroAt l 18 2 && zeroAt l 28 4 && zeroAt l 64 64 && states.all (fun e => zeroAt e 6 2)
        && classes.all (fun e => decide (leNat e < 4096)))

/-- R188: the feature-table list. -/
def featureList (l : List FeatureEntry) : List Byte :=
  leBytes 4 l.length ++ l.flatMap (fun f =>
    leBytes 1 f.table ++ leBytes 1 f.kind ++ leBytes 2 f.bag ++ leBytes 4 f.rows ++ leBytes 2 f.width ++ leBytes 6 f.rsvd ++ leBytes 16 f.salt.toNat)

/-- R281: the feature-list stamp of the passages that an image ingests. -/
def featureStamp (m : ImageMeta) : List Byte := (sha256 (featureList m.features)).take 8

/-- The records are what the sections hold (R53 to R55, R188, R337, R352, R357). -/
def recordsRead (m : ImageMeta) : Bool :=
  (sectionsOfType m 1).all (fun x => x.size == 128 && readParams (sectionBytes m x) == m.params)
    && (sectionsOfType m 9).all (fun x => readVocab (sectionBytes m x) == m.vocab)
    && (sectionsOfType m 10).all (fun x => readTemplate (sectionBytes m x) == m.template)
    && ((sectionsOfType m 11).zip m.grammars).all (fun x => grammarIs x.2 (sectionBytes m x.1))
    && (sectionsOfType m 6).all (fun x => (featureList m.features).isSuffixOf (sectionBytes m x))

/-! ### Experts (R57 to R59) -/

/-- Layers from the first MoE layer on. -/
def moeLayers (p : ModelParams) : List Nat := if p.firstMoe = 0xFFFF then [] else (List.range p.layers).drop p.firstMoe

/-- R53: the locator of a routed expert. -/
def expertLocator (layer e : Nat) : Nat := layer * 65536 + e

def expertLocators (p : ModelParams) : List Nat := (moeLayers p).flatMap (fun l => (List.range p.routed).map (expertLocator l))

/-- The cold experts of a layer: those placed in T3 (R58). -/
def coldExperts (m : ImageMeta) (layer : Nat) : List Nat :=
  (List.range m.params.routed).filter (fun e => m.sections.any (fun x =>
    x.type == 3 && x.placement == 1 && x.locator.toNat == expertLocator layer e))

/-- R59: the staging area is the slots times the largest EXPERT section. -/
def stagingBytes (m : ImageMeta) : Nat := m.params.coldSlots * ((sectionsOfType m 3).map (·.size)).foldl max 0

/-- Bytes of the sections in a tier (R52). -/
def placedBytes (m : ImageMeta) (placement : Nat) : Nat :=
  ((m.sections.filter (fun x => x.placement == placement)).map (·.size)).foldl (· + ·) 0

/-! ### The embedding fingerprint (R61) -/

/-- R61: layers 0 to e − 1, each followed by its experts in ascending index. -/
def fingerprintSections (sections : List Section) (p : ModelParams) : List Section :=
  let named := fun (t loc : Nat) => (sections.find? (fun x => x.type == t && x.locator.toNat == loc)).toList
  named 9 0 ++ named 4 0
    ++ (List.range p.e).flatMap (fun l => named 2 l
        ++ (if (moeLayers p).contains l then (List.range p.routed).flatMap (fun e => named 3 (expertLocator l e)) else []))
    ++ named 5 0

/-- R61: the bytes that the digest covers. -/
def fingerprintStream (sections : List Section) (data : List Byte) (p : ModelParams) : List Byte :=
  (fingerprintSections sections p).flatMap (bytesOfSection (tableEnd sections) data)
    ++ leBytes 4 p.e ++ leBytes 4 p.dim ++ leBytes 4 p.pooling ++ leBytes 4 p.norm

/-- R61: the first 128 bits of the digest. -/
def fingerprintOf (sections : List Section) (data : List Byte) (p : ModelParams) : W128 :=
  BitVec.ofNat 128 (leNat ((sha256 (fingerprintStream sections data p)).take 16))

/-- What the slices of one image share (R65). -/
def sliceInfo (m : ImageMeta) : SliceInfo := ⟨m.imageId, m.fingerprint, m.params⟩

end Sys2Proof.Machine
end

