-- ==== Sys2Proof/Machine/Gather.lean ====
section
/-!
DEFINITION. The G engine: table descriptors and rows (R176, R177, R179, R187), bags and pooling (R180, R181), the choice of copy
(R190, R191), launches and completion (R183, R184) and errors (R185).
-/
namespace Sys2Proof.Machine

/-! ### Rows and descriptors -/

/-- R176. -/
def rowStride (width code : Nat) : Nat := 16 + (if code = 8 then width else width / 2)

/-- R177: rows per tile, 0 when a row is longer than a tile. -/
def rowsInTile (stride : Nat) : Nat := if stride ≤ tileBytes then tileBytes / stride else 0

/-- R179: tiles per row, 0 when a tile holds a row. -/
def tilesPerRow (stride : Nat) : Nat := if stride ≤ tileBytes then 0 else ceilDiv stride tileBytes

/-- R177: the address of row `n`. -/
def rowAddr (base stride n : Nat) : Nat :=
  if stride ≤ tileBytes then
    let p := tileBytes / stride
    base + n / p * tileBytes + n % p * stride
  else base + n * ceilDiv stride tileBytes * tileBytes

/-- A table descriptor as a G instruction reads it. -/
structure GDesc where
  table   : Nat
  code    : Nat
  local_  : Bool
  q       : Nat
  version : Nat
  base    : Nat
  rows    : Nat
  width   : Nat
  p       : Nat
  stride  : Nat
  rsvd    : Bool
  deriving DecidableEq, Repr

def gDesc (m : List Host.Cell) (a : Nat) : GDesc :=
  ⟨(readByte m a).toNat, readNat m (a + 1) 1, readNat m (a + 2) 1 % 2 == 1, readNat m (a + 3) 1, readNat m (a + 4) 4, readNat m (a + 8) 8,
   readNat m (a + 16) 4, readNat m (a + 20) 2, readNat m (a + 22) 2, readNat m (a + 24) 4,
   decide (readNat m (a + 2) 1 / 2 ≠ 0) || decide (readNat m (a + 28) 4 ≠ 0) || decide (readNat m (a + 48) 16 ≠ 0)⟩

/-- R185: what a descriptor must satisfy at start. -/
def gDescOk (d : GDesc) : Bool :=
  !d.rsvd && decide (d.table ≤ 16) && (d.code == 4 || d.code == 8) && decide (32 ≤ d.width) && decide (d.width ≤ 32768)
    && d.width % 32 == 0 && d.stride == rowStride d.width d.code && d.p == rowsInTile d.stride && d.q == tilesPerRow d.stride

/-! ### Checks at issue -/

def gListLen (p : GOp) : Nat := p.bags * p.bag * 8
def gAddrList (p : GOp) (it : Nat) : Nat := p.list + (if p.adv then it * gListLen p else 0)
def gOutLen (p : GOp) (width : Nat) : Nat := p.bags * width * fmtSize p.ofmt
def gAddrOut (p : GOp) (width it : Nat) : Nat := p.out + (if p.adv then it * gOutLen p width else 0)

/-- The width that a GPOOL's descriptor gives at issue: 0 while a slot of it is not FULL, since the output's length is then not known
before the start (log 45). -/
def gWidthAt (k : Core) (p : GOp) : Nat := if readGate k (slotsOf p.desc 64) = .pass then (gDesc k.bytes p.desc).width else 0

/-- The plan error a G instruction raises at issue, if any (R185). -/
def gCheck (k : Core) (d : UnitDesc) (op : Nat) (o : Ops88) (it : Nat) : Option Nat :=
  let p := gOp o
  let w := gWidthAt k p
  if !(op == 1 && zeroBits o 84 87 && (p.ofmt == 9 || p.ofmt == 7) && p.doff % 4 == 0 && decide (p.out < 192 * tileBytes)
      && decide (gAddrOut p w it + gOutLen p w ≤ 192 * tileBytes)) then some 0x01
  else if !(rangeOk d p.desc 64 && decide (p.desc + 64 ≤ 192 * tileBytes) && rangeOk d (gAddrList p it) (gListLen p)
      && ownsT0 d (p.out / tileBytes) && rangeOk d (gAddrOut p w it) (gOutLen p w)) then some 0x05
  else none

def gReads (o : Ops88) (it : Nat) : List Nat :=
  let p := gOp o
  (slotsOf p.desc 64 ++ slotsOf (gAddrList p it) (gListLen p)).eraseDups

/-! ### Pooling (R181) -/

/-- A row's bytes: scale, offset and code of column `j`. -/
def rowScale (r : List Byte) : W32 := fp32OfNum (numOfFp16 (leNat (r.take 2)))
def rowOffset (r : List Byte) : W32 := fp32OfNum (numOfFp16 (leNat ((r.drop 2).take 2)))
def rowCode (code : Nat) (r : List Byte) (j : Nat) : Nat :=
  if code = 8 then (r.getD (16 + j) 0#8).toNat else nibble (r.getD (16 + j / 2) 0#8) (j % 2 == 1)

/-- One entry added to a bag's sums. -/
def poolRow (code width : Nat) (acc : List W32) (r : List Byte) (wt : W32) : List W32 :=
  (List.range width).map (fun j =>
    fpFma wt (fpFma (rowScale r) (fpOfNat (rowCode code r j)) (rowOffset r)) (acc.getD j 0#32))

/-- One bag, its entries in order. -/
def poolBag (code width : Nat) (entries : List (List Byte × W32)) : List W32 :=
  entries.foldl (fun acc e => poolRow code width acc e.1 e.2) (List.replicate width 0#32)

/-! ### Launch and completion -/

/-- R191: the near stack of a site. -/
def nearStack (site : Nat) : Nat := (if site / 24 ≤ 10 then 0 else 6) + site % 24 / 4

def replicaBase (stack : Nat) : Nat := 0x011FA0000000 + stack * 0x08000000

/-- R191: the address a lookup of a home row reads on a site. -/
def copyAddr (s : State) (site home : Nat) : Nat :=
  match AMap.get none s.tabs.hot home with
  | some h => if h.repl.getD (nearStack site) .absent = .valid then replicaBase (nearStack site) + h.offset else home
  | none => home

/-- Entries of the bag list, padding left out: bag, row index, weight bits. -/
def bagEntries (m : List Host.Cell) (p : GOp) (a : Nat) : List (Nat × Nat × Nat) :=
  (List.range (p.bags * p.bag)).filterMap (fun i =>
    let r := readNat m (a + 8 * i) 4
    if r = 0xFFFFFFFF then none else some (i / p.bag, r, readNat m (a + 8 * i + 4) 2))

/-- Context numbers in use on a core by lookups in flight (R98, R100). -/
def gNumbers (k : Core) : List Nat :=
  k.flights.flatMap (fun f => match f.work with
    | .gather _ _ _ _ l => (l.filter (fun c => c.state == .ready || c.state == .waiting)).map (·.num)
    | _ => [])

/-- R98: free context numbers in ascending order. -/
def freeNumbers (limit : Nat) (used : List Nat) : List Nat := (List.range limit).filter (fun n => !used.contains n)

/-- R99: contexts by number, those after the one last served first. -/
def insertServed {α : Type} (limit last : Nat) (x : Nat × α) : List (Nat × α) → List (Nat × α)
  | [] => [x]
  | y :: r => if (x.1 + limit - last - 1) % limit ≤ (y.1 + limit - last - 1) % limit then x :: y :: r else y :: insertServed limit last x r

def servedOrder {α : Type} (limit last : Nat) (l : List (Nat × α)) : List (Nat × α) := l.foldr (insertServed limit last) []

/-- The tiles of a row read from T2 may be read through the near cache by the unit (R208). -/
def rowReach (s : State) (g a len : Nat) : Bool :=
  (slotsOf a len).all (fun t => decide (t < t2Tiles) && reachOk s g t false true)

/-- R192 item 1: every 256th lookup launched is recorded with its home address; a lookup into a T0 copy has none (R187). -/
def sampleLookups (s : State) (first : Nat) (l : List GCtx) : State :=
  let rec_ := (l.zipIdx first).filterMap (fun c => if c.2 % 256 = 255 && c.1.state == .waiting then some (s.time, c.1.addr) else none)
  { s with tabs := { s.tabs with samples := s.tabs.samples ++ rec_ } }

/-- The local address of a T0 copy's rows (R187, R206). -/
def localBase (site base : Nat) : Nat := base - (0x200000000000 + site * 0x400000)

/-- Launch lookups in order, each on the next free context number, from the copy that R191 selects; a lookup into a T0 copy reads its
row at once, and one whose slot is not FULL holds those behind it (R90, R187). A bad index or address stops the unit when it is reached
(R185, R208); the error is a code with its slot. -/
def launchLookups (s : State) (k : Core) (u : UnitDesc) (site : Nat) (d : GDesc) : List Nat → List GCtx → Except (Nat × Nat) (List GCtx)
  | _, [] => .ok []
  | [], l => .ok l
  | n :: ns, c :: r =>
    if c.state != .free then (launchLookups s k u site d (n :: ns) r).map (c :: ·)
    else if decide (d.rows ≤ c.row) then .error (0x0A, 0)
    else if d.local_ then
      let a := localBase site d.base + c.row * d.stride
      if !(slotsOf a d.stride).all (ownsT0 u) then .error (0x0A, 0)
      else match readGate k (slotsOf a d.stride) with
        | .fail x => .error (0x06, x)
        | .hold _ => .ok (c :: r)
        | .pass => (launchLookups s k u site d (n :: ns) r).map ({ c with data := readBytes k.bytes a d.stride, state := .done } :: ·)
    else if !rowReach s u.glade c.addr d.stride then .error (0x0A, 0)
    else (launchLookups s k u site d ns r).map ({ c with num := n, copy := copyAddr s site c.addr, state := .waiting } :: ·)

/-- The output rows, once every row has arrived. -/
def gOutput (p : GOp) (d : GDesc) (l : List GCtx) : List Byte :=
  (List.range p.bags).flatMap (fun b =>
    let ent := (l.filter (fun c => c.bag == b)).map (fun c => (c.data, if p.unw then fp32One else fp32OfNum (numOfBf16 c.weight)))
    packElems p.ofmt (poolBag d.code d.width ent))

def gAllDone (l : List GCtx) : Bool := l.all (fun c => c.state == .done)

/-- R184: cycles without the last row's read latency. -/
def gCycles (p : GOp) (d : GDesc) (entries : Nat) : Nat :=
  24 + (p.bags * p.bag - entries) + entries * ceilDiv d.width 64

/-- R198: GPOOLs on a version under apply hold. -/
def versionHeld (s : State) (table version : Nat) : Bool :=
  s.tabs.applying.any (fun a => a.table == table && a.version == version)

/-- What an engine that reads T2 gives when it tries to go on: nothing, a place in a queue of held accesses, a stop, or a move. -/
inductive BeginS where
  | wait
  | park (s : State)
  | fail (code which : Nat)
  | go (s : State) (k : Core) (f : Flight)
  deriving DecidableEq, Repr

def Begin.lift (s : State) : Begin → BeginS
  | .wait => .wait
  | .fail c w => .fail c w
  | .go k f => .go s k f

/-- The lookups that a launch began. -/
def launchedOf (l l' : List GCtx) : List GCtx := ((l.zip l').filter (fun p => p.1.state == .free && p.2.state != .free)).map (·.2)

/-- A GPOOL with `l` left to launch goes on: it launches what it can, and writes its output once every row is in its sums. -/
def gGo (s : State) (c : Nat) (k : Core) (u : UnitDesc) (f : Flight) (desc : Nat) (d : GDesc) (l : List GCtx) : BeginS :=
  match launchLookups s k u ((siteOf s c).getD 0) d (freeNumbers 1024 (gNumbers k)) l with
  | .error e => .fail e.1 e.2
  | .ok l' =>
    let p := gOp f.word.o
    let new := launchedOf l l'
    let lslots := if d.local_ then (new.flatMap (fun x => slotsOf (localBase ((siteOf s c).getD 0) d.base + x.row * d.stride) d.stride)) else []
    let k1 := { k with lookups := k.lookups + new.length }
    let k1 := if gAllDone l' then { k1 with bytes := writeBytes k1.bytes (gAddrOut p d.width f.iter) (gOutput p d l') } else k1
    .go (sampleLookups s k.lookups new) k1 { f with
      reads := (f.reads ++ lslots).eraseDups
      rel := (f.rel ++ lslots).eraseDups
      work := .gather desc d.table d.version d.base l' }

/-- A GPOOL starts (R183, R185, R187). -/
def gBegin (s : State) (c : Nat) (k : Core) (u : UnitDesc) (f : Flight) : BeginS :=
  let p := gOp f.word.o
  match readGate k f.reads with
  | .fail n => .fail 0x06 n
  | .hold _ => .wait
  | .pass =>
    let d := gDesc k.bytes p.desc
    let site := (siteOf s c).getD 0
    let out := gAddrOut p d.width f.iter
    let olen := gOutLen p d.width
    if !gDescOk d || decide (192 * tileBytes < out + olen) then .fail 0x01 0
    else if !rangeOk u out olen then .fail 0x05 0
    else if versionHeld s d.table d.version then .wait
    else if d.local_ && decide (d.base < 0x200000000000 + site * 0x400000) then .fail 0x0A 0
    else
      let ent := bagEntries k.bytes p (gAddrList p f.iter)
      let ctx := ent.map (fun e => (⟨e.1, e.2.1, e.2.2, if d.local_ then 0 else rowAddr d.base d.stride e.2.1, 0, 0, [], .free⟩ : GCtx))
      let w := slotsOf out olen
      match writeGate k engG true w with
      | .fail n => .fail 0x06 n
      | .hold _ => .wait
      | .pass =>
        let k1 := w.foldl (fun k n => wroteSlot k n (bytesInSlot out olen n)) (fillSlots k w)
        gGo s c k1 u { f with started := true, writes := w, cycles := gCycles p d ent.length } p.desc d ctx

/-- A started GPOOL launches more lookups as context numbers free up (R98, R100). -/
def gResume (s : State) (c : Nat) (k : Core) (u : UnitDesc) (f : Flight) : BeginS :=
  match f.work with
  | .gather desc _ _ _ l =>
    if l.all (fun x => x.state != .free) then .wait
    else match gGo s c k u f desc (gDesc k.bytes desc) l with
      | .go s' k' f' => if f'.work = f.work then .wait else .go s' k' f'
      | b => b
  | _ => .wait

/-- The lookup in flight on context number `n`, with its instruction. -/
def gatherFlight (k : Core) (n : Nat) : Option (Flight × GCtx) :=
  k.flights.findSome? (fun f => match f.work with
    | .gather _ _ _ _ l => (l.find? (fun x => x.num == n && x.state == .waiting)).map (fun x => (f, x))
    | _ => none)

/-- The instruction with its lookup of number `n` changed. -/
def putLookup (f : Flight) (n : Nat) (x : GCtx) : Flight :=
  match f.work with
  | .gather da t v home l => { f with work := .gather da t v home (l.map (fun y => if y.num == n && (y.state == .waiting || y.state == .ready) then x else y)) }
  | _ => f

/-- The lines of `n` bytes at `a` read through the near cache, for a tile of Glade `g`. -/
def touchAs (near : List (Nat × Nat)) (g a n : Nat) : List (Nat × Nat) :=
  (List.range ((a + n + 63) / 64 - a / 64)).foldl (fun near i => touchLine near (a / 64 + i) g) near

/-- A row arrives for the lookup of context number `n` (R99, R183): its lines stand in the near cache and the context is READY. A row read
from its home waits until its tiles are FULL (R214). -/
def gArrive (s : State) (k : Core) (f : Flight) (x : GCtx) : BeginS :=
  match f.work with
  | .gather da _ _ _ _ =>
    let d := gDesc k.bytes da
    if x.copy == x.addr && !(slotsOf x.addr d.stride).all (fun n => dState (tileDesc s n) == tileFull) then .wait
    else .go s { k with near := touchAs k.near (dGlade (tileDesc s (x.addr / tileBytes))) x.copy d.stride }
      (putLookup f x.num { x with data := devBytes s x.copy d.stride, state := .ready })
  | _ => .wait

/-- READY lookups of a core in the order in which they are served (R99, R100). -/
def gReady (k : Core) : List (Nat × Flight × GCtx) :=
  servedOrder 1024 k.gLast (k.flights.flatMap (fun f => match f.work with
    | .gather _ _ _ _ l => (l.filter (fun x => x.state == .ready)).map (fun x => (x.num, f, x))
    | _ => []))

/-- Serve one READY lookup: its row counts in its bag's sums, and with the last one the output is written (R183). -/
def gServe (k : Core) : Option (Core × Flight) :=
  match gReady k with
  | [] => none
  | (n, f, x) :: _ =>
    let f' := putLookup f n { x with state := .done }
    match f'.work with
    | .gather da _ _ _ l =>
      let p := gOp f.word.o
      let d := gDesc k.bytes da
      let k1 := { k with gLast := n }
      some (if gAllDone l then { k1 with bytes := writeBytes k1.bytes (gAddrOut p d.width f.iter) (gOutput p d l) } else k1, f')
    | _ => none

end Sys2Proof.Machine
end

