-- ==== Sys2Proof/Machine/HotRows.lean ====
section
/-!
DEFINITION. Table versions and the hot-row directory (R174 to R179, R190 to R196): homes of rows, entries with their replicas and row
locks, promotion, demotion and the grace of cleared space, and the locks that updates ask for (R198).
-/
namespace Sys2Proof.Machine

/-! ### Versions (R174 to R179) -/

def currentSerial (s : State) : Option Nat := s.images.current.map (·.serial)

/-- The current version of a table of the current image. -/
def curVersion (s : State) (t : Nat) : Option TableVer :=
  s.tabs.versions.find? (fun v => v.table == t && v.current && some v.image == currentSerial s)

def versionAt (s : State) (table version : Nat) : Option TableVer :=
  s.tabs.versions.find? (fun v => v.table == table && v.version == version)

def rowHome (v : TableVer) (n : Nat) : Nat := rowAddr v.base v.stride n

/-- T2 bytes of a table: whole tiles (R177). -/
def tableBytes (rows width code : Nat) : Nat :=
  let st := rowStride width code
  tileBytes * (if st ≤ tileBytes then ceilDiv rows (tileBytes / st) else rows * tilesPerRow st)

/-- The version number that comes next: 1 more than the last that the table has had (R179). -/
def nextVersion (s : State) (t : Nat) : Nat := AMap.get 0 s.tabs.numbers t + 1

/-- The table has had a version of this number. -/
def countVersion (s : State) (t n : Nat) : State :=
  { s with tabs := { s.tabs with numbers := AMap.put 0 s.tabs.numbers t (max n (AMap.get 0 s.tabs.numbers t)) } }

/-! ### The directory (R190, R191, R195) -/

def hotAt (s : State) (home : Nat) : Option HotRow := AMap.get none s.tabs.hot home
def putHot (s : State) (home : Nat) (e : Option HotRow) : State :=
  { s with tabs := { s.tabs with hot := AMap.put none s.tabs.hot home e } }

def rowSpace (stride : Nat) : Nat := roundUp stride 64
def areaSize : Nat := 2 ^ 27

def hotList (s : State) : List (Nat × HotRow) := s.tabs.hot.filterMap (fun p => p.2.map (fun e => (p.1, e)))

/-- The lowest free offset of the replica areas for a row. -/
def freeOffset (s : State) (n : Nat) : Option Nat :=
  let used := (hotList s).map (fun p => (p.2.offset, rowSpace p.2.stride))
  let fits := fun o => decide (o + n ≤ areaSize) && used.all (fun u => decide (o + n ≤ u.1) || decide (u.1 + u.2 ≤ o))
  let cands := (0 :: used.map (fun u => u.1 + u.2)).filter fits
  match cands with | [] => none | x :: r => some (r.foldl min x)

def dirFull (s : State) (stride : Nat) : Bool := decide (65536 ≤ s.tabs.hot.length) || (freeOffset s (rowSpace stride)).isNone

/-- A T2 channel that is retired and not rebuilt: what has no parity is lost on it (R241, R242). -/
def channelGone (s : State) (c : Nat) : Bool :=
  match AMap.get (.live []) s.media.channels c with | .retired => true | .rebuilding => true | _ => false

/-- The replica of a row in a stack lies on channels that can be written and read. -/
def replicaUsable (s : State) (e : HotRow) (k : Nat) : Bool :=
  (slotsOf (replicaBase k + e.offset) (rowSpace e.stride)).all (fun t => !channelGone s (t2Channel t))

def isCopyLock : LockUser → Bool
  | .copy _ => true
  | .update => false

/-- The head of the lock queue takes the lock: a copy becomes COPYING (R195). -/
def grantLock (e : HotRow) : HotRow :=
  match e.lock with
  | .copy k :: _ => { e with repl := e.repl.set k .copying }
  | _ => e

/-- The next stack in ascending order asks for the lock. -/
def nextCopy (s : State) (e : HotRow) : HotRow :=
  if e.leaving || e.lock.any isCopyLock then e
  else match (List.range 12).find? (fun k => e.repl[k]? == some .absent && replicaUsable s e k) with
    | some k => grantLock { e with lock := e.lock ++ [.copy k] }
    | none => e

/-- An update that has asked for its locks writes this row (R198). -/
def updateWaits (s : State) (home : Nat) : Bool :=
  s.tabs.applying.any (fun a => a.asked && (match versionAt s a.table a.version with
    | some v => a.rows.any (fun r => rowHome v r.index == home)
    | none => false))

/-- Promote a row: twelve replicas ABSENT, and the copy into stack 0 takes the lock, ahead of an update that asked before. -/
def promote (s : State) (home stride share : Nat) (pinned : Bool) : State :=
  if (hotAt s home).isSome || dirFull s stride then s
  else match freeOffset s (rowSpace stride) with
    | some o =>
      let e := nextCopy s ⟨stride, o, pinned, s.sched.admits, [], share, 0, List.replicate 12 .absent, [], false, []⟩
      putHot s home (some (if updateWaits s home then { e with lock := e.lock ++ [.update] } else e))
    | none => s

/-- GPOOLs that have begun, by core, unit and instruction. -/
def gathersNow (s : State) : List (Nat × Nat × Nat) :=
  s.chip.cores.flatMap (fun p => match p.2.run with
    | none => []
    | some r => p.2.flights.filterMap (fun f => match f.work with
      | .gather _ _ _ _ _ => if f.started then some (p.1, r.desc.unitId, f.id) else none
      | _ => none))

/-- GPOOLs running on a version. -/
def gatherOn (s : State) (table version : Nat) : Bool :=
  s.chip.cores.any (fun p => p.2.flights.any (fun f => match f.work with
    | .gather _ t v _ _ => f.started && t == table && v == version
    | _ => false))

/-- VALID states are cleared and the grace of R196 begins; a copy under way goes on to its end (R195). -/
def clearValid (s : State) (e : HotRow) : HotRow :=
  { e with
    repl := e.repl.map (fun r => if r = .valid then .cleared else r)
    grace := (e.grace ++ gathersNow s).eraseDups }

/-- Demote a row: it leaves the directory once its copy has ended and the grace is over. -/
def demote (s : State) (home : Nat) : State :=
  match hotAt s home with
  | none => s
  | some e => putHot s home (some { clearValid s e with
      leaving := true, pinned := false, keep := []
      lock := e.lock.filter (fun u => match u with | .copy k => e.repl[k]? == some .copying | .update => true) })

/-- Near caches drop their lines for a range of device addresses (R196). -/
def dropRange (s : State) (a n : Nat) : State :=
  { s with chip := { s.chip with cores := s.chip.cores.map (fun p =>
      (p.1, { p.2 with near := p.2.near.filter (fun l => decide (64 * l.1 + 64 ≤ a) || decide (a + n ≤ 64 * l.1)) })) } }

def dropReplicas (s : State) (e : HotRow) : State :=
  (List.range 12).foldl (fun s k => dropRange s (replicaBase k + e.offset) (rowSpace e.stride)) s

/-- The grace of R196 is over: every GPOOL that began before the clearing has completed, and nobody holds or awaits the lock. -/
def graceOver (s : State) (e : HotRow) : Bool := e.lock.isEmpty && e.grace.all (fun g => !(gathersNow s).contains g)

/-- Entries of demoted rows whose grace is over go, and their space is free. -/
def purgeCleared (s : State) : State :=
  (hotList s).foldl (fun s p => if p.2.leaving && graceOver s p.2 then putHot (dropReplicas s p.2) p.1 none else s) s

/-- Tiles of a freed claim become EMPTY (R202, R214, R220). -/
def freeRange (s : State) (a n : Nat) : State :=
  let s := dropRange s a n
  { s with media := { s.media with tiles := s.media.tiles.filter (fun p => decide (tileBytes * p.1 + tileBytes ≤ a) || decide (a + n ≤ tileBytes * p.1)) } }

/-- A lost replica becomes ABSENT, and lookups read the home copy (R241). -/
def loseReplica (s : State) (home k : Nat) : State :=
  match hotAt s home with
  | none => s
  | some e =>
    let e1 := if e.repl[k]? == some .valid || e.repl[k]? == some .copying then { e with repl := e.repl.set k .absent } else e
    putHot s home (some (nextCopy s (grantLock { e1 with lock := e1.lock.filter (· != .copy k) })))

/-- The replicas on a channel that is retired (R241, R242). -/
def loseChannel (s : State) (c : Nat) : State :=
  (hotList s).foldl (fun s p => if replicaUsable s p.2 (c / 32) then s else loseReplica s p.1 (c / 32)) s

/-! ### Pins (R192, R193) -/

/-- Rows of a version that are pinned: all of a feature table with at most 256 rows, and the pins below the row count. -/
def pinnedRows (s : State) (v : TableVer) : List Nat :=
  if v.table != 0 && decide (v.rows ≤ 256) then List.range v.rows
  else (s.tabs.pins.filter (fun p => p.1 == v.table && decide (p.2 < v.rows))).map (·.2)

/-- Home addresses and strides of the pinned rows of all current versions. -/
def pinnedHomes (s : State) : List (Nat × Nat) :=
  (s.tabs.versions.filter (·.current)).flatMap (fun v => (pinnedRows s v).map (fun n => (rowHome v n, v.stride)))

/-- A row whose replicas must stay: pinned, or unpinned since with requests in progress that were admitted while it was pinned (R193). -/
def kept (e : HotRow) : Bool := e.pinned || !e.keep.isEmpty

/-- Retrievals and generations in progress that were admitted at or after a place in the order of admission. -/
def admittedSince (s : State) (n : Nat) : List ReqId :=
  (s.reqs.filter (fun q => decide (n ≤ q.entered) && (match q.job with | .serve _ => true | _ => false))).map (·.id)

/-- An entry with its pin set or taken. -/
def repin (s : State) (e : HotRow) (pin : Bool) : HotRow :=
  if pin && !e.pinned then { e with pinned := true, since := s.sched.admits, keep := [] }
  else if !pin && e.pinned then { e with pinned := false, keep := admittedSince s e.since }
  else { e with keep := e.keep.filter (fun r => s.reqs.any (fun q => q.id == r)) }

/-- The entry with the lowest share that a candidate may replace, the lower address on a tie. -/
def coldest (s : State) : Option (Nat × HotRow) :=
  match (hotList s).filter (fun p => !kept p.2 && !p.2.leaving) with
  | [] => none
  | x :: r => some (r.foldl (fun a b => if b.2.share < a.2.share then b else a) x)

/-- Candidates that wait for space freed by a colder row's demotion are promoted as it becomes free (R192 item 4). -/
def promoteWaiting (s : State) : State :=
  s.tabs.waits.foldl (fun s w =>
    if dirFull s w.2.1 then s
    else promote { s with tabs := { s.tabs with waits := s.tabs.waits.filter (· != w) } } w.1 w.2.1 w.2.2 false) s

/-- Space whose grace is over is reused. -/
def reclaim (s : State) : State := promoteWaiting (purgeCleared s)

/-- Room for a row: the coldest row that may go is demoted when the directory or the area is full. -/
def makeRoom (s : State) (stride : Nat) : State :=
  if dirFull s stride then (match coldest s with | some c => purgeCleared (demote s c.1) | none => s) else s

/-- Pinned rows are promoted, and entries take the mark or lose it (R192, R193). -/
def ensurePins (s : State) : State :=
  let homes := pinnedHomes s
  let s := (hotList s).foldl (fun s p =>
    if p.2.leaving then s else putHot s p.1 (some (repin s p.2 (homes.any (fun h => h.1 == p.1))))) s
  homes.foldl (fun s h => if (hotAt s h.1).isSome then s else promote (makeRoom s h.2) h.1 h.2 0 true) s

/-- R192: a pinned row counts for admission once its twelve replicas are VALID. -/
def pinCounts (s : State) (home : Nat) : Bool :=
  match hotAt s home with | some e => e.pinned && !e.leaving && e.repl.all (· == .valid) | none => false

/-- Every row of a version is pinned and counts for admission. -/
def tablePinned (s : State) (v : TableVer) : Bool := (List.range v.rows).all (fun n => pinCounts s (rowHome v n))

/-! ### Locks of updates (R195, R198) -/

/-- An update asks for the locks of its rows. -/
def lockRows (s : State) (v : TableVer) (rows : List RowRecord) : State :=
  rows.foldl (fun s r => match hotAt s (rowHome v r.index) with
    | some e => if e.lock.contains .update then s else putHot s (rowHome v r.index) (some { e with lock := e.lock ++ [.update] })
    | none => s) s

/-- The update releases the lock of a row. -/
def unlockRow (s : State) (v : TableVer) (r : RowRecord) : State :=
  match hotAt s (rowHome v r.index) with
  | some e => putHot s (rowHome v r.index) (some (nextCopy s (grantLock { e with lock := e.lock.filter (fun u => u != .update) })))
  | none => s

/-- R198: once the GPOOLs that started before the boundary have run to completion, the updates ask for their row locks. -/
def askLocks (s : State) : State :=
  s.tabs.applying.foldl (fun s a =>
    if a.asked || gatherOn s a.table a.version then s
    else
      let s := { s with tabs := { s.tabs with applying := s.tabs.applying.map (fun b => if b.req == a.req then { b with asked := true } else b) } }
      match versionAt s a.table a.version with | some v => lockRows s v a.rows | none => s) s

end Sys2Proof.Machine
end

