-- ==== Sys2Proof/Config.lean ====
section
/-!
DEFINITION. What the spec leaves open: the free values. Each is a constant without a body, so nothing about its value can be
proved. `State.freeCount` is the argument that makes each draw fresh (notes/assumptions/3.md).
-/
namespace Sys2Proof.Config

/-- A 32-byte device nonce of the vault's random number generator (R373, R374). -/
opaque freeNonce : Nat → BitVec 256

/-- A seed that Wenik draws when the host gives none (R327). -/
opaque freeSeed : Nat → BitVec 64

/-- A 96-bit GCM nonce that the vault gives to XENC (R369). -/
opaque freeGcmNonce : Nat → BitVec 96

/-- Key bytes that the vault draws (R362: passage keys, index at-rest keys, the T2 ephemeral key). -/
opaque freeKey : Nat → BitVec 256

/-- Whether a rebuild has not yet restored a tile when a second channel of its stack is lost (R242 item 6). -/
opaque freeUnrestored : Nat → Nat → Bool

/-- The outcome of a channel's retraining and self-test at a block reset (R491). -/
opaque freeSelfTest : Nat → Bool

/-- Where Fusin places a weight plane in a section (R54): matrix, group along K, block of columns; its element bytes and its side record. -/
opaque weightPlane : List Byte → Nat → Nat → Nat → List Byte × List Byte

/-- An FP32 vector that a section holds, by number: norm gains, the bias b (R50, R54). -/
opaque sectionVector : List Byte → Nat → List W32

/-- Whether a POOL_HEAD section carries a projection matrix (R49). -/
opaque poolMatrix : List Byte → Bool

/-- The plan table's activation format, pack scale and result scale of a matrix, by layer and number (R50, R154). -/
opaque actFormat : List Byte → Nat → Nat → Nat
opaque actScale : List Byte → Nat → Nat → W32
opaque outScale : List Byte → Nat → Nat → W32

/-- The attention formula that the plan table fixes for a layer (R322): query, then the keys and values of positions 0 to i. -/
opaque attention : List Byte → Nat → List W32 → List (List W32) → List (List W32) → List W32

/-- The rotary frequencies of a base and a head dimension, and whether pairs are adjacent (R153). -/
opaque ropeFreqs : W32 → Nat → List W32
opaque ropeWide : List Byte → Bool

/-- A section of the slice that another member holds (R65): image ID, slice, type, locator. -/
opaque peerSection : W128 → Nat → Nat → Nat → List Byte

/-- Where the module places a list's segments and its envelope (R249, R250), by index handle, the version that wrote them, and list. -/
opaque segmentBase : Nat → Nat → Nat → Nat
opaque envelopeAt : Nat → Nat → Nat → Nat

/-- The first tombstone block of a list (R250, R290), by index handle, version, list and tombstone bits: a changed list has fresh blocks. -/
opaque tombBlock : Nat → Nat → Nat → List Bool → Nat

/-- The creation time of an index version, in seconds of UTC (R189). -/
opaque versionTime : Nat → Int

/-- The tweak of a T3 page, by its tile index (R300). -/
opaque t3Tweak : Nat → BitVec 128

/-- The ECDSA P-384 signature of a handshake transcript digest (R373), r and s together. -/
opaque freeSignature : Nat → BitVec 768

/-- The salt derived from a principal and the device root key (R375); role, then principal. -/
opaque unboundSalt : Nat → Nat → BitVec 256

/-- The key agreed between two Grove ports at a training (R449). -/
opaque freeLinkKey : Nat → BitVec 256

/-- A byte returned by a read that the spec gives no value for (a PW_DRAW measurement not yet made, R418). -/
opaque freeWord : Nat → BitVec 64

/-- The DER certificate chains of the identity key (0) and the agreement key (1) (R365, R412). -/
opaque certificate : Nat → List Byte

/-- The version of Wenik that runs (R412). -/
opaque wenikVersion : BitVec 32

/-- The golden signatures in OTP (R521): of the sites (0), of shared-logic partition p (p + 1). -/
opaque goldenMisr : Nat → BitVec 64

/-- The fresh voltage of an operating point in OTP, in steps of 6.25 mV above 600 mV (R484). -/
opaque freshVolt : Nat → Nat

/-- A crash-dump record: the start that wrote the dump, then the record's number (R507). -/
opaque dumpRecord : Nat → Nat → BitVec 512

end Sys2Proof.Config
end

