-- ==== Sys2Proof/Machine/Trunk.lean ====
section
/-!
DEFINITION. What the image computes from token IDs (R47 to R51, R57, R64, R65, R311, R322): the layers of the trunk, the experts that a
token selects, and the three exits. Products and sums are those of the engines; where Fusin places a weight in a section, the formats and
scales of the plan table and its attention formula are free (log 47).
-/
namespace Sys2Proof.Machine

/-! ### Matrices (R64, R65, R460) -/

/-- Adjacent pairs combined, the lower on the left (R460). -/
def pairUp : List (List W32) → List (List W32)
  | a :: b :: r => List.zipWith fpAdd a b :: pairUp r
  | l => l

/-- The balanced tree over a power of two of vectors (R460). -/
def treeSum : Nat → List (List W32) → List W32
  | 0, l => l.headD []
  | k + 1, l => if l.length ≤ 1 then l.headD [] else treeSum k (pairUp l)

/-- The sections of a type and locator on every member, in slice order: this member's own, and those of its peers (R65). -/
def slicesOf (m : ImageMeta) (t loc : Nat) : List (List Byte) :=
  (List.range (max 1 m.slices)).map (fun i => if i = m.slice then sectionAt m t loc else Config.peerSection m.imageId i t loc)

/-- A matrix of the image: the sections that hold its slices, its number in them, K and columns, which of the two R65 divides among
members (order 2 of R64 when it is K), the weight format and 2:4 flag of its section, and the layer whose plan entries it takes (none for a
head, which is neither scaled nor rescaled). -/
structure Mat where
  secs    : List (List Byte)
  which   : Nat
  k       : Nat
  cols    : Nat
  colCut  : Bool
  kCut    : Bool
  fmt     : Nat
  sparse  : Bool
  layer   : Option Nat
  deriving DecidableEq, Repr

/-- Values of one group along K. -/
def groupLen (sparse : Bool) : Nat := if sparse then 256 else 128

/-- Values as the array receives them from an A-tile in a format (R114, R154, R155). -/
def activationRow (fmt : Nat) (l : List W32) : ARow :=
  if fmt = 0 then
    let q := (chunksOf 32 l).map quantBlock
    ⟨0, q.flatMap (fun b => b.2.map (elemValue 0)), q.map (·.1)⟩
  else if fmt = 1 then ⟨1, l.map (fun x => elemValue 1 (intBits 4 (fpToInt 4 x))), []⟩
  else ⟨fmt, l.map (fun x => elemValue fmt (codeOfFp fmt x)), []⟩

/-- Slice and local number of item `n` of `total` items divided among `slices` members. -/
def sliceOfItem (slices total n : Nat) : Nat × Nat :=
  let per := max 1 (total / max 1 slices)
  (n / per, n % per)

def groupsOf (M : Mat) : Nat := ceilDiv M.k (groupLen M.sparse)

/-- The plane that holds group `g` of column `n`, and the column's place in it (R112, R113). -/
def planeOf (M : Mat) (g n : Nat) : Plane × Nat :=
  let N := M.secs.length
  let c := if M.colCut then sliceOfItem N M.cols n else (0, n)
  let r := if M.kCut then sliceOfItem N (groupsOf M) g else (0, g)
  let (elems, side) := Config.weightPlane (M.secs.getD (max c.1 r.1) []) M.which r.2 (c.2 / outColumns M.fmt)
  (⟨.loaded, M.fmt, M.sparse, cellsOf 0 elems, cellsOf 0 side⟩, c.2 % outColumns M.fmt)

/-- Groups folded in ascending order from +0, as one chain (R118). -/
def chain (M : Mat) (rows : List ARow) (groups : List Nat) (n : Nat) : W32 :=
  let w := groups.foldl (fun acc g => let p := planeOf M g n; columnResult p.1 (rows.getD g ⟨0, [], []⟩) p.2 acc) 0#32
  if intPath M.fmt then fpOfInt w.toInt else w

/-- R460: the groups of leaf `i` of 16. -/
def leafGroups (g i : Nat) : List Nat := (List.range g).filter (fun x => decide (i * g / 16 ≤ x) && decide (x < (i + 1) * g / 16))

/-- One column under the order that K chooses (R64). -/
def matColumn (M : Mat) (rows : List ARow) (n : Nat) : W32 :=
  if M.kCut then (treeSum 5 ((List.range 16).map (fun i => [chain M rows (leafGroups (groupsOf M) i) n]))).headD 0#32
  else chain M rows (List.range (groupsOf M)) n

/-- The product of a matrix and a vector: the vector is packed group by group (R154), each column is one chain or one tree. -/
def matVec (plan : List Byte) (M : Mat) (x : List W32) : List W32 :=
  let a := M.layer.getD 0xFFFF
  let scale := if M.layer.isSome then Config.actScale plan a M.which else fp32One
  let out := Config.outScale plan a M.which
  let padded := x ++ List.replicate (groupsOf M * groupLen M.sparse - x.length) 0#32
  let rows := (chunksOf (groupLen M.sparse) (padded.map (fun v => fpMul v scale))).map (activationRow (Config.actFormat plan a M.which))
  (List.range M.cols).map (fun n => if M.layer.isSome then fpMul (matColumn M rows n) out else matColumn M rows n)

/-! ### Parts of an image -/

def planBytes (m : ImageMeta) : List Byte := sectionAt m 12 0

/-- Format and 2:4 flag of a section. -/
def sectionForm (m : ImageMeta) (t loc : Nat) : Nat × Bool :=
  match m.sections.find? (fun x => x.type == t && x.locator.toNat == loc) with
  | some x => (x.format, bitOf x.flags 0)
  | none => (0, false)

/-- A matrix of a layer or an expert; `colCut` and `kCut` as R65 divides it. -/
def matAt (m : ImageMeta) (t loc which k cols : Nat) (colCut kCut : Bool) (layer : Option Nat) : Mat :=
  ⟨slicesOf m t loc, which, k, cols, colCut, kCut, (sectionForm m t loc).1, (sectionForm m t loc).2, layer⟩

/-- A row of a table as a section holds it (R176, R177), dequantized with weight 1. -/
def tableRowOf (sec : List Byte) (width code n : Nat) : List W32 :=
  let stride := rowStride width code
  poolBag code width [((sec.drop (rowAddr 0 stride n)).take stride, fp32One)]

/-- The row of a token in table 0: every member's columns in slice order (R65, R178). -/
def embedRow (m : ImageMeta) (t : Nat) : List W32 :=
  match m.tables.find? (fun x => x.table == 0) with
  | some x => (slicesOf m 4 0).flatMap (fun sec => tableRowOf sec x.width x.code t)
  | none => []

/-! ### One layer (R57, R310, R311, R322) -/

/-- 2^k. -/
def powTwo (k : Int) : W32 := fp32Round false 1 k false

/-- R311: a key or value as a reader finds it. -/
def storedKv (kappa : Int) (x : W32) : W32 := fpMul (fpOfCode 3 (codeOfFp 3 (fpMul x (powTwo (-kappa))))) (powTwo kappa)

/-- The activation of the feed-forward blocks (R55): SwiGLU, GeGLU, or GELU of the up matrix alone. -/
def activate (act : Nat) (gate up : List W32) : List W32 :=
  if act = 0 then List.zipWith (fun g u => vElem 0x0C g u 0#32 0#32) gate up
  else if act = 1 then List.zipWith (fun g u => vElem 0x0E g u 0#32 0#32) gate up
  else up.map (fun u => vElem 0x0D u 0#32 0#32 0#32)

/-- A feed-forward block: gate, up and down matrices `w`, `w + 1`, `w + 2` of a section. -/
def feedForward (m : ImageMeta) (t loc w inner layer : Nat) (x : List W32) : List W32 :=
  let p := planBytes m
  let gate := matVec p (matAt m t loc w m.params.hidden inner true false (some layer)) x
  let up := matVec p (matAt m t loc (w + 1) m.params.hidden inner true false (some layer)) x
  matVec p (matAt m t loc (w + 2) inner m.params.hidden false true (some layer)) (activate m.params.act gate up)

/-- R57: router logits of a token, one per routed expert. -/
def routerLogits (m : ImageMeta) (layer : Nat) (x : List W32) : List W32 :=
  matVec (planBytes m) (matAt m 2 layer 7 m.params.hidden m.params.routed false false (some layer)) x

/-- R57: the experts selected, in ascending index, with their gates. -/
def selectExperts (a : Nat) (logits : List W32) : List (Nat × W32) :=
  let valid := (rowOf logits).filter (fun e => !e.val.isNan)
  let chosen := ((rankList valid).take a)
  let row := valid.filter (fun e => chosen.any (fun c => c.pos == e.pos))
  row.map (fun e => (e.pos, fpDiv (sTerm sampleOp (sMax valid) e) (sSum sampleOp (sMax valid) row)))

/-- R57: the sum of the gated experts, shared ones first. -/
def mixture (m : ImageMeta) (layer : Nat) (x : List W32) : List W32 :=
  let shared := (List.range m.params.shared).map (fun j => feedForward m 2 layer (8 + 3 * j) m.params.expertFfn layer x)
  let routed := (selectExperts m.params.active (routerLogits m layer x)).map (fun e =>
    (feedForward m 3 (expertLocator layer e.1) 0 m.params.expertFfn layer x).map (fun v => fpMul e.2 v))
  (shared ++ routed).foldl (fun acc y => List.zipWith fpAdd acc y) (List.replicate m.params.hidden 0#32)

/-- The attention part of a layer over every position, the residual stream added (R311, R322). -/
def attend (m : ImageMeta) (layer : Nat) (h : List (List W32)) : List (List W32) :=
  let p := m.params
  let plan := planBytes m
  let sec := sectionAt m 2 layer
  let x := h.map (fun v => rmsNorm v (Config.sectionVector sec 0) p.eps)
  let heads := fun (which n : Nat) => x.map (fun v => chunksOf p.headDim (matVec plan (matAt m 2 layer which p.hidden (n * p.headDim) true false (some layer)) v))
  let turn := fun (l : List (List (List W32))) => l.zipIdx.map (fun e =>
    e.1.map (fun v => rope v (Config.ropeFreqs p.rotary p.headDim) (fpOfNat e.2) (Config.ropeWide plan)))
  let kap := m.kappa.getD layer (0, 0)
  let keep := fun (k : Int) (l : List (List (List W32))) => l.map (fun e => e.map (fun v => v.map (storedKv k)))
  let q := turn (heads 0 p.heads)
  let ks := keep kap.1 (turn (heads 1 p.kvHeads))
  let vs := keep kap.2 (heads 2 p.kvHeads)
  let group := max 1 (p.heads / max 1 p.kvHeads)
  let out := q.zipIdx.map (fun e => e.1.zipIdx.flatMap (fun v =>
    Config.attention plan layer v.1 ((ks.take (e.2 + 1)).map (fun k => k.getD (v.2 / group) []))
      ((vs.take (e.2 + 1)).map (fun k => k.getD (v.2 / group) []))))
  List.zipWith (fun a b => List.zipWith fpAdd a (matVec plan (matAt m 2 layer 3 p.hidden p.hidden false true (some layer)) b)) h out

/-- The input of a layer's feed-forward block. -/
def blockInput (m : ImageMeta) (layer : Nat) (v : List W32) : List W32 :=
  rmsNorm v (Config.sectionVector (sectionAt m 2 layer) 1) m.params.eps

/-- A layer over every position. -/
def layerStep (m : ImageMeta) (h : List (List W32)) (layer : Nat) : List (List W32) :=
  (attend m layer h).map (fun v =>
    let x := blockInput m layer v
    List.zipWith fpAdd v (if (moeLayers m.params).contains layer then mixture m layer x else feedForward m 2 layer 4 m.params.ffn layer x))

/-! ### The trunk and its exits (R47 to R51) -/

/-- R47, R48: the hidden states of a text at a depth, after the layers below it and no other. -/
def trunk (m : ImageMeta) (toks : List Nat) (depth : Nat) : List (List W32) := (List.range depth).foldl (layerStep m) (toks.map (embedRow m))

/-- R57: the experts that each token of a text selects in a layer. -/
def expertsAt (m : ImageMeta) (toks : List Nat) (layer : Nat) : List (List Nat) :=
  (attend m layer (trunk m toks layer)).map (fun v =>
    (selectExperts m.params.active (routerLogits m layer (blockInput m layer v))).map (·.1))

/-- R49 item 1. -/
def pool (mode : Nat) (h : List (List W32)) : List W32 :=
  if mode = 1 then h.getLast?.getD []
  else match h with
    | [] => []
    | a :: r => (r.foldl (fun acc v => List.zipWith fpAdd acc v) a).map (fun v => fpMul v (fpDiv fp32One (fpOfNat h.length)))

/-- R49 item 2: does the image carry a projection matrix? -/
def projected (m : ImageMeta) : Bool := m.params.dim != m.params.hidden || Config.poolMatrix (sectionAt m 5 0)

/-- R49: the embedding of a text. -/
def embedVector (m : ImageMeta) (toks : List Nat) : List W32 :=
  let p := pool m.params.pooling (trunk m toks m.params.e)
  let v := if projected m then matVec (planBytes m) (matAt m 5 0 0 m.params.hidden m.params.dim false true none) p else p
  if m.params.norm = 1 then normTwo v else v

/-- R50: the score of a pair whose passage has the feature vector `f`. -/
def rerankScore (m : ImageMeta) (pair : List Nat) (f : List W32) : W32 :=
  let dot := fun (which : Nat) (x : List W32) => (matVec (planBytes m) (matAt m 6 0 which x.length 1 false true none) x).headD 0#32
  let h := (trunk m pair m.params.r).getLast?.getD []
  fpAdd (fpAdd (dot 0 h) (dot 1 f)) ((Config.sectionVector (sectionAt m 6 0) 0).headD 0#32)

/-- R51, R322: the logits of a text's last position: one per vocabulary entry. Members hold ranges of V rounded up to 128 × N (R65). -/
def logitsOf (m : ImageMeta) (toks : List Nat) : List W32 :=
  let p := m.params
  let h := (trunk m toks p.layers).getLast?.getD []
  let x := rmsNorm h (Config.sectionVector (sectionAt m 7 0) 0) p.eps
  (matVec (planBytes m) (matAt m 7 0 0 p.hidden (roundUp p.vocab (128 * max 1 m.slices)) true false (some p.layers)) x).take p.vocab

end Sys2Proof.Machine
end

