-- ==== Sys2Proof/Machine/Passage.lean ====
section
/-!
DEFINITION. Passages (R189, R279 to R283): the hashes of a passage's strings, passage records and P-tiles, the passage map, and the
feature vector of a candidate.
-/
namespace Sys2Proof.Machine

/-! ### Hashes (R189, R281) -/

/-- The nonempty components of a path from the leaf upward. -/
def pathParts (path : List Byte) : List (List Byte) := ((path.splitOn 0x2F#8).reverse).filter (fun c => !c.isEmpty)

/-- R189: h of a value under a table's salt and kind. -/
def featureHash (f : FeatureEntry) (value : List Byte) : Nat :=
  leNat ((sha256 (leBytes 16 f.salt.toNat ++ leBytes 1 f.kind ++ value)).take 8)

/-- The string values of a FILE_TYPE or PATH_TOKEN table. -/
def stringValues (f : FeatureEntry) (fileType path : List Byte) : List (List Byte) :=
  if f.kind = 0 then [fileType] else if f.kind = 1 then (pathParts path).take f.bag else []

/-- R281, R283: the hashes stored with a passage, table by table in list order. -/
def storedHashes (l : List FeatureEntry) (fileType path : List Byte) : List Nat :=
  l.flatMap (fun f => (stringValues f fileType path).map (featureHash f))

/-- R189: the row of a hash. -/
def rowOfHash (rows h : Nat) : Nat := h * rows / 2 ^ 64

/-- ⌊log₂(d + 1)⌋ of a passage's whole days at a version's creation, at most 15 (R189). -/
def ageBucket (stamp made : Int) : Nat := min 15 ((((made - stamp) / 86400).toNat + 1).log2)

/-! ### Passage records (R281) -/

/-- A fragment of a passage as its record holds it. -/
structure Fragment where
  pid      : Nat
  next     : Bool
  prev     : Bool
  textLen  : Nat
  tokens   : Nat
  tenant   : Nat
  acl      : Nat
  fileType : List Byte
  stamp    : W64
  listMark : List Byte
  path     : List Byte
  hashes   : List Nat
  text     : List Byte
  deriving DecidableEq, Repr

def padTo (n : Nat) (l : List Byte) : List Byte := l ++ List.replicate (n - l.length) 0#8

/-- The areas behind the header, but the text; a continuation has none (log 48). -/
def areasOf (f : Fragment) : List Byte :=
  if f.prev then [] else padTo 32 f.fileType ++ pad16 f.path ++ pad16 (f.hashes.flatMap (leBytes 8))

/-- R281: the record of a fragment. -/
def fragmentBytes (f : Fragment) : List Byte :=
  let rest := areasOf f ++ pad16 f.text
  leBytes 6 f.pid ++ leBytes 2 ((if f.next then 1 else 0) + (if f.prev then 2 else 0)) ++ leBytes 4 (64 + rest.length) ++ leBytes 4 f.textLen
    ++ leBytes 2 f.tokens ++ leBytes 2 f.tenant ++ leBytes 2 f.acl ++ leBytes 1 f.fileType.length ++ leBytes 1 0 ++ leBytes 8 f.stamp.toNat
    ++ padTo 8 f.listMark ++ leBytes 2 f.path.length ++ leBytes 2 f.hashes.length ++ leBytes 20 0 ++ rest

/-- The fragment of a record, and its bytes; the text of the fragment is what is left of the record. -/
def readFragment (l : List Byte) : Fragment × Nat :=
  let f := fieldAt l
  let prev := bitOf (BitVec.ofNat 16 (f 6 2)) 1
  let ty := f 22 1
  let pl := f 40 2
  let nh := f 42 2
  let at_ := if prev then 64 else 96
  let hashAt := at_ + roundUp pl 16
  let textAt := if prev then 64 else hashAt + roundUp (8 * nh) 16
  (⟨f 0 6, bitOf (BitVec.ofNat 16 (f 6 2)) 0, prev, f 12 4, f 16 2, f 18 2 % 4096, f 20 2, (l.drop 64).take ty, BitVec.ofNat 64 (f 24 8),
    (l.drop 32).take 8, (l.drop at_).take pl, (List.range nh).map (fun i => fieldAt l (hashAt + 8 * i) 8), (l.take (f 8 4)).drop textAt⟩, f 8 4)

/-- The fragments of a payload: a header of zeros, or the end, ends the run. -/
def fragmentsFuel : Nat → List Byte → List Fragment
  | 0, _ => []
  | n + 1, l =>
    if l.length < 64 || zeroAt l 0 64 then []
    else let (f, k) := readFragment l; f :: (if k = 0 then [] else fragmentsFuel n (l.drop k))

def fragmentsOf (payload : List Byte) : List Fragment := fragmentsFuel (payload.length / 64 + 1) payload

/-! ### The passage store (R280, R282) -/

/-- Where a store stands while passages are placed: its tiles, the open one, and the nonces drawn. -/
structure Placing where
  tiles : List PTile
  open_ : Option OpenTile
  draws : Nat
  deriving DecidableEq, Repr

/-- The open tile is written: its payload under its passage key with a fresh nonce (R280); `value` gives the key of a handle. -/
def closeTile (value : Nat → BitVec 256) (p : Placing) : Placing :=
  match p.open_ with
  | none => p
  | some t =>
    let nonce := Config.freeGcmNonce p.draws
    let (c, tag) := gcmSeal (beBytes 32 (value t.key).toNat) (beBytes 12 nonce.toNat) [] t.payload
    { tiles := p.tiles ++ [⟨t.tenant, t.first, t.count, t.key, nonce, c, tag⟩], open_ := none, draws := p.draws + 1 }

/-- A passage placed: its first fragment where it starts, its continuations in the tiles after it. -/
def placeFragments (value : Nat → BitVec 256) (key : Nat) : Nat → Placing → Fragment → Placing
  | 0, p, _ => p
  | n + 1, p, f =>
    let head := 64 + (areasOf f).length
    let used := match p.open_ with | some t => t.payload.length | none => 0
    let other := match p.open_ with | some t => t.tenant != f.tenant | none => false
    if p.open_.isSome && (other || decide (tileBytes < used + head + 16)) then placeFragments value key n (closeTile value p) f
    else
      let room := tileBytes - used - head
      let t := p.open_.getD ⟨f.tenant, key, f.pid, 0, []⟩
      let part := { f with next := decide (room < f.text.length), text := f.text.take room }
      let t := { t with payload := t.payload ++ fragmentBytes part, count := if f.prev then t.count else t.count + 1
                        first := if !f.prev && t.count = 0 then f.pid else t.first }
      let p := { p with open_ := some t }
      if f.text.length ≤ room then p
      else placeFragments value key n (closeTile value p)
        { f with prev := true, next := false, text := f.text.drop room, fileType := [], path := [], hashes := [] }

def placePassage (value : Nat → BitVec 256) (key : Nat) (p : Placing) (f : Fragment) : Placing :=
  placeFragments value key (2 * f.text.length + 4) p f

/-- R281: the areas of a passage leave room for text in a tile (log 48). -/
def recordFits (f : Fragment) : Bool := decide (64 + (areasOf f).length + 16 ≤ tileBytes)

/-- Key handle and value of the payloads' keys. -/
def tilePayload (s : State) (t : PTile) : Option (List Byte) :=
  match AMap.get none s.keys.handles t.key with
  | some k => gcmOpen (beBytes 32 k.key.toNat) (beBytes 12 t.nonce.toNat) [] t.cipher t.tag
  | none => none

/-- R282: the passage map: first ID and count of every P-tile, in store order, with the tile's place. -/
def passageMap (store : List PTile) : List (Nat × Nat × Nat) := store.zipIdx.map (fun t => (t.1.first, t.1.count, t.2))

/-- R282: the place of the last entry whose count is not 0 and whose first ID is at most `pid`. -/
def mapFind (map : List (Nat × Nat × Nat)) (pid : Nat) : Option Nat :=
  ((map.filter (fun e => e.2.1 != 0 && decide (e.1 ≤ pid))).getLast?).map (·.2.2)

/-- The text of a continued passage, tile after tile. -/
def followText (s : State) (pid : Nat) : List PTile → List Byte
  | [] => []
  | t :: r =>
    match (tilePayload s t).bind (fun b => (fragmentsOf b).find? (fun f => f.prev && f.pid == pid)) with
    | some f => f.text ++ (if f.next then followText s pid r else [])
    | none => []

/-- R282: an entry of the passage map: its tile lies at a T2 or T3 address. -/
def mapEntry (t : PTile) (address : Nat) : List Byte := leBytes 6 t.first ++ leBytes 2 t.count ++ leBytes 8 address

/-- The P-tiles that a version's map names: the current version's are those of the store. -/
def tilesOf (i : Index) (v : IdxVer) : List PTile := v.tiles.getD i.store

/-- R282: the record of a passage, with its whole text. -/
def findPassage (s : State) (store : List PTile) (pid : Nat) : Option Fragment :=
  (mapFind (passageMap store) pid).bind (fun n =>
    ((store[n]?).bind (tilePayload s)).bind (fun b =>
      ((fragmentsOf b).find? (fun f => !f.prev && f.pid == pid)).map (fun f =>
        { f with text := (f.text ++ (if f.next then followText s pid (store.drop (n + 1)) else [])).take f.textLen })))

/-! ### Feature vectors (R189, R283) -/

/-- Stored hashes, table by table: one for FILE_TYPE, one per component for PATH_TOKEN. -/
def splitHashes (f : Fragment) : List FeatureEntry → List Nat → List (List Nat)
  | [], _ => []
  | x :: r, l =>
    let n := (stringValues x f.fileType f.path).length
    l.take n :: splitHashes f r (l.drop n)

/-- R283: the hashes of a passage's strings: those stored, when its feature-list stamp is the image's; otherwise those of the strings. -/
def stringHashes (m : ImageMeta) (f : Fragment) : List (List Nat) :=
  if f.listMark = featureStamp m then splitHashes f m.features f.hashes
  else m.features.map (fun x => (stringValues x f.fileType f.path).map (featureHash x))

/-- R189: the entries of a bag: rows of the pinned version and weights; the rest of the bag is padding. -/
def bagOf (x : FeatureEntry) (hashes : List Nat) (rows age cls : Nat) : List (Nat × W32) :=
  let l := if x.kind = 2 then [featureHash x (leBytes 1 age)] else if x.kind = 3 then [featureHash x (leBytes 1 cls)] else hashes
  let w := if x.kind = 1 then fpOfCode 7 (toBf16 (fpDiv fp32One (fpOfNat l.length))) else fp32One
  l.map (fun h => (rowOfHash rows h, w))

/-- A row's bytes at its home in T2 (R177). -/
def homeRow (s : State) (t : TableVer) (n : Nat) : List Byte := devBytes s (rowAddr t.base t.stride n) t.stride

/-- R189: the feature vector f of a passage: each listed table's pooled row, in list order, from the versions pinned. -/
def featureVector (s : State) (m : ImageMeta) (pins : List (Nat × Nat)) (f : Fragment) (made : Int) (cls : Nat) : List W32 :=
  (m.features.zip (stringHashes m f)).flatMap (fun x =>
    match s.tabs.versions.find? (fun t => pins.contains (t.table, t.version) && t.table == x.1.table + 1) with
    | some t => poolBag t.code t.width ((bagOf x.1 x.2 t.rows (ageBucket f.stamp.toInt made) cls).map (fun e => (homeRow s t e.1, e.2)))
    | none => List.replicate x.1.width 0#32)

end Sys2Proof.Machine
end

