-- ==== Sys2Proof/Machine/Search.lean ====
section
/-!
DEFINITION. Vector search: segments (R252, R253), record scores and filters (R258 to R260), collectors (R261), the Q engine (R262 to
R269) and the exact bound (R267). The scan of one segment is shared with the Understory units (R302).
-/
namespace Sys2Proof.Machine

/-! ### Segments (R252) -/

def up16 (n : Nat) : Nat := roundUp n 16

/-- Bytes of a record's codes. -/
def codeBytes (d : ScanDesc) : Nat := if d.code = 0 then d.m else d.m / 2

/-- R252: record size and capacity of a segment. -/
def recordBytes (metric attrs cb : Nat) : Nat := 10 + 4 * attrs + (if metric = 1 then 2 else 0) + cb
def segCapacity (metric attrs cb : Nat) : Nat := min 256 (16240 / recordBytes metric attrs cb)

def colAcl (d : ScanDesc) : Nat := up16 (64 + 8 * d.nMax)
def colAttr (d : ScanDesc) : Nat := up16 (colAcl d + 2 * d.nMax)
def colCos (d : ScanDesc) : Nat := up16 (colAttr d + 4 * d.attrs * d.nMax)
def colCode (d : ScanDesc) : Nat := if d.metric = 1 then up16 (colCos d + 2 * d.nMax) else colCos d

/-- One record as a scan reads it. -/
structure RecView where
  pid    : Nat
  tenant : Nat
  acl    : Nat
  attrs  : List Nat
  cos    : Nat
  codes  : List Nat
  deriving DecidableEq, Repr

def recView (d : ScanDesc) (m : List Host.Cell) (base j : Nat) : RecView :=
  let w := readNat m (base + 64 + 8 * j) 8
  ⟨w % 2 ^ 48, w / 2 ^ 48 % 4096, readNat m (base + colAcl d + 2 * j) 2,
   (List.range d.attrs).map (fun i => readNat m (base + colAttr d + 4 * d.nMax * i + 4 * j) 4),
   if d.metric = 1 then readNat m (base + colCos d + 2 * j) 2 else 0,
   (List.range d.m).map (fun i => if d.code = 0 then (readByte m (base + colCode d + j * d.m + i)).toNat
     else nibble (readByte m (base + colCode d + j * (d.m / 2) + i / 2)) (i % 2 == 1))⟩

def segCount (m : List Host.Cell) (base : Nat) : Nat := readNat m base 2
def segWord (m : List Host.Cell) (base : Nat) : Nat := readNat m (base + 4) 4

/-- The list a list word names: the Thicket by bit 22, else the number (R252). -/
def listOf (w : Nat) : Option Nat := if w / 2 ^ 22 % 2 = 1 then none else some (w % 2 ^ 22)

/-- R253: the checks on a segment's first line and descriptor. -/
def tagOk (d : ScanDesc) (desc : BitVec 512) (word : Nat) (count headWord : Nat) : Bool :=
  dKind desc == 3 && fld desc 128 32 == d.handle && decide (fld desc 160 32 ≤ d.version) && listOf (fld desc 192 32) == listOf word
    && listOf headWord == listOf word && decide (count ≤ d.nMax)

/-! ### Tables, scores, bounds -/

/-- A table set ready to score with: bias, list word, g range, entry of each table, envelope admitted codes. -/
structure SetView where
  bias  : Int
  word  : Nat
  gMin  : Nat
  gMax  : Nat
  tab   : List (List Int)
  env   : Option (List (List Nat))
  deriving DecidableEq, Repr

def setC (d : ScanDesc) : Nat := if d.code = 0 then 256 else 16

/-- R258: the base score. -/
def baseScore (v : SetView) (codes : List Nat) : Int :=
  ((v.tab.zip codes).map (fun p => p.1.getD p.2 0)).foldl (· + ·) v.bias

/-- R258: the cosine score. -/
def cosScore (s : Int) (g : Nat) : Int := clampInt (-(2 ^ 31)) (2 ^ 31 - 1) ((s * g + 2 ^ 14) / 2 ^ 15)

def recordScore (d : ScanDesc) (v : SetView) (r : RecView) : Int :=
  if d.metric = 1 then cosScore (baseScore v r.codes) r.cos else baseScore v r.codes

/-- R267: no record of the list scores above it; none for the Thicket. -/
def setBound (d : ScanDesc) (v : SetView) : Option Int :=
  match v.env with
  | none => none
  | some env =>
    let b := ((v.tab.zip env).map (fun p =>
      (p.2.map (fun j => p.1.getD j 0)).foldl (fun m x => match m with | none => some x | some y => some (max x y)) (none : Option Int))).foldl
        (fun s x => s + x.getD 0) v.bias
    some (if d.metric = 1 then cosScore b (if 0 ≤ b then v.gMax else v.gMin) else b)

/-! ### Filters and collectors -/

/-- R260, tests 2 to 4. -/
def passes (d : ScanDesc) (r : RecView) : Bool :=
  r.tenant == d.tenant
    && d.preds.all (fun p => decide (p.low.toNat ≤ r.attrs.getD p.attr 0) && decide (r.attrs.getD p.attr 0 ≤ p.high.toNat))
    && (match d.acl with | none => true | some b => bitOf (b.getD (r.acl / 8) 0#8) (r.acl % 8))

/-- R261: score descending, passage ID ascending. -/
def heldBefore (a b : Held) : Bool := decide (b.score < a.score) || (a.score == b.score && decide (a.pid < b.pid))

def insertHeld (e : Held) : List Held → List Held
  | [] => [e]
  | x :: r => if heldBefore e x then e :: x :: r else x :: insertHeld e r

/-- An offered record enters when it ranks among the first k. -/
def offer (c : Collector) (e : Held) : Collector := { c with entries := (insertHeld e c.entries).take c.k }

/-- The score of the k-th entry, once k are held (R261). -/
def floorOf (c : Collector) : Option Int :=
  if decide (c.k ≤ c.entries.length) then (c.entries[c.k - 1]?).map (·.score) else none

/-- R267: the collector is full and the bound strictly below the floor. -/
def skips (c : Collector) (b : Option Int) : Bool :=
  match b, floorOf c with
  | some b, some f => decide (b < f)
  | _, _ => false

/-- R265, R275: the tag of an entry: the list, or the Thicket's word whatever stands beside its bit. -/
def tagWord (w : Nat) : Nat := (listOf w).getD 0x7FFFFF

/-- R260: one record tested, scored and offered. -/
def scanRecord (v : SetView) (tombs : List Byte) (c : Collector) (j : Nat) (r : RecView) : Collector :=
  if bitOf (tombs.getD (j / 8) 0#8) (j % 8) then { c with tombstoned := c.tombstoned + 1 }
  else if !passes c.scan r then { c with filtered := c.filtered + 1 }
  else offer { c with scored := c.scored + 1 } ⟨recordScore c.scan v r, r.pid, tagWord v.word⟩

/-- Records `lo` to `hi - 1` of a segment. -/
def scanRecords (v : SetView) (m : List Host.Cell) (base : Nat) (tombs : List Byte) (c : Collector) (lo hi : Nat) : Collector :=
  ((List.range (hi - lo)).map (· + lo)).foldl (fun c j => scanRecord v tombs c j (recView c.scan m base j)) c

/-- A segment whose records have all been tested. -/
def segDone (c : Collector) : Collector := { c with scanned := c.scanned + 1 }

/-- Every record of a segment. -/
def scanSegment (v : SetView) (m : List Host.Cell) (base : Nat) (tombs : List Byte) (c : Collector) : Collector :=
  segDone (scanRecords v m base tombs c 0 (segCount m base))

/-! ### Scan descriptor and filter block (R259, R263) -/

def predAt (m : List Host.Cell) (a : Nat) : Predicate := ⟨readNat m a 1, BitVec.ofNat 32 (readNat m (a + 4) 4), BitVec.ofNat 32 (readNat m (a + 8) 4)⟩

def scanDescAt (m : List Host.Cell) (a f : Nat) : ScanDesc :=
  let np := readNat m (f + 2) 1
  ⟨readNat m a 4, readNat m (a + 4) 4, readNat m (a + 8) 1, readNat m (a + 9) 1, readNat m (a + 10) 1, readNat m (a + 11) 1,
   readNat m (a + 12) 2, readNat m (a + 16) 8, readNat m f 2, (List.range np).map (fun i => predAt m (f + 8 + 12 * i)),
   if readNat m (f + 3) 1 % 2 = 1 then some (readBytes m (f + 64) 8192) else none⟩

/-- R246, R259, R269: values allowed in the two blocks. -/
def scanDescOk (m : List Host.Cell) (a f : Nat) (d : ScanDesc) : Bool :=
  (d.m == 8 || d.m == 16 || d.m == 32 || d.m == 48 || d.m == 64 || d.m == 96) && decide (d.code ≤ 1) && decide (d.metric ≤ 2)
    && (d.attrs == 0 || d.attrs == 1 || d.attrs == 2 || d.attrs == 4) && readNat m (a + 14) 2 == 0 && readNat m (a + 24) 40 == 0
    && decide (d.tenant < 4096) && decide (d.preds.length ≤ 4) && decide (readNat m (f + 3) 1 ≤ 1) && readNat m (f + 4) 4 == 0
    && readNat m (f + 56) 8 == 0 && readNat m (f + 8 + 12 * d.preds.length) (48 - 12 * d.preds.length) == 0
    && (List.range d.preds.length).all (fun i => readNat m (f + 9 + 12 * i) 3 == 0)
    && d.preds.all (fun p => decide (p.attr < d.attrs))

/-! ### The Q instructions -/

/-- The plan error a Q instruction raises at issue, if any. -/
def qCheck (d : UnitDesc) (op : Nat) (o : Ops88) : Option Nat :=
  if op = 1 then
    let p := qOpenOp o
    if !zeroBits o 48 87 then some 0x01
    else if !(rangeOk d p.desc 64 && rangeOk d p.filt 64) then some 0x05 else none
  else if op = 2 then
    let p := qScanOp o
    if !zeroBits o 34 87 then some 0x01 else if !rangeOk d p.probe (16 * p.n) then some 0x05 else none
  else if op = 3 then
    let p := qDrainOp o
    if !zeroBits o 22 87 then some 0x01
    else if !(rangeOk d p.out 64 && decide (p.out + 64 ≤ 192 * tileBytes)) then some 0x05 else none
  else some 0x01

def qReads (op : Nat) (o : Ops88) : List Nat :=
  if op = 1 then (slotsOf (qOpenOp o).desc 64 ++ slotsOf (qOpenOp o).filt 64).eraseDups
  else if op = 2 then slotsOf (qScanOp o).probe (16 * (qScanOp o).n) else []

/-- R257: the table set a header in T0 names; the envelope is read from T2. -/
def setViewAt (s : State) (m : List Host.Cell) (d : ScanDesc) (h : Nat) : SetView :=
  let env := readNat m (h + 8) 8
  let tb := addr16 (readNat m (h + 20) 1) (readNat m (h + 22) 2)
  let c := setC d
  ⟨signedOf 32 (readNat m h 4), readNat m (h + 4) 4, readNat m (h + 16) 2, readNat m (h + 18) 2,
   (List.range d.m).map (fun i => (List.range c).map (fun j => signedOf 16 (readNat m (tb + 2 * c * i + 2 * j) 2))),
   if env = 0 then none else some ((List.range d.m).map (fun i =>
     (List.range c).filter (fun j => bitOf (readByte s.media.bytes (env + i * (c / 8) + j / 8)) (j % 8))))⟩

def headerOk (m : List Host.Cell) (h : Nat) : Bool := readNat m (h + 21) 1 == 0 && readNat m (h + 24) 40 == 0

/-- A probe entry (R264): segment address, tombstone block, header address. -/
def probeAt (m : List Host.Cell) (a : Nat) : QCtx :=
  ⟨readNat m a 8, readNat m (a + 8) 4, addr16 (readNat m (a + 12) 1) (readNat m (a + 14) 2), 0, 0, [], [], 0, 0, none, .free⟩

/-- Context numbers in use on a core by Q contexts (R98). -/
def qNumbers (k : Core) : List Nat :=
  k.flights.flatMap (fun f => match f.work with
    | .scan _ l => (l.filter (fun c => c.state == .ready || c.state == .waiting)).map (·.num)
    | _ => [])

/-- R98: contexts take free context numbers in ascending order while there are any. -/
def launchCtx : List Nat → List QCtx → List QCtx
  | _, [] => []
  | [], l => l
  | n :: ns, c :: r =>
    if c.state = .free then { c with num := n, state := .waiting } :: launchCtx ns r else c :: launchCtx (n :: ns) r

def scansOpen (k : Core) (coll : Nat) : Bool :=
  k.flights.any (fun f => f.started && (match f.work with
    | .scan c l => c == coll && l.any (fun x => x.state != .done)
    | _ => false))

def fillEntry : List Byte := leBytes 4 0x80000000 ++ leBytes 4 0 ++ leBytes 8 (2 ^ 64 - 1)

/-- R265: the summary and entries a drain writes. -/
def drainBytes (c : Collector) : List Byte :=
  leBytes 4 c.entries.length ++ leBytes 4 c.k ++ leBytes 8 c.scored ++ leBytes 4 c.filtered ++ leBytes 4 c.tombstoned
    ++ leBytes 4 c.scanned ++ leBytes 4 c.skipped
    ++ leBytes 4 (match floorOf c with | some f => intBits 32 f | none => 0x80000000) ++ List.replicate 28 0#8
    ++ c.entries.flatMap (fun e => leBytes 4 (intBits 32 e.score) ++ leBytes 4 e.tag ++ leBytes 8 e.pid)
    ++ (List.replicate (c.k - c.entries.length) fillEntry).flatMap id

/-- A Q instruction starts (R263 to R265, R268). -/
def qBegin (k : Core) (u : UnitDesc) (f : Flight) : Begin :=
  let op := f.word.opcode
  let o := f.word.o
  match readGate k f.reads with
  | .fail n => .fail 0x06 n
  | .hold _ => .wait
  | .pass =>
    if op = 1 then
      let p := qOpenOp o
      let d := scanDescAt k.bytes p.desc p.filt
      let aclOk := d.acl.isNone || rangeOk u (p.filt + 64) 8192
      let aclSlots := if d.acl.isSome then slotsOf (p.filt + 64) 8192 else []
      if !aclOk then .fail 0x05 0
      else if !scanDescOk k.bytes p.desc p.filt d then .fail 0x01 0
      else match readGate k aclSlots with
      | .fail n => .fail 0x06 n
      | .hold _ => .wait
      | .pass => .go (setColl k p.coll ⟨true, p.k, [], 0, 0, 0, 0, 0, d⟩) { f with
        started := true, cycles := 24 + (if d.acl.isSome then 64 else 0)
        reads := (f.reads ++ aclSlots).eraseDups, rel := (f.rel ++ aclSlots).eraseDups }
    else if op = 2 then
      let p := qScanOp o
      if !(collOf k p.coll).isOpen then .fail 0x01 0
      else
        let ctx := (List.range p.n).map (fun i => probeAt k.bytes (p.probe + 16 * i))
        let heads := (ctx.flatMap (fun x => slotsOf x.header 64)).eraseDups
        .go k { f with
          started := true
          reads := (f.reads ++ heads).eraseDups
          rel := (f.rel ++ heads).eraseDups
          cycles := 0
          work := .scan p.coll (launchCtx (freeNumbers 4096 (qNumbers k)) ctx) }
    else
      let p := qDrainOp o
      let cl := collOf k p.coll
      let w := slotsOf p.out (64 + 16 * cl.k)
      if !cl.isOpen then .fail 0x01 0
      else if !(rangeOk u p.out (64 + 16 * cl.k) && decide (p.out + 64 + 16 * cl.k ≤ 192 * tileBytes)) then .fail 0x05 0
      else if scansOpen k p.coll then .wait
      else match writeGate k engQ false w with
        | .fail n => .fail 0x06 n
        | .hold _ => .wait
        | .pass => .go (setColl (engineWrite k w [(p.out, drainBytes cl)]) p.coll collClosed) { f with
            started := true, writes := w, cycles := 24 + ceilDiv cl.k 4, work := .drain p.coll }

/-- A started QSCAN launches more contexts as numbers free up (R98). -/
def qResume (k : Core) (f : Flight) : Begin :=
  match f.work with
  | .scan coll l =>
    let l' := launchCtx (freeNumbers 4096 (qNumbers k)) l
    if l' = l then .wait else .go k { f with work := .scan coll l' }
  | _ => .wait

/-- The context in flight of number `n`, with its instruction. -/
def scanFlight (k : Core) (n : Nat) : Option (Flight × QCtx) :=
  k.flights.findSome? (fun f => match f.work with
    | .scan _ l => (l.find? (fun x => x.num == n && x.state == .waiting)).map (fun x => (f, x))
    | _ => none)

/-- The instruction with its context of number `n` changed. -/
def putCtx (f : Flight) (n : Nat) (x : QCtx) : Flight :=
  match f.work with
  | .scan c l => { f with work := .scan c (l.map (fun y => if y.num == n && (y.state == .waiting || y.state == .ready) then x else y)) }
  | _ => f

/-- The table block of a set header in T0 (R257). -/
def tableBlock (m : List Host.Cell) (d : ScanDesc) (h : Nat) : Nat × Nat :=
  (addr16 (readNat m (h + 20) 1) (readNat m (h + 22) 2), 2 * d.m * setC d)

/-- The columns that cover records 0 to n - 1: offset in the segment and bytes (R252, R266). -/
def segColumns (d : ScanDesc) (n : Nat) : List (Nat × Nat) :=
  ([(64, 8 * n), (colAcl d, 2 * n)] ++ (List.range d.attrs).map (fun i => (colAttr d + 4 * d.nMax * i, 4 * n))
    ++ (if d.metric = 1 then [(colCos d, 2 * n)] else []) ++ [(colCode d, codeBytes d * n)]).filter (fun c => c.2 != 0)

/-- The lines of those columns, in ascending address (R266). -/
def columnLines (d : ScanDesc) (n : Nat) : List Nat :=
  ((segColumns d n).flatMap (fun c => (List.range ((c.1 + c.2 + 63) / 64 - c.1 / 64)).map (· + c.1 / 64))).eraseDups

/-- The records whose lines have all arrived once the first `k` of the lines have; the codes are the last column. -/
def recordsIn (d : ScanDesc) (n k : Nat) : Nat :=
  let l := columnLines d n
  if l.length ≤ k then n else match l[k - 1]? with | some x => if k = 0 then 0 else min n ((64 * (x + 1) - colCode d) / codeBytes d) | none => 0

/-- Reads of T2 by a context, as they stand: none refused (R208), all FULL, or not yet. -/
def ctxReach (s : State) (g : Nat) (a n : Nat) : Option Bool :=
  let l := slotsOf a n
  if !l.all (fun t => decide (t < t2Tiles) && reachOk s g t false true) then none
  else some (l.all (fun t => dState (tileDesc s t) == tileFull))

/-- The tombstone block and the envelope that a context's first reads bring: address and bytes. -/
def firstReads (k : Core) (d : ScanDesc) (x : QCtx) : List (Nat × Nat) :=
  let env := readNat k.bytes (x.header + 8) 8
  [(d.tomb + 32 * x.tomb, 32), (env, if env = 0 then 0 else d.m * (setC d / 8))]

/-- The T2 tiles that the reads a context waits for are on. -/
def pendingTiles (k : Core) (f : Flight) (x : QCtx) : List Nat :=
  match f.work with
  | .scan coll _ => if x.phase = 0 then ((firstReads k (collOf k coll).scan x).flatMap (fun r => slotsOf r.1 r.2)).filter (· < t2Tiles)
      else [x.segment / tileBytes]
  | _ => []

/-- What a read of a context brings when it arrives (R266), and where it waits: for slots (R90), for tiles (R214). -/
inductive CtxStep where
  | wait
  | fail (code which : Nat)
  | go (near : List (Nat × Nat)) (ctx : QCtx) (reads : List Nat)
  deriving DecidableEq, Repr

/-- The first reads: the set header and its tables in T0, the tombstone block and the envelope in T2. -/
def firstArrive (s : State) (k : Core) (u : UnitDesc) (d : ScanDesc) (x : QCtx) : CtxStep :=
  let tb := tableBlock k.bytes d x.header
  if !rangeOk u x.header 64 then .fail 0x05 0
  else match readGate k (slotsOf x.header 64) with
  | .fail n => .fail 0x06 n
  | .hold _ => .wait
  | .pass =>
    if !rangeOk u tb.1 tb.2 then .fail 0x05 0
    else match readGate k (slotsOf tb.1 tb.2) with
    | .fail n => .fail 0x06 n
    | .hold _ => .wait
    | .pass =>
      let key := x.segment / tileBytes
      if !headerOk k.bytes x.header then .fail 0x01 0
      else if x.segment % tileBytes != 0 || !decide (key < t2Tiles) || !reachOk s u.glade key false true then .fail 0x0A 0
      else
        let l := firstReads k d x
        if l.any (fun r => (ctxReach s u.glade r.1 r.2).isNone) then .fail 0x0A 0
        else if l.any (fun r => ctxReach s u.glade r.1 r.2 == some false) then .wait
        else .go (l.foldl (fun near r => touchRange s near r.1 r.2) k.near)
          { x with tombs := devBytes s (d.tomb + 32 * x.tomb) 32, state := .ready } (slotsOf tb.1 tb.2)

/-- A line of the segment: the header line, checked under R253, or the next line of its columns. -/
def lineArrive (s : State) (k : Core) (d : ScanDesc) (x : QCtx) : CtxStep :=
  let key := x.segment / tileBytes
  if dState (tileDesc s key) != tileFull then .wait
  else if x.phase = 1 then
    let m := cutCells s.media.bytes x.segment 64
    if !tagOk d (tileDesc s key) (readNat k.bytes (x.header + 4) 4) (segCount m 0) (segWord m 0) then .fail 0x14 0
    else .go (touchRange s k.near x.segment 64) { x with cells := m, state := .ready } []
  else
    match (columnLines d (segCount x.cells 0))[x.lines]? with
    | none => .wait
    | some i => .go (touchRange s k.near (x.segment + 64 * i) 64)
        { x with cells := putCells x.cells (64 * i) 64 (cutCells s.media.bytes (x.segment + 64 * i) 64), lines := x.lines + 1, state := .ready } []

/-- A read arrives for a context of a QSCAN, which becomes READY (R99). -/
def qArrive (s : State) (k : Core) (u : UnitDesc) (f : Flight) (x : QCtx) : Begin :=
  match f.work with
  | .scan coll _ =>
    let d := (collOf k coll).scan
    match if x.phase = 0 then firstArrive s k u d x else lineArrive s k d x with
    | .wait => .wait
    | .fail c w => .fail c w
    | .go near x' more => .go { k with near := near } (putCtx { f with
        reads := (f.reads ++ more).eraseDups, rel := (f.rel ++ more).eraseDups } x.num x')
  | _ => .wait

/-- R266, R267: before a line is read the bound is tested; a context that it ends is DONE and its segment skipped. -/
def nextRead (cl : Collector) (x : QCtx) (phase : Nat) : Collector × QCtx :=
  if skips cl (x.bound.getD none) then ({ cl with skipped := cl.skipped + 1 }, { x with state := .done })
  else (cl, { x with phase := phase, state := .waiting })

/-- R267: a set's bound is computed once per QSCAN, at the first of its contexts that names the set. -/
def boundOf (f : Flight) (d : ScanDesc) (v : SetView) (x : QCtx) : QCtx :=
  let known := match f.work with
    | .scan _ l => l.findSome? (fun (y : QCtx) => if y.header = x.header then y.bound else none)
    | _ => none
  { x with bound := some (known.getD (setBound d v)) }

/-- A READY context runs on what its last read brought (R266): it tests, scores and offers the records whose lines have arrived, and reads
its next line, or is DONE. -/
def ctxServe (s : State) (k : Core) (f : Flight) (cl : Collector) (x : QCtx) : Collector × QCtx :=
  let d := cl.scan
  let v := setViewAt s k.bytes d x.header
  let n := segCount x.cells 0
  if x.phase = 0 then nextRead cl (boundOf f d v x) 1
  else
    let hi := if x.phase = 1 then recordsIn d n 0 else recordsIn d n x.lines
    let cl := scanRecords v x.cells 0 x.tombs cl x.tested hi
    let x := { x with tested := hi }
    if (columnLines d n).length ≤ x.lines then (segDone cl, { x with state := .done }) else nextRead cl x 2

/-- R268: cycles of a context's step: its set's bound when it is computed, a segment skipped, a segment scanned. -/
def ctxCycles (f : Flight) (d : ScanDesc) (x y : QCtx) : Nat :=
  let first := match f.work with
    | .scan _ l => x.bound.isNone && y.bound.isSome && !l.any (fun z => z.header == x.header && z.bound.isSome)
    | _ => false
  let n := segCount y.cells 0
  (if first then 8 + ceilDiv (d.m * setC d) 64 else 0)
    + (if y.state != .done then 0
      else if y.phase = 0 || y.tested < n then 4
      else 8 + max (ceilDiv n 8) (ceilDiv (n * d.m) (if d.code = 0 then 32 else 64)))

/-- The table sets that running contexts of PQ4 collectors hold in the engine's table registers (R266). -/
def setsHeld (k : Core) : List Nat :=
  (k.flights.flatMap (fun f => match f.work with
    | .scan coll l => if (collOf k coll).scan.code = 1 then (l.filter (fun x => decide (1 ≤ x.phase) && (x.state == .ready || x.state == .waiting))).map (·.header)
        else []
    | _ => [])).eraseDups

/-- R266: a PQ4 context waits in READY while the 16 table registers hold sets of other running contexts. -/
def setWaits (k : Core) (coll : Nat) (x : QCtx) : Bool :=
  (collOf k coll).scan.code == 1 && x.phase == 0 && !(setsHeld k).contains x.header && decide (16 ≤ (setsHeld k).length)

/-- READY contexts that may run, in the order in which they are served (R99). -/
def qReady (k : Core) : List (Nat × Flight × Nat × QCtx) :=
  servedOrder 4096 k.qLast (k.flights.flatMap (fun f => match f.work with
    | .scan coll l => (l.filter (fun x => x.state == .ready && !setWaits k coll x)).map (fun x => (x.num, f, coll, x))
    | _ => []))

/-- Serve one READY context. -/
def qServe (s : State) (k : Core) : Option (Core × Flight) :=
  match qReady k with
  | [] => none
  | (n, f, coll, x) :: _ =>
    let p := ctxServe s k f (collOf k coll) x
    some (setColl { k with qLast := n } coll p.1, putCtx { f with cycles := f.cycles + ctxCycles f (collOf k coll).scan x p.2 } n p.2)

end Sys2Proof.Machine
end

