-- ==== Sys2Proof/Machine/Retrieve.lean ====
section
/-!
DEFINITION. What a search finds (R248 to R260, R267, R270 to R276): the coarse stage over the W-tiles of an index, the table sets, and the
entries of a stage. The entries are a function of the version state, the query vector and the request (R276), whatever the residency, the
units and the skips.
-/
namespace Sys2Proof.Machine

/-! ### Regions and lists (R248) -/

/-- R248: region `g` holds lists g × Λ to g × Λ + Λ − 1. -/
def regionLists (b : LoadIndexBody) (g : Nat) : List Nat := (List.range b.lam).map (fun l => g * b.lam + l)

/-! ### The coarse stage (R254, R255) -/

/-- Groups of 128 along D: zero rows pad it (R249). -/
def coarseGroups (b : LoadIndexBody) : Nat := ceilDiv b.dim 128

/-- W-tiles of a matrix of `n` centroids. -/
def coarseTiles (b : LoadIndexBody) (n : Nat) : Nat := ceilDiv n (outColumns b.coarse.toNat) * coarseGroups b

def coarsePlane (b : LoadIndexBody) (t : WTile) : Plane := ⟨.loaded, b.coarse.toNat, false, cellsOf 0 t.elems, cellsOf 0 t.side⟩

/-- R254: qa, the query packed in E4M3 under the scale π. -/
def packedQuery (b : LoadIndexBody) (q : List W32) : List ARow :=
  (chunksOf 128 ((q ++ List.replicate (128 * coarseGroups b - q.length) 0#32).map (fun v => fpMul v b.pi))).map (activationRow 3)

/-- The array's FP32 sum for centroid `n` (R115, R118). -/
def coarseIp (b : LoadIndexBody) (tiles : List WTile) (qa : List ARow) (n : Nat) : W32 :=
  let cols := outColumns b.coarse.toNat
  (List.range (coarseGroups b)).foldl (fun acc g =>
    columnResult (coarsePlane b (tiles.getD (n / cols * coarseGroups b + g) ⟨[], []⟩)) (qa.getD g ⟨0, [], []⟩) (n % cols) acc) 0#32

/-- R254: the coarse score of a centroid with norm term `norm`. -/
def coarseScore (b : LoadIndexBody) (ip norm : W32) : W32 := if b.metric = 2#8 then fpSub (fpMul (fpOfNat 2) ip) norm else ip

/-- The best `n` of numbered scores, NaN left out, the lower number on a tie (R162, R255). -/
def bestOf (n : Nat) (l : List (Nat × W32)) : List (Nat × W32) :=
  ((rankList ((l.map (fun e => (⟨e.1, numOfFp32 e.2, e.2.toNat, 0, e.1⟩ : SElem))).filter (fun e => !e.val.isNan))).take n).map
    (fun e => (e.pos, BitVec.ofNat 32 e.bits))

/-- R254: the query as the coarse stage and the tables read it. -/
def queryVector (b : LoadIndexBody) (v : List W32) : List W32 := if b.metric = 1#8 then normTwo v else v

/-- The array's sum of a list centroid. -/
def listIp (i : Index) (qa : List ARow) (l : Nat) : W32 := coarseIp i.body (i.parts.lists.getD (l / max 1 i.body.lam) []) qa (l % max 1 i.body.lam)

/-- The regions probed, in ascending number. -/
def coarseRegions (i : Index) (qa : List ARow) (pr : Nat) : List Nat :=
  let best := bestOf pr ((List.range i.body.nReg).map (fun g =>
    (g, coarseScore i.body (coarseIp i.body i.parts.regions qa g) (i.parts.regionNorms.getD g 0#32))))
  (List.range i.body.nReg).filter (fun g => best.any (fun e => e.1 == g))

/-- R254: the ranked lists, at most P_max. -/
def rankedLists (i : Index) (q : List W32) (pr pMax : Nat) : List Nat :=
  let qa := packedQuery i.body q
  let row := (coarseRegions i qa pr).flatMap (regionLists i.body)
  (bestOf pMax (row.map (fun l => (l, coarseScore i.body (listIp i qa l) (i.parts.listNorms.getD l 0#32))))).map (·.1)

/-- R296: a list centroid as its coarse format represents it, in FP32. -/
def coarseCentroid (b : LoadIndexBody) (tiles : List WTile) (n : Nat) : List W32 :=
  let cols := outColumns b.coarse.toNat
  (List.range b.dim).map (fun d =>
    let p := coarsePlane b (tiles.getD (n / cols * coarseGroups b + d / 128) ⟨[], []⟩)
    fp32OfNum (numMul (planeWeight p (d % 128) (n % cols)) (.fin false 1 (planeScale p (n % cols) (d % 128 / 32) - 127))))

/-- R296: c_l: the residual centroid of an L2 index, the coarse list centroid of another. -/
def listCentroid (i : Index) (l : Nat) : List W32 :=
  if i.body.metric = 2#8 then i.parts.centroids.getD l []
  else coarseCentroid i.body (i.parts.lists.getD (l / max 1 i.body.lam) []) (l % max 1 i.body.lam)

/-- R296: the list that the coarse stage assigns a vector; none when no list is ranked. -/
def assignedList (i : Index) (v : List W32) : Option Nat := (rankedLists i (queryVector i.body v) 1 1).head?

/-! ### Table sets and scores (R256, R258) -/

/-- Values as a BF16 codebook's table build reads them. -/
def asBook (b : LoadIndexBody) (l : List W32) : List W32 := if b.residual16 then l.map (fun x => fpOfCode 7 (codeOfFp 7 x)) else l

/-- One table per subquantizer. -/
def buildTables (b : LoadIndexBody) (book : List (List (List W32))) (v : List W32) : List (List Int) :=
  let n := b.dim / max 1 b.m
  let l2 := b.metric == 2#8
  let c := if l2 then fpNeg b.sigma else b.sigma
  book.zipIdx.map (fun t => t.1.map (fun cent => signedOf 16 (tableEntry (!l2) ((v.drop (n * t.2)).take n) cent c)))

/-- Bias and tables of a list, or of the Thicket (R256). -/
def tableSetOf (i : Index) (q : List W32) (place : Option Nat) : Int × List (List Int) :=
  let b := i.body
  match place with
  | none => (0, buildTables b i.parts.flat (asBook b q))
  | some l =>
    if b.metric = 2#8 then (0, buildTables b i.parts.residual (asBook b (List.zipWith fpSub q (i.parts.centroids.getD l []))))
    else
      let bias := clampInt (-(2 ^ 30)) (2 ^ 30) (fpToInt 32 (fpMul (listIp i (packedQuery b q) l) b.beta))
      (bias, buildTables b i.parts.residual (asBook b q))

/-- R258: a record's score in a set. -/
def scoreRec (b : LoadIndexBody) (set : Int × List (List Int)) (r : IRec) : Int :=
  let s := (set.2.zip r.codes).foldl (fun a t => a + t.1.getD t.2 0) set.1
  if b.metric = 1#8 then cosScore s r.g else s

/-- R260: a record that is scored. -/
def recPasses (f : FilterBody) (tenant : Nat) (r : IRec) : Bool :=
  !r.tomb && r.tenant == tenant
    && f.preds.all (fun p => let a := (r.attrs.getD p.attr 0#32).toNat; decide (p.low.toNat ≤ a) && decide (a ≤ p.high.toNat))
    && (match f.acl with | some l => l.contains r.acl | none => true)

/-- R275: the source word of a record. -/
def sourceWord (r : IRec) : W32 := match r.place with | some l => BitVec.ofNat 32 l | none => 0x007FFFFF#32

/-! ### Stages (R270 to R273) -/

/-- The best `k` of some records' offers (R261). -/
def heldOf (k : Nat) (l : List Held) : List Held := (l.foldl (fun acc e => insertHeld e acc) []).take k

/-- R276: the entries after stage `n`: the ranked lists up to L_n and the Thicket, with the entries of other shard holders. -/
def stageEntries (i : Index) (recs : List IRec) (q : List W32) (f : FilterBody) (tenant k pr p pMax n : Nat) (peers : List Entry) : List Entry × Nat :=
  let ranked := rankedLists i q pr pMax
  let probed := ranked.take (min (p * 2 ^ (n - 1)) pMax)
  let places := none :: probed.map some
  let own := places.flatMap (fun pl =>
    let set := tableSetOf i q pl
    (recs.filter (fun r => r.place == pl && recPasses f tenant r)).map (fun r => (⟨scoreRec i.body set r, r.pid, (sourceWord r).toNat⟩ : Held)))
  let far := if i.body.shardCount = 1 then [] else peers.map (fun e => (⟨e.score, e.pid, e.source.toNat⟩ : Held))
  ((heldOf k (own ++ far)).map (fun h => ⟨h.pid, h.score, BitVec.ofNat 32 h.tag⟩), ranked.length)

end Sys2Proof.Machine
end

