-- ==== Sys2Proof/Machine/Flags.lean ====
section
/-!
DEFINITION. Status values, details and flags of completion records (R393, R395, R396), result areas (R415), and the bits of KT_READY
(R416).
-/
namespace Sys2Proof.Machine

/-! ### Status (R395) -/

def stOk : Nat := 0x0000
def stShort : Nat := 0x0001
def stTruncated : Nat := 0x0002
def stStopMatched : Nat := 0x0003
def stLengthLimit : Nat := 0x0004
def stDeadEnd : Nat := 0x0005
def stCancelled : Nat := 0x0006
def stBusy : Nat := 0x0010
def stNotReady : Nat := 0x0011
def stDenied : Nat := 0x0012
def stIndexMismatch : Nat := 0x0013
def stVersionRetired : Nat := 0x0014
def stInvalid : Nat := 0x0015
def stFault : Nat := 0x0020

/-! ### Details (R396) -/

def dtHostRead : Nat := 0x0101
def dtHeader : Nat := 0x0102
def dtRights : Nat := 0x0201
def dtCredential : Nat := 0x0202
def dtUnbind : Nat := 0x0203
def dtLifetime : Nat := 0x0204
def dtIdle : Nat := 0x0205
def dtPolicy : Nat := 0x0206
def dtAuthentication : Nat := 0x0301
def dtMiscabling : Nat := 0x0302
def dtVersion : Nat := 0x0303
def dtDigest : Nat := 0x0304
def dtLinkUnit : Nat := 0x0305
def dtGroveCapacity : Nat := 0x0306
def dtMemberOut : Nat := 0x0307
def dtRecovery : Nat := 0x0401
def dtLinkReset : Nat := 0x0402
def dtReserveSpent : Nat := 0x0403
def dtPoisoned : Nat := 0x0404

/-! ### Record flags (R393) -/

def fgClosed : Nat := 2
def fgPeer : Nat := 4
def fgTruncated : Nat := 8
def fgShort : Nat := 16
def fgTargetRunning : Nat := 32
def fgReport : Nat := 64
def fgMismatch : Nat := 128
def fgDuplicate : Nat := 256

/-- A status alone. -/
def endWith (status : Nat) : Ending := ⟨status, 0, 0, []⟩

/-- A refusal at a numbered check (R396). -/
def failAt (status check : Nat) : Ending := ⟨status, check, 0, []⟩

/-- ST_BUSY with its hint at bytes [3:0] (R415, R437). -/
def busyAt (check hint : Nat) : Ending := ⟨stBusy, check, 0, [(0, 4, min hint 4294967295)]⟩

/-- The 40 bytes of the result area from (offset, size, value) fields. -/
def resultBits (l : List (Nat × Nat × Nat)) : BitVec 320 := l.foldl (fun w f => setFld w (8 * f.1) (8 * f.2.1) f.2.2) 0#320

/-! ### KT_READY (R416) -/

def bKettle : Nat := 0
def bVault : Nat := 1
def bCtrl : Nat := 2
def bHostlink : Nat := 3
def bPll : Nat := 4
def bMesh : Nat := 5
def bCg (g : Nat) : Nat := 6 + g
def bStack (n : Nat) : Nat := 14 + n
def bT2 : Nat := 26
def bT3 : Nat := 27
def bGrove (p : Nat) : Nat := 28 + p
def bText : Nat := 36
def bImage : Nat := 37
def bStore : Nat := 38
def bRecovery : Nat := 39

def readyBit (s : State) (i : Nat) : Bool := bitOf s.kt.ready i

end Sys2Proof.Machine
end

