-- ==== Sys2Proof/Machine/Caddy.lean ====
section
/-!
DEFINITION. Queue pairs, completion records, interrupts and the taking of entries (R386 to R394, R421, R422).
-/
namespace Sys2Proof.Machine

/-! ### Functions and pairs (R386, R387) -/

def cfgReset : PairCfg := ⟨0#64, 0#64, 0x44#64⟩
def pairReset : Pair := ⟨cfgReset, cfgReset, none, 0, 0, 0, 0, true, false, false, false, [], 0⟩
def funcReset : Func := ⟨false, 0, false, false, 0⟩
/-- The reset of an MSI-X entry: masked, not pending (log 7). -/
def vecReset : Vec := ⟨0#64, 0#32, true, false⟩

def pairAt (s : State) (n : Nat) : Pair := AMap.get pairReset s.caddy.pairs n
def setPair (s : State) (n : Nat) (p : Pair) : State := { s with caddy := { s.caddy with pairs := AMap.put pairReset s.caddy.pairs n p } }
def funcAt (s : State) (f : Nat) : Func := AMap.get funcReset s.caddy.funcs f
def setFunc (s : State) (f : Nat) (x : Func) : State := { s with caddy := { s.caddy with funcs := AMap.put funcReset s.caddy.funcs f x } }
def vecAt (s : State) (f v : Nat) : Vec := AMap.get vecReset s.caddy.vecs (16 * f + v)
def setVec (s : State) (f v : Nat) (x : Vec) : State :=
  { s with caddy := { s.caddy with vecs := AMap.put vecReset s.caddy.vecs (16 * f + v) x } }

/-- Queue pairs of a function (R387). -/
def pairsOf (f : Nat) : Nat := if f = 0 then 8 else 7

/-- R386: the pair of a function's local number. -/
def pairNumber (f loc : Nat) : Option Nat :=
  if decide (f ≤ 8) && decide (loc < pairsOf f) then some (if f = 0 then loc else 8 + 7 * (f - 1) + loc) else none

def funcOfPair (n : Nat) : Nat := if n < 8 then 0 else (n - 8) / 7 + 1
def localOfPair (n : Nat) : Nat := if n < 8 then n else (n - 8) % 7

/-- The pair number that stands for the sideband. -/
def sidePair : Nat := 64
def sideFunc : Byte := 0xFF#8

def PairCfg.sqLog (c : PairCfg) : Nat := fld c.qcfg 0 4
def PairCfg.cqLog (c : PairCfg) : Nat := fld c.qcfg 4 4
def PairCfg.en (c : PairCfg) : Bool := bitOf c.qcfg 8
def PairCfg.vec (c : PairCfg) : Nat := fld c.qcfg 16 4

def Pair.active (p : Pair) : Bool := p.force.en
def Pair.sqSize (p : Pair) : Nat := 2 ^ p.force.sqLog
def Pair.cqSize (p : Pair) : Nat := 2 ^ p.force.cqLog

/-- Requests taken from the pair and not completed (CD_QSTAT INFLIGHT). -/
def inflight (s : State) (n : Nat) : Nat := (s.reqs.filter (fun q => q.pair == n)).length

/-! ### Interrupts (R387, R394) -/

/-- Raise a vector: its message goes out, or its pending bit is set while it is masked or the link is down. -/
def raiseVec (s : State) (f v : Nat) : State :=
  if (vecAt s f v).masked || !readyBit s bHostlink then setVec s f v { vecAt s f v with pending := true }
  else { s with host := s.host ++ [.msix f v] }

/-- Vector 0 of a function raises CD_EVENT. -/
def raiseEvent (s : State) (f : Nat) : State := if (funcAt s f).enabled then raiseVec s f 0 else s

/-! ### Readiness (R416) -/

/-- A change of KT_READY sets READYCHG in every function and asserts SMB_ALERT_N. -/
def setReadyWord (s : State) (w : W64) : State :=
  if w = s.kt.ready then s
  else
    let s := { s with kt := { s.kt with ready := w }, side := { s.side with ready := true, alert := true } }
    (List.range 9).foldl (fun s f => raiseEvent (setFunc s f { funcAt s f with readychg := true }) f) s

def putBit {n : Nat} (w : BitVec n) (i : Nat) (v : Bool) : BitVec n := setFld w i 1 (if v then 1 else 0)

def setReady (s : State) (i : Nat) (v : Bool) : State := setReadyWord s (putBit s.kt.ready i v)

/-- Pending vectors that are not masked go out once the link is up. -/
def flushVecs (s : State) : State :=
  s.caddy.vecs.foldl (fun s p =>
    let x := AMap.get vecReset s.caddy.vecs p.1
    if x.pending && !x.masked then raiseVec (setVec s (p.1 / 16) (p.1 % 16) { x with pending := false }) (p.1 / 16) (p.1 % 16) else s) s

/-! ### Records (R393, R394) -/

/-- The 64 bytes of a record. -/
def complBytes (c : Completion) (phase : Bool) : List Byte :=
  leBytes 8 c.rid.toNat ++ leBytes 4 c.session.toNat ++ leBytes 2 c.status ++ leBytes 2 c.detail
    ++ leBytes 2 (c.flags + if phase then 1 else 0) ++ leBytes 2 c.queue ++ leBytes 2 c.head ++ leBytes 2 0 ++ leBytes 40 c.result.toNat

/-- A free place: advancing the tail would not make it equal to the head. -/
def Pair.room (p : Pair) : Bool := (p.cqTail + 1) % p.cqSize != p.cqHead

/-- Write a record at the tail; the expected phase inverts at the wrap. -/
def writeRecord (s : State) (n : Nat) (c : Completion) : State :=
  let p := pairAt s n
  let t := (p.cqTail + 1) % p.cqSize
  { setPair s n { p with cqTail := t, phase := if t = 0 then !p.phase else p.phase, unraised := p.unraised + 1 } with
    host := s.host ++ [.record n p.cqTail p.phase c] }

/-- Write held records while places are free. -/
def drainHeld : Nat → State → Nat → State
  | 0, s, _ => s
  | k + 1, s, n =>
    match (pairAt s n).held with
    | [] => s
    | c :: r => if (pairAt s n).room then drainHeld k (writeRecord (setPair s n { pairAt s n with held := r }) n c) n else s

/-- Records held while the link was down are written once it is up. -/
def flushHeld (s : State) : State :=
  s.caddy.pairs.foldl (fun s p => if (pairAt s p.1).active then drainHeld p.2.held.length s p.1 else s) s

/-- A failed host read is reported through AER (R384); the sideband has none. -/
def reportRead (s : State) (f : Byte) : State := if f = sideFunc then s else { s with host := s.host ++ [.aer f.toNat] }

/-- A record for a pair, written or held in completion order, and held while the host link is down; a sideband record becomes the pending
reply with the output behind it. -/
def postRecord (s : State) (n : Nat) (c : Completion) : State :=
  if n = sidePair then
    { s with side := { s.side with running := false, reply := complBytes c false ++ s.side.out, out := [], alert := true } }
  else if (pairAt s n).held.isEmpty && (pairAt s n).room && readyBit s bHostlink then writeRecord s n c
  else setPair s n { pairAt s n with held := (pairAt s n).held ++ [c] }

/-- Output bytes of a request: to host memory, or to the reply buffer (R422). -/
def putOutput (s : State) (r : ReqId) (b : List Byte) : State :=
  if r.func = sideFunc then { s with side := { s.side with out := s.side.out ++ b } }
  else { chargeTokens s (setOfFunc r.func) .hostOut b.length true with host := s.host ++ [.output r b] }

/-- The error-log record of kind 8 of a request (R20, R413). DESIGN CHOICE (log 24): Code holds the status and Detail the completion's
detail. -/
def logOutcome (s : State) (id : ReqId) (glade : Option Nat) (status detail : Nat) : State :=
  logAdd s { logNone with
    kind := 8, code := status, func := id.func.toNat, glade := glade.getD 0xFF, rid := id.rid, detail := BitVec.ofNat 128 detail }

/-- The record of a request (R393) and, for ST_FAULT, the error-log record of kind 8 (R413). -/
def endRecord (s : State) (id : ReqId) (pair session head : Nat) (glade : Option Nat) (e : Ending) : State :=
  let s := if e.status = stFault then logOutcome s id glade e.status e.detail else s
  postRecord s pair ⟨id.rid, BitVec.ofNat 32 session, e.status, e.detail, e.flags,
    if pair = sidePair then 0 else localOfPair pair, head, resultBits e.result⟩

/-- The session whose last request has completed is idle from now (R376). -/
def touchIdle (s : State) (session : Nat) : State :=
  if s.reqs.any (fun q => q.session == session) then s
  else { s with prot := { s.prot with sessions := s.prot.sessions.map (fun x => if x.id == session then { x with idle := s.time } else x) } }

/-- What the peers have verified for a load goes with it (R66). -/
def clearVerifies (s : State) : Job → State
  | .load _ => { s with grove := { s.grove with verifies := [] } }
  | _ => s

/-- A request completes: its record; its object and output entries and its reservations are gone (R20, R26). -/
def completeReq (s : State) (q : Req) (e : Ending) : State :=
  let s := endRecord s q.id q.pair q.session q.head q.glade e
  let s := clearVerifies s q.job
  touchIdle { s with
    sched := { s.sched with lag := s.sched.lag ++ (match q.job with | .serve v => [(q.glade, v)] | _ => []) }
    reqs := s.reqs.filter (fun x => x.id != q.id)
    keys := { s.keys with
      outputs := s.keys.outputs.filter (fun p => match p.2 with | some o => o.req != q.id | none => false)
      objects := s.keys.objects.filter (fun p => match p.2 with | some o => o.req != q.id | none => false) }
    changes := s.changes.filter (fun c => match c with
      | .request r => r != q.id
      | .item r _ => r != q.id
      | _ => true) } q.session

def reqOf (s : State) (r : ReqId) : Option Req := s.reqs.find? (fun q => q.id == r)

/-- Complete a request by its name. -/
def completeId (s : State) (r : ReqId) (e : Ending) : State :=
  match reqOf s r with | some q => completeReq s q e | none => s

def putReq (s : State) (q : Req) : State := { s with reqs := s.reqs.map (fun x => if x.id == q.id then q else x) }
def setJob (s : State) (q : Req) (j : Job) : State := putReq s { q with job := j }

/-! ### Taking entries (R389 to R391, R421) -/

def functionLoad (s : State) (f : Byte) : Nat := (s.reqs.filter (fun q => q.id.func == f)).length

/-- The secrets are being cleared, or the module tests itself at a shutdown: Wenik no longer runs (R516, R517). -/
def clearingNow (s : State) : Bool := match s.kt.shut with | some x => x.clearing | none => false

/-- The module runs Wenik: running or in recovery mode. -/
def alive (s : State) : Bool := (s.kt.life == .running || s.kt.life == .recovery) && !clearingNow s

/-- An entry of a pair waits to be taken. -/
def entryWaits (s : State) (f loc : Nat) : Bool :=
  match pairNumber f loc with
  | none => false
  | some n =>
    let p := pairAt s n
    (funcAt s f).enabled && readyBit s bHostlink && p.active && p.commit.isNone && p.head != p.tail
      && decide (functionLoad s (BitVec.ofNat 8 f) < 4096)

def sideWaits (s : State) : Bool := s.side.running && !s.reqs.any (fun q => q.pair == sidePair)

/-- The first of `n` in cyclic order from `start`. -/
def turnFrom (start n : Nat) (p : Nat → Bool) : Option Nat := ((List.range n).map (fun i => (start + i) % n)).find? p

/-- Whose turn it is (R389): the pairs of a function and the functions, with the sideband behind VF 8, each one entry per turn. -/
def pairTurn (s : State) (f : Nat) : Option Nat := turnFrom (funcAt s f).turn (pairsOf f) (entryWaits s f)
def funcTurn (s : State) : Option Nat := turnFrom s.caddy.turn 10 (fun f => if f = 9 then sideWaits s else (pairTurn s f).isSome)

/-- The turn passes on. -/
def passTurn (s : State) (f : Nat) : State := { s with caddy := { s.caddy with turn := f + 1 } }

/-- Wenik takes the entry whose turn it is, which wakes the module from DEEP IDLE (R477): the pair and the submission head after it. `none`
when there is no such entry to take, or another's turn comes first. -/
def takeEntry (s : State) (func : Byte) (loc : Nat) : Option (State × Nat × Nat) :=
  if !alive s then none
  else if func = sideFunc then
    if funcTurn s = some 9 then some (wake (passTurn s 9), sidePair, 0) else none
  else match pairNumber func.toNat loc with
    | none => none
    | some n =>
      let f := func.toNat
      let p := pairAt s n
      if funcTurn s = some f && pairTurn s f = some loc then
        let h := (p.head + 1) % p.sqSize
        some (wake (passTurn (setFunc (setPair s n { p with head := h }) f { funcAt s f with turn := loc + 1 }) f), n, h)
      else none

/-- What a message's checks work with: its pair, the head after it, and its session. -/
structure Ctx where
  pair : Nat
  head : Nat
  sess : Session
  deriving DecidableEq, Repr

def noSession : Session := ⟨0, 3, 0, 0#8, 0, 0, 0, 0, false, 0⟩

def sessionOf (s : State) (id : Nat) (f : Byte) : Option Session := s.prot.sessions.find? (fun x => x.id == id && x.func == f)

/-- Refuse a message that was taken: its one record (R20, R21). -/
def refuse (s : State) (h : MsgHead) (c : Ctx) (e : Ending) : State :=
  endRecord s ⟨h.func, h.rid⟩ c.pair h.session.toNat c.head none e

/-- Accept a message as a request in progress. -/
def acceptReq (s : State) (h : MsgHead) (c : Ctx) (opcode : Nat) (glade tenant : Option Nat) (j : Job) : State :=
  { s with
    reqs := s.reqs ++ [⟨⟨h.func, h.rid⟩, c.pair, h.session.toNat, c.head, opcode, glade, tenant, s.time, s.sched.admits, j⟩]
    sched := { s.sched with admits := s.sched.admits + 1 } }

/-- What the session field may name (R391). -/
inductive SessRule where
  | opened | hello | restore | proof
  deriving DecidableEq, Repr

/-- R391's header case. -/
def headerBad (h : MsgHead) : Bool :=
  h.version != 1#8 || h.flags.toNat / 2 != 0 || h.reserved != 0#32 || decide (1048576 < h.bodyLen.toNat)
    || h.rid == 0#64 || h.rid == 0xFFFFFFFFFFFFFFFF#64

/-- R391's session case: the session, or `none`. -/
def sessionCase (s : State) (h : MsgHead) : SessRule → Option Session
  | .opened => sessionOf s h.session.toNat h.func
  | .hello => if h.session = 0#32 then some noSession else none
  | .restore => if h.session = 0#32 && s.prot.store.isNone then some noSession else sessionOf s h.session.toNat h.func
  | .proof => some noSession

/-- The record of a session that has been closed carries CLOSED and the reason (R379 item 4). -/
def deniedEnd (s : State) (h : MsgHead) : Ending :=
  match s.prot.closed.find? (fun c => c.1 == h.session.toNat && c.2.1 == h.func) with
  | some c => ⟨stDenied, c.2.2, fgClosed, []⟩
  | none => endWith stDenied

def sealedFlag (h : MsgHead) : Bool := bitOf h.flags 0

/-- R366: a sealed request's ID must rise above the session's last one; one that does advances it. -/
def sealedStep (s : State) (h : MsgHead) : State × Bool :=
  match sessionOf s h.session.toNat h.func with
  | none => (s, true)
  | some x =>
    if !sealedFlag h then (s, true)
    else if h.rid.toNat ≤ x.lastSealed then (s, false)
    else ({ s with prot := { s.prot with sessions := s.prot.sessions.map (fun y =>
      if y.id == x.id then { y with lastSealed := h.rid.toNat } else y) } }, true)

/-- Opcodes of R398. -/
def opOpen : Nat := 0x01
def opClose : Nat := 0x02
def opLoadModel : Nat := 0x03
def opLoadIndex : Nat := 0x04
def opIngest : Nat := 0x05
def opInsert : Nat := 0x06
def opDelete : Nat := 0x07
def opMerge : Nat := 0x08
def opQuery : Nat := 0x09
def opGenerate : Nat := 0x0A
def opAsk : Nat := 0x0B
def opCancel : Nat := 0x0C
def opConfig : Nat := 0x0D
def opStatus : Nat := 0x0E
def opLogRead : Nat := 0x0F
def opShutdown : Nat := 0x10

/-- Messages the sideband accepts (R422). -/
def sideAccepts (op : Nat) : Bool := [opOpen, opClose, opCancel, opConfig, opStatus, opLogRead, opShutdown].contains op

/-- In a drain, messages still served (R414). -/
def drainServes (op : Nat) : Bool := [opCancel, opStatus, opLogRead, opClose, opShutdown].contains op

/-- The cases decided before a message's own checks, in order (R391, R366, R422, R414, R377); `recOk` when recovery mode accepts it. -/
def beforeChecks (s0 s : State) (h : MsgHead) (op : Nat) (rule : SessRule) (recOk sealOk : Bool) : Except Ending Session :=
  if !h.bodyRead then .error ⟨stInvalid, dtHostRead, 0, []⟩
  else if headerBad h then .error ⟨stInvalid, dtHeader, 0, []⟩
  else if s.reqs.any (fun q => q.id == ⟨h.func, h.rid⟩) then .error ⟨stInvalid, 0, fgDuplicate, []⟩
  else match sessionCase s h rule with
    | none => .error (deniedEnd s h)
    | some x =>
      if !sealOk then .error (endWith stInvalid)
      else if s0.kt.life == .recovery && !(recOk && (rule != .opened || x.role == 0)) then .error (endWith stNotReady)
      else if h.func == sideFunc && !sideAccepts op then .error (endWith stInvalid)
      else if s.kt.shut.isSome && !drainServes op then .error (endWith stNotReady)
      else if x.draining && op != opCancel && op != opStatus && op != opLogRead && op != opClose then .error (endWith stDenied)
      else .ok x

/-- The body's bytes are read from host memory (R431). -/
def chargeBody (s : State) (h : MsgHead) : State :=
  if h.func = sideFunc then s else chargeTokens s (setOfFunc h.func) .hostIn h.bodyLen.toNat true

/-- Take a message and either refuse it or go on with its own checks. -/
def message (s : State) (h : MsgHead) (op : Nat) (rule : SessRule) (recOk : Bool) (go : State → Ctx → State) : State :=
  match takeEntry s h.func h.pair with
  | none => s
  | some (s1, pair, head) =>
    let (s2, sealOk) := sealedStep (chargeBody s1 h) h
    match beforeChecks s s2 h op rule recOk sealOk with
    | .error e => refuse (if h.bodyRead then s2 else reportRead s2 h.func) h ⟨pair, head, noSession⟩ e
    | .ok x => go s2 ⟨pair, head, x⟩

/-- SEALED as R398 and R392 ask, the body's layout, and its reserved fields (R17). -/
def formOk (h : MsgHead) (sealing : Bool) : Bool := sealedFlag h == sealing && h.layoutOk && !h.bodyRsvd

/-- A change accepted for the next boundary (R9, R11). -/
def addChange (s : State) (c : Change) : State := { s with changes := s.changes ++ [c] }

/-! ### Doorbells and interrupts (R389, R394) -/

/-- Unmasking raises a pending vector. -/
def unmask (s : State) (f v : Nat) : State :=
  let x := vecAt s f v
  if x.pending then raiseVec (setVec s f v { x with pending := false, masked := false }) f v
  else setVec s f v { x with masked := false }

end Sys2Proof.Machine
end

