-- ==== Sys2Proof/Machine/Copy.lean ====
section
/-!
DEFINITION. The C engine: checks (R232), descriptor movement (R213), copies and their holds (R229 to R231), lists (R224), partial
copies (R225), slot descriptors (R226) and multicast (R227).
-/
namespace Sys2Proof.Machine

/-! ### Checks at issue -/

def refForm (r : TileRef) : Bool := r.tier != 3 && (r.tier != 0 || decide (r.idx ≤ 191))
def refAddr (r : TileRef) (n : Nat) : Bool := r.tier != 1 || decide (r.idx + n ≤ t2Tiles)
def refOwned (d : UnitDesc) (r : TileRef) (n : Nat) : Bool := r.tier != 0 || (List.range n).all (fun i => ownsT0 d (r.idx + i))

/-- The plan error a C instruction raises at issue, if any. -/
def cCheck (d : UnitDesc) (op : Nat) (o : Ops88) : Option Nat :=
  if op = 1 then
    let src := tileRef (fld o 0 34)
    let dst := tileRef (fld o 34 34)
    let n := fld o 68 7 + 1
    if !(zeroBits o 75 87 && refForm src && refForm dst && pairAllowed src.tier dst.tier) then some 0x01
    else if !(refOwned d src n && refOwned d dst n) then some 0x05
    else if !(refAddr src n && refAddr dst n) then some 0x0A else none
  else if op = 2 then
    let dst := tileRef (fld o 18 34)
    let n := fld o 52 8 + 1
    if !(zeroBits o 60 87 && refForm dst && decide (fld o 0 8 ≤ 191)) then some 0x01
    else if !(rangeOk d (addr16 (fld o 0 8) (fld o 8 10)) (8 * n) && refOwned d dst n) then some 0x05
    else if !refAddr dst n then some 0x0A else none
  else if op = 3 then
    let p := cPartOp o
    if !(zeroBits o 66 87 && decide (p.slot ≤ 191) && decide (p.soff + p.len ≤ 1024) && decide (p.toff + p.len ≤ 1024)) then some 0x01
    else if !ownsT0 d p.slot then some 0x05
    else if !decide (p.tile < t2Tiles) then some 0x0A else none
  else if op = 4 then
    let src := tileRef (fld o 0 34)
    let n := fld o 42 7 + 1
    if !(zeroBits o 61 87 && refForm src && (src.tier == 0 || src.tier == 1) && decide (fld o 34 8 + n ≤ 192)) then some 0x01
    else if !refOwned d src n then some 0x05
    else if !refAddr src n then some 0x0A else none
  else if op = 5 then
    let n := fld o 8 7 + 1
    if !(zeroBits o 27 87 && decide (fld o 0 8 ≤ 191)) then some 0x01
    else if !(List.range n).all (fun i => ownsT0 d (fld o 0 8 + i)) then some 0x05 else none
  else if op = 6 then
    if !(zeroBits o 26 87 && decide (fld o 0 8 ≤ 191) && decide (fld o 8 8 ≤ 191)) then some 0x01
    else if !(ownsT0 d (fld o 0 8) && rangeOk d (addr16 (fld o 8 8) (fld o 16 10)) 64) then some 0x05 else none
  else some 0x01

/-- The slots a C instruction is to read. -/
def cReads (op : Nat) (o : Ops88) : List Nat :=
  if op = 1 || op = 4 then
    let src := tileRef (fld o 0 34)
    let n := (if op = 1 then fld o 68 7 else fld o 42 7) + 1
    if src.tier = 0 then (List.range n).map (· + src.idx) else []
  else if op = 2 then slotsOf (addr16 (fld o 0 8) (fld o 8 10)) (8 * (fld o 52 8 + 1))
  else if op = 3 then (if (cPartOp o).toT2 then [(cPartOp o).slot] else [])
  else if op = 6 then slotsOf (addr16 (fld o 8 8) (fld o 16 10)) 64
  else []

/-! ### Descriptors (R213) -/

/-- The destination descriptor of a whole-tile copy: moved fields, CRC over the LENGTH bytes in use, CRCV set. -/
def copiedDesc (src dst : BitVec 512) (payload : List Byte) : BitVec 512 :=
  setFld (setFld (moveDesc src dst) 13 1 1) 64 32 (crc32c (payload.take (dLength src))).toNat

/-- R213: CPART into T2. -/
def partDesc (d : BitVec 512) (e : Nat) : BitVec 512 := setFld (setFld d 13 1 0) 32 15 (max (dLength d) e)

/-! ### Copies -/

/-- Whether a record is that of a CRECV, which makes no copy of its own (R227, R229). -/
def isReceive (c : Copy) : Bool := match c.kind with | .receive _ _ => true | _ => false
def isCast (c : Copy) : Bool := match c.kind with | .cast _ _ => true | _ => false

/-- Started and not complete on the core, CRECVs among them. -/
def copiesOpen (k : Core) : List Copy :=
  k.flights.flatMap (fun f => match f.work with
    | .copies l => l.filter (fun c => c.state == .flying || c.state == .arrived)
    | _ => [])

/-- Copies in flight on the core (R82, R229). -/
def copiesFlying (k : Core) : List Copy := (copiesOpen k).filter (fun c => !isReceive c)

def sourceDesc (s : State) (k : Core) (r : TileRef) : BitVec 512 := if r.tier = 0 then slotDesc k r.idx else tileDesc s (tileKey r)

/-- Payload cells of a reference, keyed from 0. -/
def refCells (s : State) (k : Core) (r : TileRef) (off len : Nat) : List Host.Cell :=
  if r.tier = 0 then cutCells k.bytes (slotAddr r.idx + off) len else cutCells s.media.bytes (tileKey r * tileBytes + off) len

def cellsBytes (c : List Host.Cell) (n : Nat) : List Byte := readBytes c 0 n

/-- Put a whole tile into a slot, FILLING or FULL. -/
def tileToSlot (k : Core) (n : Nat) (cells : List Host.Cell) (d : BitVec 512) (st : SlotState) : Core :=
  let k := setSlotDesc k n (setDState d 0)
  setSlot { k with bytes := putCells k.bytes (slotAddr n) tileBytes cells } n st

/-- Put a whole tile into T2 or T3, FILLING; the near caches drop an NC tile's lines first (R220). -/
def tileToMedia (s : State) (key : Nat) (cells : List Host.Cell) (d : BitVec 512) : State :=
  let s := if dNc (tileDesc s key) then dropLines s key else s
  setDevBytes (setTile s key (setDState d tileFilling)) (putCells s.media.bytes (key * tileBytes) tileBytes cells)

/-- What a copy meets at its source and destination: it waits for a slot, or in a tile's queue (R215); it stops the unit; it passes; its
source is POISONED. -/
inductive CopyGate where
  | wait | queue | fail (code which : Nat) | pass | poisoned (key : Nat)
  deriving DecidableEq, Repr

/-- A source is read when FULL (R90, R214). -/
def sourceGate (s : State) (k : Core) (g : Nat) (r : TileRef) : CopyGate :=
  if r.tier = 0 then
    match readGate k [r.idx] with | .pass => .pass | .fail n => .fail 0x06 n | .hold _ => .wait
  else if !reachOk s g (tileKey r) false false then .fail 0x0A 0
  else
    let st := dState (tileDesc s (tileKey r))
    if st = tileFull then .pass else if st = tilePoisoned then .poisoned (tileKey r) else .queue

def destGate (s : State) (k : Core) (g : Nat) (r : TileRef) : CopyGate :=
  if r.tier = 0 then
    match writeGate k engC true [r.idx] with | .pass => .pass | .fail n => .fail 0x06 n | .hold _ => .wait
  else if !reachOk s g (tileKey r) true false then .fail 0x0A 0
  else if dState (tileDesc s (tileKey r)) = tileFilling then .queue else .pass

def CopyGate.and (a b : CopyGate) : CopyGate := match a with | .pass => b | _ => a

/-- Bytes drawn from the T2 and T3 regulators (R431). -/
def copyBytes (c : Copy) (tier : Nat) : Nat :=
  let n := match c.kind with | .part _ _ len => len | _ => tileBytes
  (if c.src.tier = tier then n else 0) + (if c.dst.tier = tier && !isCast c then n else 0)

/-- R229: the holds on a copy by earlier copies of the core still in flight; a CMCAST does not wait for the CRECV it fills (R227). -/
def copyHeld (k : Core) (c : Copy) : Bool :=
  let l := if isCast c then copiesFlying k else copiesOpen k
  decide (64 ≤ (copiesFlying k).length) || l.any (fun e => e.dst == c.dst) || l.any (fun e => e.dst == c.src)

/-- The accesses of a copy to T2 and T3 tiles, as they stand in the tiles' queues. -/
def tileAccesses (core id i : Nat) (c : Copy) : List TileWait :=
  (if c.src.tier != 0 then [⟨tileKey c.src, core, id, i, false⟩] else []) ++ (if c.dst.tier != 0 then [⟨tileKey c.dst, core, id, i, true⟩] else [])

/-- An access in progress reads the tile: a copy in flight, or a context of the G or Q engine that waits on a line of it (R215). -/
def tileRead (s : State) (key : Nat) : Bool :=
  dState (tileDesc s key) == tileFull && s.chip.cores.any (fun p => p.2.flights.any (fun f => match f.work with
    | .copies l => l.any (fun c => c.state == .flying && c.src.tier != 0 && tileKey c.src == key)
    | .gather d _ _ _ l => l.any (fun x => x.state == .waiting && (slotsOf x.copy (gDesc p.2.bytes d).stride).contains key)
    | .scan _ l => l.any (fun x => x.state == .waiting && decide (1 ≤ x.phase) && x.segment / tileBytes == key)
    | _ => false))

/-- R215: the access's turn at its tile: no access that arrived before it and still holds conflicts with it, and a write waits for the
reads in progress. -/
def tileTurn (s : State) (w : TileWait) : Bool :=
  !(s.media.waits.takeWhile (· != w)).any (fun e => e.key == w.key && (e.write || w.write)) && !(w.write && tileRead s w.key)

/-- The accesses take their places in the tiles' queues. -/
def queueTiles (s : State) (l : List TileWait) : State :=
  { s with media := { s.media with waits := s.media.waits ++ l.filter (fun w => !s.media.waits.contains w) } }

/-- The accesses leave the queues. -/
def leaveTiles (s : State) (l : List TileWait) : State :=
  { s with media := { s.media with waits := s.media.waits.filter (fun w => !l.contains w) } }

/-- A copy may read its source and write its destination: the slots first (R90), then the tiles (R208, R214, R215). -/
def copyGates (s : State) (core : Nat) (k : Core) (g id i : Nat) (c : Copy) : CopyGate :=
  let src := sourceGate s k g c.src
  let dst := if isCast c then .pass else destGate s k g c.dst
  match if c.src.tier = 0 then src.and dst else dst.and src with
  | .pass => if (tileAccesses core id i c).all (tileTurn s) then .pass else .queue
  | x => x

inductive CopyStep where
  | wait (s : State) | fail (code which : Nat) | go (s : State) (k : Core) (c : Copy)
  deriving DecidableEq, Repr

/-- A copy's tokens of the T3 and T2 regulators (R430, R431). -/
def copyTokens (s : State) (core : Nat) (u : UnitDesc) (id i : Nat) (c : Copy) : Except State State :=
  let t2 : Ticket := ⟨u.glade, 0, core, id, i⟩
  let t3 : Ticket := ⟨u.glade, 1, core, id, i⟩
  match drawTokens s u.glade .t3 (copyBytes c 2) (unitReserved u) t3 with
  | none => .error (holdTicket s t3)
  | some s1 => match drawTokens s1 u.glade .t2 (copyBytes c 1) (unitReserved u) t2 with
    | none => .error (holdTicket s t2)
    | some s2 => .ok s2

/-- A copy moves: its data is read now; a destination of its own is FILLING until it completes (R214, R230), a multicast tile is carried to
the members. -/
def copyMove (s : State) (k : Core) (c : Copy) : State × Core × Copy :=
  let onDie : Copy := { c with state := if c.src.tier = 0 then .arrived else .flying }
  match c.kind with
  | .receive _ _ => (s, k, { c with state := .flying })
  | .cast _ _ => (s, k, { onDie with data := refCells s k c.src 0 tileBytes, desc := sourceDesc s k c.src })
  | .whole =>
    let cells := refCells s k c.src 0 tileBytes
    let dd := copiedDesc (sourceDesc s k c.src) (sourceDesc s k c.dst) (cellsBytes cells tileBytes)
    if c.dst.tier = 0 then (s, tileToSlot k c.dst.idx cells dd .filling, onDie)
    else (tileToMedia s (tileKey c.dst) cells dd, k, { c with state := .flying })
  | .part so off len =>
    let cells := refCells s k c.src so len
    if c.dst.tier = 0 then
      (s, setSlot { k with bytes := putCells k.bytes (slotAddr c.dst.idx + off) len cells } c.dst.idx .filling, { c with state := .flying })
    else
      let key := tileKey c.dst
      let d := tileDesc s key
      let s2 := if dNc d then dropLines s key else s
      let b := if dState d = tileEmpty then clearBytes s2.media.bytes (key * tileBytes) tileBytes else s2.media.bytes
      (setDevBytes (setTile s2 key (setDState (partDesc d (off + len)) tileFilling)) (putCells b (key * tileBytes + off) len cells), k,
        { c with state := .flying })

/-- Start one held copy. A POISONED source is read too, and its response is the double fault (R214 item 5). -/
def copyStart (s : State) (core : Nat) (k : Core) (u : UnitDesc) (f : Flight) (i : Nat) (c : Copy) : CopyStep :=
  let l := tileAccesses core f.id i c
  if isReceive c then .go s k { c with state := .flying }
  else if copyHeld k c then .wait s
  else match copyGates s core k u.glade f.id i c with
    | .wait => .wait s
    | .queue => .wait (queueTiles s l)
    | .fail a b => .fail a b
    | .poisoned _ => .go (leaveTiles s l) k { c with state := .flying }
    | .pass => match copyTokens s core u f.id i c with
      | .error s1 => .wait s1
      | .ok s1 =>
        let (s2, k2, c2) := copyMove (leaveTiles s1 l) k c
        .go s2 k2 c2

/-- A destination becomes FULL. -/
def copyFinish (s : State) (k : Core) (c : Copy) : State × Core :=
  if c.dst.tier = 0 then (s, setSlot k c.dst.idx .full)
  else (setTile s (tileKey c.dst) (setDState (tileDesc s (tileKey c.dst)) tileFull), k)

/-- The copies an instruction is made of; `none` for a list entry that no copy may have (R224, R232). -/
def copiesOf (s : State) (k : Core) (u : UnitDesc) (o : Ops88) (op : Nat) : Except Nat (List Copy) :=
  let mk := fun (a b : TileRef) (kind : CopyKind) => (⟨a, b, kind, .held, [], [], 0⟩ : Copy)
  if op = 1 then
    let src := tileRef (fld o 0 34)
    let dst := tileRef (fld o 34 34)
    .ok ((List.range (fld o 68 7 + 1)).map (fun i => mk (refNext src i) (refNext dst i) .whole))
  else if op = 2 then
    let dst := tileRef (fld o 18 34)
    let a := addr16 (fld o 0 8) (fld o 8 10)
    let ent := (List.range (fld o 52 8 + 1)).map (fun i => readNat k.bytes (a + 8 * i) 8)
    let refs := ent.map tileRef
    if ent.any (fun e => decide (2 ^ 34 ≤ e)) || refs.any (fun r => !(refForm r && pairAllowed r.tier dst.tier)) then .error 0x01
    else if refs.any (fun r => !refOwned u r 1) then .error 0x05
    else if refs.any (fun r => !refAddr r 1) then .error 0x0A
    else .ok (refs.zipIdx.map (fun r => mk r.1 (refNext dst r.2) .whole))
  else if op = 3 then
    let p := cPartOp o
    .ok [if p.toT2 then mk ⟨0, p.slot⟩ ⟨1, p.tile⟩ (.part (16 * p.soff) (16 * p.toff) (16 * p.len))
         else mk ⟨1, p.tile⟩ ⟨0, p.slot⟩ (.part (16 * p.toff) (16 * p.soff) (16 * p.len))]
  else if op = 4 then
    let g := fld o 49 12
    match s.chip.groups.find? (fun x => x.desc.group == g && x.desc.leader == u.unitId) with
    | none => .error 0x01
    | some gr => .ok ((List.range (fld o 42 7 + 1)).map (fun i =>
        { mk (refNext (tileRef (fld o 0 34)) i) ⟨0, fld o 34 8 + i⟩ (.cast g gr.casts) with waits := gr.desc.members }))
  else if op = 5 then
    let g := fld o 15 12
    match s.chip.groups.find? (fun x => x.desc.group == g && x.desc.members.contains u.unitId) with
    | none => .error 0x01
    | some gr => .ok ((List.range (fld o 8 7 + 1)).map (fun i =>
        mk ⟨0, fld o 0 8 + i⟩ ⟨0, fld o 0 8 + i⟩ (.receive g (AMap.get 0 gr.recvs u.unitId))))
  else .ok []

/-- R227: the next match numbers of the group. -/
def countMatch (s : State) (u : UnitDesc) (o : Ops88) (op : Nat) : State :=
  let upd := fun (g : Nat) (h : Group → Group) =>
    { s with chip := { s.chip with groups := s.chip.groups.map (fun x => if x.desc.group == g then h x else x) } }
  if op = 4 then upd (fld o 49 12) (fun x => { x with casts := x.casts + 1 })
  else if op = 5 then upd (fld o 15 12) (fun x => { x with recvs := AMap.put 0 x.recvs u.unitId (AMap.get 0 x.recvs u.unitId + 1) })
  else s

/-- A C instruction reaches the engine: CSETD writes its descriptor (R226); the others list their copies. -/
def cBegin (s : State) (k : Core) (u : UnitDesc) (f : Flight) : BeginS :=
  let o := f.word.o
  let op := f.word.opcode
  if op = 6 || op = 2 then
    match readGate k f.reads with
    | .fail n => .fail 0x06 n
    | .hold _ => .wait
    | .pass =>
      if op = 6 then
        let a := addr16 (fld o 8 8) (fld o 16 10)
        let src := BitVec.ofNat 512 (readNat k.bytes a 64)
        .go s (setSlotDesc k (fld o 0 8) (moveDesc src (slotDesc k (fld o 0 8)))) { f with started := true }
      else match copiesOf s k u o op with
        | .error e => .fail e 0
        | .ok l =>
          let rs := (l.filter (fun c => c.src.tier == 0)).map (fun c => c.src.idx)
          .go s k { f with started := true, reads := f.reads ++ rs, rel := f.rel ++ rs, work := .copies l }
  else match copiesOf s k u o op with
    | .error e => .fail e 0
    | .ok l => .go (countMatch s u o op) k { f with started := true, work := .copies l }

/-- The core with an instruction's copies as they now stand. -/
def withCopies (k : Core) (f : Flight) (l : List Copy) : Core :=
  { k with flights := k.flights.map (fun g => if g.id == f.id then { g with work := .copies l } else g) }

/-- A slot-to-slot copy that has arrived completes on its own when a later copy of its instruction holds for it (R229, R230). -/
def settleCopies (k : Core) (l : List Copy) : Core × List Copy :=
  let here := fun (x : Copy) => x.state == .arrived && x.kind == .whole
  ((l.filter here).foldl (fun k x => setSlot k x.dst.idx .full) k, l.map (fun x => if here x then { x with state := .done } else x))

/-- Start held copies of one instruction in order, as far as they go (R229). -/
def startCopies (core : Nat) (u : UnitDesc) (f : Flight) : List (Copy × Nat) → State → Core → List Copy → CopyGate × State × Core × List Copy
  | [], s, k, acc => (.pass, s, k, acc)
  | (c, i) :: r, s, k, acc =>
    if c.state != .held then startCopies core u f r s k (acc ++ [c])
    else
      let (k, acc) := if copyHeld (withCopies k f (acc ++ c :: r.map (·.1))) c then settleCopies k acc else (k, acc)
      let k' := withCopies k f (acc ++ c :: r.map (·.1))
      match copyStart s core k' u f i c with
      | .wait s' => (.wait, s', k, acc ++ c :: r.map (·.1))
      | .fail a b => (.fail a b, s, k, acc ++ c :: r.map (·.1))
      | .go s' k'' c' => startCopies core u f r s' { k'' with flights := k.flights } (acc ++ [c'])

def cAllStarted (f : Flight) : Bool :=
  match f.work with
  | .copies l => l.all (fun c => c.state != .held)
  | _ => true

/-- Nothing left but to complete: every copy done, or arrived where no tier answers. -/
def cDone (f : Flight) : Bool :=
  f.started && (match f.work with
    | .copies l => l.all (fun c => c.state == .done || (c.state == .arrived && c.kind == .whole))
    | _ => true)

/-! ### Multicast delivery (R227) -/

/-- The core a unit runs on. -/
def coreRunning (s : State) (unit : Nat) : Option Nat :=
  (s.chip.cores.find? (fun p => match p.2.run with | some r => r.desc.unitId == unit | none => false)).map (·.1)

/-- Deliver tile `c` of match `kth` of group `g`, one of `n`, to one member: `none` while its matching CRECV has not issued or the slot
holds; the index of a CRECV whose count differs (R232). -/
def deliverOne (s : State) (g kth n : Nat) (c : Copy) (unit : Nat) : Option (Except Nat State) :=
  (coreRunning s unit).bind (fun core =>
    let k := coreOf s core
    let mine := fun (x : Copy) => x.kind == .receive g kth
    let isMatch := fun (x : Copy) => mine x && x.dst == c.dst && x.state == .flying
    (k.flights.find? (fun f => f.started && (match f.work with | .copies l => l.any mine | _ => false))).bind (fun f =>
      match f.work with
      | .copies l =>
        if l.length != n then some (.error f.index)
        else if !l.any isMatch || writeGate k engC true [c.dst.idx] != .pass then none
        else
          let dd := copiedDesc c.desc (slotDesc k c.dst.idx) (cellsBytes c.data tileBytes)
          let k := tileToSlot k c.dst.idx c.data dd .full
          let f' := { f with work := .copies (l.map (fun x => if isMatch x then { x with state := .done } else x)) }
          some (.ok (setCore s core { k with flights := k.flights.map (fun x => if x.id == f.id then f' else x) }))
      | _ => none))

/-- Deliver one arrived tile to the members it still waits on; units whose counts differ are named with their CRECV. -/
def deliverTile (g kth n : Nat) (c : Copy) : List Nat → State → State × List Nat × List (Nat × Nat)
  | [], s => (s, [], [])
  | m :: r, s =>
    match deliverOne s g kth n c m with
    | none => let (s', w, b) := deliverTile g kth n c r s; (s', m :: w, b)
    | some (.error i) => let (s', w, b) := deliverTile g kth n c r s; (s', m :: w, (m, i) :: b)
    | some (.ok s1) => deliverTile g kth n c r s1

def deliverCopies (n : Nat) : List Copy → State → State × List Copy × List (Nat × Nat)
  | [], s => (s, [], [])
  | c :: r, s =>
    match c.kind with
    | .cast g kth =>
      if c.state = .arrived then
        let (s1, w, b) := deliverTile g kth n c c.waits s
        let c' := { c with waits := w, state := if w.isEmpty then .done else .arrived }
        let (s2, cs, b2) := deliverCopies n r s1
        (s2, c' :: cs, b ++ b2)
      else let (s2, cs, b2) := deliverCopies n r s; (s2, c :: cs, b2)
    | _ => let (s2, cs, b2) := deliverCopies n r s; (s2, c :: cs, b2)

/-- Every arrived multicast tile of a core is delivered where it can be. -/
def deliverCore (s : State) (core : Nat) : State × List (Nat × Nat) :=
  (coreOf s core).flights.foldl (fun acc f =>
    match f.work with
    | .copies l =>
      if f.word.opcode = 4 && f.word.engine = engC then
        let (s1, l', b) := deliverCopies l.length l acc.1
        let k := coreOf s1 core
        -- a CRECV of the leader itself lives on the same core: only this instruction's record is replaced
        (setCore s1 core { k with flights := k.flights.map (fun x => if x.id == f.id then { f with work := .copies l' } else x) }, acc.2 ++ b)
      else acc
    | _ => acc) (s, [])

end Sys2Proof.Machine
end

