-- ==== Sys2Proof/Machine/Cipher.lean ====
section
/-!
DEFINITION. The X engine (R368 to R370): XDEC, XENC, XOPEN, XSEAL, their keys, their scope checks and their times.
-/
namespace Sys2Proof.Machine

def keyBytes (k : BitVec 256) : List Byte := leBytes 32 k.toNat

/-- The plan error an X instruction raises at issue, if any. -/
def xCheck (d : UnitDesc) (op : Nat) (o : Ops88) : Option Nat :=
  if op = 1 then
    let p := xDecOp o
    if !(zeroBits o 75 87 && refForm p.src && (p.src.tier == 0 || p.src.tier == 1) && (p.ksrc || p.key == 0) && decide (p.slot ≤ 191))
    then some 0x01
    else if !(refOwned d p.src 1 && ownsT0 d p.slot) then some 0x05 else if !refAddr p.src 1 then some 0x0A else none
  else if op = 2 then
    let p := xEncOp o
    if !(zeroBits o 74 87 && decide (p.dst ≤ 191)) then some 0x01
    else if !(rangeOk d (slotAddr p.src) p.len && ownsT0 d p.dst) then some 0x05 else none
  else if op = 3 then
    let p := xOpenOp o
    if !(zeroBits o 59 87 && decide (p.slot ≤ 191)) then some 0x01
    else if !ownsT0 d p.slot then some 0x05 else if !decide (p.tile < t2Tiles) then some 0x0A else none
  else if op = 4 then
    let p := xSealOp o
    if !zeroBits o 56 87 then some 0x01 else if !rangeOk d (addr16 p.slot p.off) p.len then some 0x05 else none
  else some 0x01

def xReads (op : Nat) (o : Ops88) : List Nat :=
  if op = 1 then (if (xDecOp o).src.tier = 0 then [(xDecOp o).src.idx] else [])
  else if op = 2 then slotsOf (slotAddr (xEncOp o).src) (xEncOp o).len
  else if op = 4 then slotsOf (addr16 (xSealOp o).slot (xSealOp o).off) (xSealOp o).len
  else []

/-- R370: 40 cycles plus one per 64 bytes. -/
def xCycles (n : Nat) : Nat := 40 + ceilDiv n 64

/-- R369 item 1: KIND, TENANT, KEYID and TAG in that order, zero-padded to 32 bytes. -/
def tileAad (kind tenant keyid tag : Nat) : List Byte := leBytes 32 (kind + tenant * 2 ^ 4 + keyid * 2 ^ 16 + tag * 2 ^ 48)

def descAad (d : BitVec 512) : List Byte := tileAad (dKind d) (fld d 20 12) (fld d 96 32) (fld d 128 128)

/-- R370: a handle of another Glade, of another tenant, or none at all. -/
def keyScope (s : State) (g : Nat) (handle : Nat) (tenant : Option Nat) : Option VKey :=
  match AMap.get none s.keys.handles handle with
  | none => none
  | some v =>
    if (v.glade.isNone || v.glade == some g) && (tenant.isNone || v.tenant == tenant) then some v else none

/-- The payload of a reference, and its descriptor. -/
def xSource (s : State) (k : Core) (r : TileRef) (n : Nat) : List Byte := cellsBytes (refCells s k r 0 n) n

/-- Put a result of an X instruction into a slot, FILLING. -/
def xWrite (k : Core) (n : Nat) (bytes : List Byte) (d : BitVec 512) : Core :=
  setSlotDesc (engineWrite k [n] [(slotAddr n, bytes)]) n d

/-- R368: a GCM nonce of a sealed segment, and its additional data (R366). -/
def segNonce (rid : W64) (number : Nat) : List Byte := leBytes 4 (2 ^ 31 + number) ++ leBytes 8 rid.toNat
def segAad (rid : W64) (number : Nat) (final : Bool) : List Byte :=
  leBytes 8 rid.toNat ++ leBytes 4 number ++ leBytes 4 (if final then 1 else 0)

/-- A segment's size in its output buffer (R397). -/
def segmentSize (c : Nat) : Nat := roundUp (48 + c) 64

/-- Write one sealed segment outward. -/
def writeSegment (s : State) (e : OutEntry) (key : BitVec 256) (plain : List Byte) : State :=
  let (ct, tag) := gcmSeal (keyBytes key) (segNonce e.req.rid e.number) (segAad e.req.rid e.number e.final) plain
  { s with host := s.host ++ [.segment e.req e.number e.final ct tag] }

/-- Wait on a slot gate, else go on. -/
def afterGate (g : Gate) (r : BeginS) : BeginS :=
  match g with
  | .pass => r
  | .fail n => .fail 0x06 n
  | .hold _ => .wait

/-- The access of an X instruction to a T2 tile, as it stands in the tile's queue (R215). -/
def xAccess (c id : Nat) (r : TileRef) : List TileWait := if r.tier = 0 then [] else [⟨tileKey r, c, id, 0, false⟩]

/-- The source of an X instruction, in its turn at its tile. -/
def tileRead1 (s : State) (c : Nat) (k : Core) (g id : Nat) (r : TileRef) : CopyGate :=
  match sourceGate s k g r with
  | .pass => if (xAccess c id r).all (tileTurn s) then .pass else .queue
  | x => x

/-- An X instruction starts (R368 to R370). -/
def xBegin (s : State) (c : Nat) (k : Core) (u : UnitDesc) (f : Flight) : BeginS :=
  let op := f.word.opcode
  let o := f.word.o
  if op = 1 then
    let p := xDecOp o
    match tileRead1 s c k u.glade f.id p.src with
    | .wait => .wait
    | .queue => .park (queueTiles s (xAccess c f.id p.src))
    | .fail a b => .fail a b
    | .poisoned _ => .wait
    | .pass =>
      let d := sourceDesc s k p.src
      let n := dLength d
      let t : Ticket := ⟨u.glade, 0, c, f.id, 0⟩
      match keyScope s u.glade (if p.ksrc then p.key else fld d 96 32) (if bitOf d 15 then some (fld d 20 12) else none) with
      | none => .fail 0x16 0
      | some v =>
        afterGate (writeGate k engX false [p.slot])
          (match drawTokens s u.glade .t2 (if p.src.tier = 1 then n else 0) (unitReserved u) t with
           | none => .park (holdTicket s t)
           | some s1 =>
             match gcmOpen (keyBytes v.key) (leBytes 12 (fld d 256 96)) (descAad d) (xSource s1 k p.src n) (leBytes 16 (fld d 352 128)) with
             | none => .fail 0x15 0
             | some pl => .go (leaveTiles s1 (xAccess c f.id p.src)) (xWrite k p.slot pl (setFld 0#512 32 15 n)) { f with
                 started := true, writes := [p.slot], cycles := xCycles n })
  else if op = 2 then
    let p := xEncOp o
    afterGate ((readGate k f.reads).and (writeGate k engX false [p.dst]))
      (match keyScope s u.glade p.key (some p.tenant) with
       | none => .fail 0x16 0
       | some v =>
         let nonce := leBytes 12 (Config.freeGcmNonce s.freeCount).toNat
         let old := slotDesc k p.dst
         let (ct, tag) := gcmSeal (keyBytes v.key) nonce (tileAad 5 p.tenant p.key (fld old 128 128)) (readBytes k.bytes (slotAddr p.src) p.len)
         let d := setFld (setFld (setFld old 2 4 5) 12 1 1) 15 1 1
         let d := setFld (setFld (setFld d 20 12 p.tenant) 32 15 p.len) 96 32 p.key
         let d := setFld (setFld d 256 96 (leNat nonce)) 352 128 (leNat tag)
         .go (drawn s) (xWrite k p.dst ct d) { f with started := true, writes := [p.dst], cycles := xCycles p.len })
  else if op = 3 then
    let p := xOpenOp o
    match AMap.get none s.keys.objects p.obj with
    | none => .fail 0x01 0
    | some ob =>
      if !ob.verified || !ob.tiles.contains p.tile then .fail 0x01 0
      else match tileRead1 s c k u.glade f.id ⟨1, p.tile⟩ with
        | .wait => .wait
        | .queue => .park (queueTiles s (xAccess c f.id ⟨1, p.tile⟩))
        | .fail a b => .fail a b
        | .poisoned _ => .wait
        | .pass =>
          match keyScope s u.glade ob.key none with
          | none => .fail 0x16 0
          | some v =>
            let off := ob.tiles.findIdx (· == p.tile) * tileBytes
            let n := min tileBytes (ob.length - off)
            let t : Ticket := ⟨u.glade, 0, c, f.id, 0⟩
            afterGate (writeGate k engX false [p.slot])
              (match drawTokens s u.glade .t2 n (unitReserved u) t with
               | none => .park (holdTicket s t)
               | some s1 =>
                 let pl := gcmCtr (aesKeys (keyBytes v.key)) (leBytes 12 ob.nonce.toNat) (2 + off / 16) (xSource s1 k ⟨1, p.tile⟩ n)
                 .go (leaveTiles s1 (xAccess c f.id ⟨1, p.tile⟩)) (xWrite k p.slot pl (setFld 0#512 32 15 n)) { f with
                   started := true, writes := [p.slot], cycles := xCycles n })
  else
    let p := xSealOp o
    match AMap.get none s.keys.outputs p.desc with
    | none => .fail 0x01 0
    | some e =>
      match keyScope s u.glade e.key none with
      | none => .fail 0x16 0
      | some v =>
        afterGate (readGate k f.reads)
          (match drawTokens s u.glade .hostOut (segmentSize p.len) (unitReserved u) ⟨u.glade, 3, c, f.id, 0⟩ with
           | none => .park (holdTicket s ⟨u.glade, 3, c, f.id, 0⟩)
           | some s1 => .go (writeSegment s1 e v.key (readBytes k.bytes (addr16 p.slot p.off) p.len)) k { f with
               started := true, cycles := xCycles p.len })

end Sys2Proof.Machine
end

