-- ==== Sys2Proof/Machine/Requests.lean ====
section
/-!
DEFINITION. Requests in progress: principals and their rights (R371, R372), segments (R38, R39, R397, R560), result areas (R415), item
reports (R286, R404), and how a request of each kind ends.
-/
namespace Sys2Proof.Machine

/-! ### Principals (R371) -/

def operOf (s : State) (n : Nat) : Option OperBind := s.prot.store.bind (fun t => AMap.get none t.opers n)
def tenOf (s : State) (n : Nat) : Option TenBind := s.prot.store.bind (fun t => AMap.get none t.tens n)

/-- The Glades an operator session is bound to. -/
def operGlades (s : State) (x : Session) : Byte := ((operOf s x.principal).map (·.glades)).getD 0#8

def isOwner (x : Session) : Bool := x.role == 0
def isOper (x : Session) : Bool := x.role == 1
def isTenant (x : Session) : Bool := x.role == 2

/-- Operator rights: bits 0 INDEX, 1 TABLE, 2 INGEST, 3 DELETE, 4 LOG (R411). -/
def operRight (s : State) (x : Session) (b : Nat) : Bool :=
  isOper x && (match operOf s x.principal with | some o => bitOf o.rights b | none => false)

/-- Tenant rights: bits 0 RETRIEVE, 1 GENERATE, 2 WRITE, 3 DELETE (R411). -/
def tenRight (s : State) (x : Session) (b : Nat) : Bool :=
  isTenant x && (match tenOf s x.principal with | some t => bitOf t.rights b | none => false)

def granted (s : State) (x : Session) (handle : Nat) : Bool :=
  match tenOf s x.principal with | some t => t.grants.contains handle | none => false

/-- The Glade of a session's own requests: a tenant's Glade. -/
def sessionGlade (s : State) (x : Session) : Option Nat := if isTenant x then (tenOf s x.principal).map (·.glade) else none
def sessionTenant (x : Session) : Option Nat := if isTenant x then some x.principal else none

/-- Loaded indexes, those dropped and still held, and those still loading, included; `loadedIndex` leaves those out. A lost index stays
loaded until INDEX_DROP (R506, R510). -/
def heldIndex (s : State) (h : Nat) : Option Index := s.idx.loaded.find? (fun i => i.handle == h)
def loadedIndex (s : State) (h : Nat) : Option Index := s.idx.loaded.find? (fun i => i.handle == h && !i.dropped && i.current != 0)
/-- R506: new requests against a lost index complete with ST_FAULT. -/
def lostIndex (s : State) (h : Nat) : Bool := match loadedIndex s h with | some i => i.lost | none => false
def putIndex (s : State) (i : Index) : State :=
  { s with idx := { s.idx with loaded := s.idx.loaded.map (fun x => if x.handle == i.handle then i else x) } }

/-- An index belongs to the Glade of its owner tenant (R371). -/
def indexGlade (s : State) (i : Index) : Option Nat := (tenOf s i.body.ownerTenant).map (·.glade)

def operHasGlade (s : State) (x : Session) (g : Option Nat) : Bool :=
  match g with | some n => decide (n < 8) && bitOf (operGlades s x) n | none => false

/-- A principal's stored credential. -/
def credOf (s : State) (role principal : Nat) : Option Cred :=
  match role with
  | 0 => s.prot.store.bind (·.owner)
  | 1 => (operOf s principal).bind (·.cred)
  | _ => (tenOf s principal).bind (·.cred)

def policyDefault : Policy := ⟨0x07#8, 600000, 86400, 900, 0#8⟩
def policyOf (s : State) : Policy := ((s.prot.store).map (·.policy)).getD policyDefault

/-- A credential in breach of the key policy (R375, R376). -/
def breach (p : Policy) (role : Nat) (c : Cred) : Bool := c.password && (!bitOf p.passwords role || decide (c.iterations < p.iterations))

/-! ### Images -/

/-- The image with a serial number, current or outgoing. -/
def imageOf (s : State) (n : Nat) : Option Img :=
  match s.images.current with
  | some i => if i.serial = n then some i else s.images.outgoing.filter (fun o => o.serial == n)
  | none => s.images.outgoing.filter (fun o => o.serial == n)

def vocabOf (s : State) (n : Nat) : Option Vocab := (imageOf s n).map (fun i => i.info.vocab)

/-- A row of a plan table (R434): time and power of the first row that covers the size. -/
def planRow (m : ImageMeta) (k : PlanKind) (size : Nat) : Option PlanRow := m.plan.find? (fun r => r.kind == k && decide (size ≤ r.upto))
def planTime (m : ImageMeta) (k : PlanKind) (size : Nat) : Option Nat := (planRow m k size).map (·.time)

/-! ### Segments (R38, R39, R366, R397, R560) -/

def sessionKey (s : State) (session : Nat) : Nat :=
  match s.prot.sessions.find? (fun x => x.id == session) with
  | some x => x.key
  | none => ((s.prot.leaving.find? (fun x => x.1 == session)).map (·.2)).getD 0

def keyValue (s : State) (h : Nat) : BitVec 256 := ((AMap.get none s.keys.handles h).map (·.key)).getD 0#256

/-- The next free number of a table. -/
def freeNumber {α : Type} (m : AMap α) : Nat := (match m.getLast? with | some p => p.1 + 1 | none => 1)

/-- Make a key handle (R363). -/
def addKey (s : State) (key : BitVec 256) (purpose : Purpose) (glade tenant : Option Nat) : State × Nat :=
  let n := freeNumber s.keys.handles
  ({ s with keys := { s.keys with handles := AMap.put none s.keys.handles n (some ⟨key, 0#256, purpose, glade, tenant, s.chip.step⟩) } }, n)

/-- Set the second half of a 512-bit key (R362). -/
def setHalf (s : State) (n : Nat) (half : BitVec 256) : State :=
  { s with keys := { s.keys with handles := AMap.put none s.keys.handles n ((AMap.get none s.keys.handles n).map (fun k => { k with half := half })) } }

/-- Zero a key (R381). -/
def dropKey (s : State) (n : Nat) : State := { s with keys := { s.keys with handles := AMap.put none s.keys.handles n none } }

/-- Write the next segment of a request: Wenik's output entry, and the sealed bytes. -/
def putSegment (s : State) (q : Req) (v : Serve) (final : Bool) (bytes : List Byte) : State × Serve :=
  let s := chargeTokens s (q.glade.getD 8) .hostOut (segmentSize bytes.length) true
  let e : OutEntry := ⟨q.id, v.segs + 1, final, v.outUsed, sessionKey s q.session⟩
  let s := { s with keys := { s.keys with outputs := AMap.put none s.keys.outputs (freeNumber s.keys.outputs) (some e) } }
  (writeSegment s e (keyValue s e.key) bytes, { v with segs := v.segs + 1, outUsed := v.outUsed + segmentSize bytes.length })

/-- R39: does a segment that is not final fit with 64 bytes left after it? -/
def segFits (v : Serve) (n : Nat) : Bool := decide (v.outUsed + segmentSize n + 64 ≤ v.outLen)

/-- The greatest byte count whose segment fits the space left. -/
def lastRoom (v : Serve) : Nat := (v.outLen - v.outUsed) / 64 * 64 - 48

/-! ### Results (R415) -/

/-- Lists probed by a search that ran `v.stage` stages (R273, R275). -/
def listsProbed (v : Serve) : Nat :=
  let l := min (v.p * 2 ^ (v.stage - 1)) v.pMax
  match v.found with | some o => min l o.ranked | none => 0

def foundCount (v : Serve) : Nat := match v.found with | some o => o.entries.length | none => 0

/-- Flags of R275: SHORT, WIDENED. -/
def searchFlags (v : Serve) : Nat := (if foundCount v < v.k then 1 else 0) + (if 1 < v.stage then 2 else 0)

def serveResult (v : Serve) (deadEnd : Bool) : List (Nat × Nat × Nat) :=
  let gen := [(0, 4, v.prompt.length), (4, 4, v.gen.length), (8, 8, v.seed.toNat), (28, 4, v.segs), (32, 4, if deadEnd then v.gstate else 0)]
  match v.kind with
  | 0 => [(0, 4, v.version), (4, 4, foundCount v), (8, 4, listsProbed v), (12, 1, v.stage), (13, 1, searchFlags v)]
  | 1 => gen
  | _ => gen ++ [(16, 4, v.conf.toNat), (20, 2, foundCount v), (22, 2, v.whole), (24, 2, v.cut), (26, 2, v.skipped), (36, 4, v.version)]

/-- The question-truncated and retrieval-short flags (R43, R393). -/
def serveFlags (v : Serve) : Nat :=
  (if v.truncated then fgTruncated else 0) + (if v.kind != 1 && v.found.isSome && decide (foundCount v < v.k) then fgShort else 0)

def serveEnding (v : Serve) (status detail flags : Nat) : Ending := ⟨status, detail, flags + serveFlags v, serveResult v (status == stDeadEnd)⟩

/-- R43 (R335 for QUERY and GENERATE): the status of a natural end. -/
def naturalStatus (v : Serve) : Nat :=
  if v.truncated then stTruncated
  else if (v.kind != 1 && decide (foundCount v < v.k)) || (v.kind == 2 && v.whole + v.cut == 0) then stShort
  else stOk

/-- Complete a retrieval or generation that ends now, with no final segment (R42, R560). -/
def endServe (s : State) (q : Req) (v : Serve) (status detail flags : Nat) : State := completeReq s q (serveEnding v status detail flags)

/-! ### Items (R286, R404) -/

def itemPassages (i : ItemState) : Nat := match i.staged with | some l => l.length | none => 0
def itemOk (i : ItemState) : Bool := i.status == some stOk || i.status == some stTruncated
def placedOf (i : ItemState) : Nat := if itemOk i then itemPassages i else 0

def itemReport (i : ItemState) : List Byte :=
  leBytes 2 (i.status.getD 0) ++ leBytes 2 0 ++ leBytes 4 (placedOf i) ++ leBytes 6 (if itemOk i then i.first else 0) ++ leBytes 2 0

/-- The completion of INGEST and INSERT: status, counts and hint (R286, R415). -/
def itemsEnding (l : List ItemState) (detail flags hint : Nat) : Ending :=
  let ok := l.filter itemOk
  let status := match l.find? (fun i => !itemOk i) with
    | some i => i.status.getD stOk
    | none => if l.any (fun i => i.status == some stTruncated) then stTruncated else stOk
  ⟨status, detail, flags + fgReport, [(0, 4, ok.length), (4, 4, l.length - ok.length), (8, 8, (l.map placedOf).foldl (· + ·) 0),
    (16, 4, if l.any (fun i => i.status == some stBusy) then min hint 4294967295 else 0)]⟩

/-- The object data keys of decided items are zeroed (R363, R381). -/
def dropItemKeys (s : State) (l : List ItemState) : State :=
  (l.filter (fun i => i.status.isSome && i.key != 0)).foldl (fun s i => dropKey s i.key) s

/-- The report is written with the completion (R404). -/
def endItems (s : State) (q : Req) (l : List ItemState) (detail flags hint : Nat) : State :=
  completeReq (putOutput (dropItemKeys s l) q.id (l.flatMap itemReport)) q (itemsEnding l detail flags hint)

/-- Items not decided yet take a status. -/
def closeItems (l : List ItemState) (status : Nat) : List ItemState :=
  l.map (fun i => if i.status.isSome then i else { i with status := some status, accepted := false })

/-! ### The end of a request by an event: CANCEL, withdrawn rights, fault, recovery, link reset -/

/-- Give up a merge before its swap (R298). -/
def dropMerge (s : State) (handle : Nat) : State :=
  let s := { s with changes := s.changes.filter (fun c => c != .snapshot handle && c != .swap handle) }
  match heldIndex s handle with | some i => putIndex s { i with merge := none } | none => s

/-- A sequence leaves with its own ending: its final segment, then its record (R40, R319, R560). -/
def leaveSeq (s : State) (q : Req) (v : Serve) (e : Ending) : State :=
  let (s1, v1) := putSegment s q v true v.released
  endServe s1 q { v1 with released := [] } e.status e.detail e.flags

/-- Microseconds to the next step boundary by the step's plan (log 18). -/
def boundaryWait (s : State) : Nat := s.sched.start + s.sched.length - s.time

/-- A hint's range (R437): at least 1 µs and the time to the next boundary, at most 2³² − 1. -/
def hintRange (s : State) (n : Nat) : Nat := min 4294967295 (max (max 1 (boundaryWait s)) n)

/-- R45, R330: the token of the ending step is discarded and not counted as generated. -/
def discardToken (v : Serve) : Serve := if v.fresh then { v with gen := v.gen.dropLast, fresh := false, released := [] } else v

/-- A retrieval or generation ends by an event. Its own ending prevails over CANCEL and withdrawn rights (R44); inside a run, a sequence of
the batch that these end does so at the next boundary that begins an iteration (R10), by the change accepted first (R44). -/
def endSequence (s : State) (q : Req) (v : Serve) (status detail flags : Nat) : State :=
  let byChange := status == stCancelled || status == stDenied
  match v.ending with
  | some e => if byChange then leaveSeq s q v e else endServe s q v status detail flags
  | none => if byChange && s.sched.inside && decide (2 ≤ v.seq) then setJob s q (.serve { v with doomed := some (v.doomed.getD ⟨status, detail, flags, none⟩) })
            else endServe s q (if byChange then discardToken v else v) status detail flags

/-- A table change is given up: the rows of an update of this boundary are not written, later than that they still are (R199); a
replacement's space is free, and the replicas of its pinned rows go (R200). -/
def dropTable (s : State) (r : ReqId) : State :=
  let gone := s.tabs.replaces.filter (fun x => x.req == r)
  let homes := gone.flatMap (fun x => match x.ready with | some v => (pinnedRows s v).map (rowHome v) | none => [])
  let s := homes.foldl demote s
  let s := gone.foldl (fun s x => match x.ready with | some v => freeRange s v.base x.bytes | none => s) s
  let stop := s.tabs.applying.filter (fun a => a.req == r && a.since == s.chip.step)
  let s := stop.foldl (fun s a => match versionAt s a.table a.version with
    | some v => a.rows.foldl (fun s x => unlockRow s v x) s
    | none => s) s
  { s with tabs := { s.tabs with
    replaces := s.tabs.replaces.filter (fun x => x.req != r)
    applying := s.tabs.applying.filter (fun a => !stop.contains a) } }

/-- Wenik ends a request with a status: partial work of its kind is given up, and the record is written. -/
def endRequest (s : State) (q : Req) (status detail flags : Nat) : State :=
  match q.job with
  | .serve v => endSequence s q v status detail flags
  | .items _ _ _ l => endItems s q (closeItems l status) detail flags 4294967295
  | .merge h => completeReq (dropMerge s h) q ⟨status, detail, flags, []⟩
  | .index _ h _ =>
    let back := s.idx.loaded.filter (fun i => i.handle == h && i.current == 0 && i.snapshot.isSome && !s.idx.flashOnly.any (fun x => x.handle == h))
    completeReq { s with idx := { s.idx with
      loaded := s.idx.loaded.filter (fun i => i.handle != h || i.current != 0), flashOnly := s.idx.flashOnly ++ back } } q ⟨status, detail, flags, []⟩
  | .proof n => completeReq { s with prot := { s.prot with challenges := s.prot.challenges.filter (fun c => c.id != n) } } q
      ⟨status, detail, flags, []⟩
  | .setForm _ => completeReq (setGroveState { s with grove := { s.grove with forming := none } } 0) q ⟨status, detail, flags, []⟩
  | .table _ _ => completeReq (dropTable s q.id) q ⟨status, detail, flags, []⟩
  | _ => completeReq s q ⟨status, detail, flags, []⟩

/-- A sequence of the session runs on in the iteration that a close inside its run has not stopped (R10). -/
def seqLeaving (s : State) (session : Nat) : Bool :=
  s.reqs.any (fun q => q.session == session && (match q.job with | .serve v => v.doomed.isSome | _ => false))

/-- Close a session: its key is zeroed, once no sequence of it runs on; `reason` is kept for requests taken later (R379). -/
def closeSession (s : State) (x : Session) (reason : Option Nat) : State :=
  let s := if seqLeaving s x.id then { s with prot := { s.prot with leaving := s.prot.leaving ++ [(x.id, x.key)] } } else dropKey s x.key
  { s with prot := { s.prot with
      sessions := s.prot.sessions.filter (fun y => y.id != x.id)
      closed := s.prot.closed ++ (match reason with | some r => [(x.id, x.func, r)] | none => []) } }

/-- The keys of closed sessions whose last sequence has left are zeroed. -/
def dropLeaving (s : State) : State :=
  let gone := s.prot.leaving.filter (fun x => !seqLeaving s x.1)
  gone.foldl (fun s x => dropKey s x.2) { s with prot := { s.prot with leaving := s.prot.leaving.filter (seqLeaving s ·.1) } }

/-- R379: a session closed by a change ends its requests with ST_DENIED, CLOSED and the reason; the change's own request is not ended. -/
def closeByChange (s : State) (x : Session) (reason : Nat) (but : Option ReqId) : State :=
  let s := (s.reqs.filter (fun q => q.session == x.id && some q.id != but)).foldl (fun s q => endRequest s q stDenied reason fgClosed) s
  closeSession s x (some reason)

/-- Close every session of a principal (R379). -/
def closePrincipal (s : State) (role principal reason : Nat) (but : Option ReqId) : State :=
  (s.prot.sessions.filter (fun x => x.role == role && x.principal == principal)).foldl (fun s x => closeByChange s x reason but) s

end Sys2Proof.Machine
end

