-- ==== Sys2Proof/Machine/Sets.lean ====
section
/-!
DEFINITION. Module sets: membership, layouts and readiness (R450, R453, R456), and changes that wait for every member (R66, R204,
R306, R455).
-/
namespace Sys2Proof.Machine

def portReset : Port := ⟨0, 0, 0, 0, 0#8, 0, false, false, false, false, false, 0, 0, 0, [], 0, 0, 0⟩
def portAt (s : State) (p : Nat) : Port := AMap.get portReset s.grove.ports p
def setPort (s : State) (p : Nat) (x : Port) : State := { s with grove := { s.grove with ports := AMap.put portReset s.grove.ports p x } }

/-- The set this module is a member of: membership stands in the store, and the set is formed or degraded. -/
def memberSet (s : State) : Option SetBody :=
  if s.grove.state = 2 || s.grove.state = 3 then s.prot.store.bind (·.set) else none

def inSet (s : State) : Bool := (memberSet s).isSome

/-- N, or 1 outside a set. -/
def memberCount (s : State) : Nat := match memberSet s with | some b => b.n | none => 1
def memberIndex (s : State) : Nat := match memberSet s with | some b => b.index | none => 0

def peersOf (s : State) : List Nat := (List.range (memberCount s)).filter (· != memberIndex s)

def presentMember (s : State) (m : Nat) : Bool := bitOf s.grove.present m
def readyMember (s : State) (m : Nat) : Bool := bitOf s.grove.ready m

/-- R456: every member present and ready; true outside a set. -/
def setAllReady (s : State) : Bool := (peersOf s).all (fun m => presentMember s m && readyMember s m)

/-- The leader (R455): the present member with the lowest index. -/
def leaderOf (s : State) : Nat := ((List.range (memberCount s)).find? (fun m => presentMember s m)).getD (memberIndex s)

/-- Ports enabled in GL_CTRL (R478). -/
def portsEnabled (s : State) : Nat := ((List.range 8).filter (fun p => bitOf s.grove.porten p)).length

/-- R455: every other member has accepted the change that this request asks for. -/
def peersAccepted (s : State) (r : ReqId) : Bool := (peersOf s).all (fun m => s.grove.accepts.contains (m, r))

/-- A peer has reported that it cannot carry out this request. -/
def peerFailed (s : State) (r : ReqId) : Bool := s.grove.failed.any (fun f => f.2 == r)

/-- R450: the member at the far end of a port, and the far port. -/
def layoutPeer (n m p : Nat) : Nat × Nat :=
  let x := m % 4
  let y := m / 4
  let at_ := fun (x y : Nat) => 4 * y + x
  if n = 2 then (m ^^^ 1, p)
  else if n = 4 then (if p < 4 then (m ^^^ 1, p) else (m ^^^ 2, p))
  else
    let far := if p % 4 < 2 then p + 2 else p - 2
    if p < 2 then (at_ ((x + 1) % 4) y, far)
    else if p < 4 then (at_ ((x + 3) % 4) y, far)
    else if n = 8 then (m ^^^ 4, p)
    else if p < 6 then (at_ x ((y + 1) % 4), far)
    else (at_ x ((y + 3) % 4), far)

/-! ### Frames sent (R447, R448, R450) -/

/-- N and the member index of the set this module is in or is forming. -/
def layoutOf (s : State) : Option (Nat × Nat) :=
  match memberSet s with
  | some b => some (b.n, b.index)
  | none => s.grove.forming.map (fun f => (f.body.n, f.body.index))

/-- The next member on the way from `m` to `t`: along x first, then along y (R450). -/
def nextHop (n m t : Nat) : Nat :=
  let ring := fun (a b : Nat) => if (b + 4 - a) % 4 = 3 then (a + 3) % 4 else (a + 1) % 4
  if n = 2 then t
  else if n = 4 then (if m % 2 != t % 2 then m ^^^ 1 else m ^^^ 2)
  else if m % 4 != t % 4 then 4 * (m / 4) + ring (m % 4) (t % 4)
  else if n = 8 then m ^^^ 4
  else 4 * ring (m / 4) (t / 4) + m % 4

def portUp (s : State) (p : Nat) : Bool := (portAt s p).state == 2 || (portAt s p).state == 3

/-- The nonce of a frame (R447): direction, port and sequence number. The direction bit is set on frames from the higher member index (log 20). -/
def frameNonce (s : State) (p seq : Nat) : List Byte :=
  let up := match layoutOf s with | some (_, me) => decide ((portAt s p).peer < me) | none => false
  beBytes 12 ((if up then 2 ^ 95 else 0) + p * 2 ^ 92 + seq)

/-- A frame as it crosses the link (R447): its header, with the sequence number and the payload's length (the model's layout, log 20), the
payload enciphered under the port's own key, and the tag, which covers the header too. -/
def frameBytes (s : State) (p seq : Nat) (payload : List Byte) : List Byte :=
  let head := leBytes 8 seq ++ leBytes 4 payload.length ++ leBytes 20 0
  let (c, tag) := gcmSeal (keyBytes (keyValue s (portAt s p).key)) (frameNonce s p seq) head payload
  head ++ c ++ tag

/-- Send a frame on a port: the last 64 are kept until they are acknowledged (R448). -/
def sendPort (s : State) (p : Nat) (payload : List Byte) : State :=
  let x := portAt s p
  let bytes := frameBytes s p (x.txSeq + 1) payload
  let l := x.unacked ++ [(x.txSeq + 1, bytes)]
  { setPort s p { x with txSeq := x.txSeq + 1, unacked := l.drop (l.length - 64) } with host := s.host ++ [.frame p bytes] }

/-- Send a frame to a member, on the first port up toward its next hop. -/
def sendTo (s : State) (m : Nat) (bytes : List Byte) : State :=
  match layoutOf s with
  | some (n, me) =>
    (match (List.range 8).find? (fun p => portUp s p && (layoutPeer n me p).1 == nextHop n me m) with
     | some p => sendPort s p bytes
     | none => s)
  | none => s

/-- A message about a request to every other member, as a CONTROL frame (R447; its contents are the model's, log 20). -/
def tellPeers (s : State) (kind : Nat) (r : ReqId) : State :=
  let peers := match layoutOf s with | some (n, me) => (List.range n).filter (· != me) | none => []
  peers.foldl (fun s m => sendTo s m (leBytes 1 kind ++ leBytes 1 r.func.toNat ++ leBytes 8 r.rid.toNat)) s

end Sys2Proof.Machine
end

