-- ==== Sys2Proof/Machine/Dispatcher.lean ====
section
/-!
DEFINITION. The dispatcher: issue in program order (R86), tokens (R87 to R89), dispatcher operations (R84), slot release (R90), plan
errors (R91), the stop of a unit and the start of its Clearing (R94, R501), and the starts of the seven engines (R82).
-/
namespace Sys2Proof.Machine

/-! ### Clearing (R94, R501, R503) -/

/-- Sites that may serve as spares: the default spares of R78, and the places of logical cores that have moved. -/
def spareSites (s : State) : List Nat := defaultSpares ++ s.chip.homes.map (fun p => homeSite p.1)

/-- Unused spare sites: neither fenced nor known bad, no logical core on them, no Clearing replaying there. -/
def unusedSpares (s : State) : List Nat :=
  (spareSites s).filter (fun p =>
    !s.chip.fenced.contains p && !s.chip.knownBad.contains p && !s.chip.homes.any (fun h => h.2 == some (some p))
      && !s.chip.clearings.any (fun c => c.quarantine == some p))

def insertNat (n : Nat) : List Nat → List Nat
  | [] => [n]
  | x :: r => if n ≤ x then n :: x :: r else x :: insertNat n r

def sortNat (l : List Nat) : List Nat := l.foldr insertNat []

def setHas {α : Type} [BEq α] (l : List α) (x : α) : List α := if l.contains x then l else l ++ [x]

/-- The quarantine sites in order: unused spares, then held-back cores that run no unit (R74, R503). -/
def quarantineSites (s : State) : List Nat :=
  sortNat (unusedSpares s) ++ ((s.chip.heldBack.filter (fun c => (coreOf s c).run.isNone)).filterMap (siteOf s)).filter (fun p =>
    !s.chip.fenced.contains p && !s.chip.clearings.any (fun c => c.quarantine == some p))

/-- A unit at its start on a core: nothing presented, nothing issued (R85, R87, R90, R119, R142). -/
def runOf (d : UnitDesc) (buffer : List W128) (replay : Bool) : Running := ⟨d, buffer, 0, [], [], 0, false, replay, .none⟩

def startCore (k : Core) (r : Running) : Core :=
  { k with power := .issuing, run := some r, ahead := none, tokens := [], slots := [], descs := [], bytes := [], scalars := [],
           active := planeEmpty, shadow := planeEmpty, flights := [] }

/-- The program words of a unit (R85). -/
def programOf (s : State) (d : UnitDesc) : List W128 :=
  (List.range d.count).map (fun i => BitVec.ofNat 128 (leNat (devBytes s (d.program + 16 * i) 16)))

/-- The core of a Clearing's replays: its quarantine site's (R503). -/
def replayCore (cl : Clearing) : Nat := 512 + cl.quarantine.getD 0

/-- The replay of a Clearing's current suspects on its quarantine core (R501, log 15). -/
def replayStart (s : State) (cl : Clearing) : State :=
  setCore s (replayCore cl) (startCore coreOff (runOf { cl.unit with members := if cl.unit.members.isEmpty then [] else cl.current }
    (programOf s cl.unit) true))

/-- At most two Clearings run at once; the next waiting one takes the first free quarantine site (R503). -/
def assignQuarantine (s : State) : State :=
  if decide (2 ≤ (s.chip.clearings.filter (fun c => c.quarantine.isSome)).length) then s
  else match s.chip.clearings.find? (fun c => c.quarantine.isNone), quarantineSites s with
    | some cl, q :: _ =>
      let cl' := { cl with quarantine := some q }
      let s1 := { s with chip := { s.chip with clearings := s.chip.clearings.map (fun c =>
        if c.unit.unitId == cl.unit.unitId then cl' else c) } }
      replayStart s1 cl'
    | _, _ => s

def reqLe (a b : ReqId) : Bool := decide (a.rid.toNat < b.rid.toNat) || (a.rid == b.rid && decide (a.func.toNat ≤ b.func.toNat))

def insertReq (r : ReqId) : List ReqId → List ReqId
  | [] => [r]
  | x :: l => if reqLe r x then r :: x :: l else x :: insertReq r l

/-- R501 item 3: the owner, or every member of a batch unit, in ascending request ID. -/
def suspectsOf (d : UnitDesc) : List ReqId :=
  match d.owner with
  | some r => [r]
  | none => d.members.foldr insertReq []

/-- The logical core that a core's unit was assigned to: for a replay, the one that its unit stopped on. -/
def logicalCore (s : State) (c : Nat) : Nat :=
  match s.chip.clearings.find? (fun cl => decide (512 ≤ c) && replayCore cl == c) with
  | some cl => cl.core
  | none => c

/-- The error-log record of a stop (R94): kind 1, or kind 2 for the Clearing that follows. -/
def stopRecord (s : State) (c : Nat) (d : UnitDesc) (kind : Nat) (st : Stop) : LogRec :=
  { logNone with
    kind := kind, code := st.code, func := (d.owner.map (fun r => r.func.toNat)).getD 0, glade := d.glade
    rid := (d.owner.map (fun r => r.rid)).getD 0#64, unit := d.unitId, core := logicalCore s c, site := (siteOf s c).getD 0xFFFF
    index := st.index, engine := st.engine, detail := BitVec.ofNat 128 st.which }

/-- R94: the copies in execution of a stopped core complete: their T2 and T3 tiles are FULL. -/
def endCopies (s : State) (k : Core) : State :=
  (k.flights.flatMap (fun f => match f.work with | .copies l => l.filter (fun x => x.state == .flying && x.dst.tier != 0) | _ => [])).foldl
    (fun s x => setTile s (tileKey x.dst) (setDState (tileDesc s (tileKey x.dst)) tileFull)) s

/-- What a stopped core held elsewhere: its places in the queues of the regulators and of the tiles. -/
def dropHolds (s : State) (c : Nat) : State :=
  { s with holds := s.holds.filter (fun h => h.core != c), media := { s.media with waits := s.media.waits.filter (fun w => w.core != c) } }

/-- R94: issue stops, results in execution are discarded, the site is fenced and power-gated, the logical core moves at the next
boundary, and the Clearing starts. A stop within a replay is recorded and ends the replay's run. -/
def stopUnit (s : State) (c : Nat) (st : Stop) : State :=
  match (coreOf s c).run with
  | none => s
  | some r =>
    let s := dropHolds (endCopies s (coreOf s c)) c
    let s1 := logAdd s (stopRecord s c r.desc 1 st)
    if r.replay then setCore s1 c coreOff
    else
      let site := (siteOf s c).getD 0xFFFF
      let s1 := addDecision s1 1 0 site
      let s2 := setCore (logAdd s1 (stopRecord s c r.desc 2 st)) c coreOff
      let cl : Clearing := ⟨r.desc, c, site, st, none, true, suspectsOf r.desc, [], none, [], true, .none, s.time⟩
      assignQuarantine { s2 with
        chip := { s2.chip with
          fenced := setHas s2.chip.fenced site
          moves := setHas s2.chip.moves c
          clearings := s2.chip.clearings ++ [cl] } }

/-! ### Releases and completions (R87, R90) -/

/-- A started instruction still reads the slot. -/
def stillRead (k : Core) (n : Nat) : Bool := k.flights.any (fun f => f.started && f.reads.contains n)

/-- R90: a release takes a FULL slot to RELEASE-PENDING while a reader runs, to EMPTY otherwise. -/
def releaseSlot (k : Core) (n : Nat) : Core :=
  if slotOf k n = .full then (if stillRead k n then setSlot k n .releasePending else emptySlot k n) else k

/-- R90: a RELEASE-PENDING slot becomes EMPTY with its last running reader. -/
def settleSlot (k : Core) (n : Nat) : Core :=
  if slotOf k n = .releasePending && !stillRead k n then emptySlot k n else k

def putFlight (k : Core) (f : Flight) : Core := { k with flights := k.flights.map (fun g => if g.id == f.id then f else g) }
def dropFlight (k : Core) (f : Flight) : Core := { k with flights := k.flights.filter (fun g => g.id != f.id) }

/-- A started instruction has nothing left but to complete. -/
def flightDone (f : Flight) : Bool :=
  f.started && (match f.word.engine with
    | 0 => mDone f
    | 3 => (match f.work with | .gather _ _ _ _ l => gAllDone l | _ => true)
    | 4 => (match f.work with | .scan _ l => l.all (fun c => c.state == .done) | _ => true)
    | 5 => cDone f
    | _ => true)

/-- Completion: destinations FULL, the signal token SET, the slots it read released under RELEASE (R87, R90, R119, R135). -/
def completeFlight (s : State) (c : Nat) (f : Flight) : State :=
  let k := dropFlight (coreOf s c) f
  let (s, k) : State × Core := match f.word.engine, f.work with
    | 5, .copies l => (l.filter (fun (x : Copy) => x.state == .arrived)).foldl (fun (p : State × Core) x => copyFinish p.1 p.2 x) (s, k)
    | _, _ => (s, k)
  let k := f.writes.foldl (fun k n => setSlot k n .full) k
  let k := if f.word.engine = engM && f.word.opcode = 1 && k.shadow.state == .loading then { k with shadow := { k.shadow with state := .loaded } } else k
  let k := if f.word.h.sigen then setToken k f.word.h.sigtok.toNat .set else k
  let k := if f.word.h.release then f.rel.foldl releaseSlot k else k
  setCore s c (f.rel.foldl settleSlot k)

/-! ### Issue (R83 to R89) -/

/-- Waited tokens of an instruction. -/
def waited (h : Hdr) : List Nat := (if h.waen then [h.watok.toNat] else []) ++ (if h.wben then [h.wbtok.toNat] else [])

/-- The instruction index and the loops after an instruction at `pc` (R84). -/
def advanceLoops : List Frame → Nat → Nat × List Frame
  | [], pc => (pc, [])
  | f :: r, pc =>
    if pc = f.start + f.body then
      (if f.iter + 1 < f.count then (f.start, { f with iter := f.iter + 1 } :: r) else advanceLoops r pc)
    else (pc, f :: r)

/-- The LOOP iteration an instruction issues in: that of its innermost loop (log 16). -/
def iterOf (r : Running) : Nat := match r.frames with | [] => 0 | f :: _ => f.iter

/-- What an engine raises at issue. -/
def engineCheck (k : Core) (d : UnitDesc) (w : EWord) (it : Nat) : Option Nat :=
  match w.engine with
  | 0 => mCheck d w.opcode w.o
  | 1 => vCheck d w.opcode w.o it
  | 2 => sCheck d w.opcode w.o it
  | 3 => gCheck k d w.opcode w.o it
  | 4 => qCheck d w.opcode w.o
  | 5 => cCheck d w.opcode w.o
  | 6 => xCheck d w.opcode w.o
  | _ => some 0x01

def engineReads (k : Core) (w : EWord) (it : Nat) : List Nat :=
  match w.engine with
  | 0 => mReads k w.opcode w.o
  | 1 => vReads w.opcode w.o it
  | 2 => sReads w.o it
  | 3 => gReads w.o it
  | 4 => qReads w.opcode w.o
  | 5 => cReads w.opcode w.o
  | 6 => xReads w.opcode w.o
  | _ => []

/-- The T0 slots that an instruction is to write, as far as its operands and the slots they name give them. -/
def engineWrites (k : Core) (w : EWord) (it : Nat) : List Nat :=
  let o := w.o
  match w.engine with
  | 1 => vWrites w.opcode o it
  | 2 => sWrites o it
  | 3 => slotsOf (gAddrOut (gOp o) (gDesc k.bytes (gOp o).desc).width it) (gOutLen (gOp o) (gDesc k.bytes (gOp o).desc).width)
  | 4 => if w.opcode = 3 then slotsOf (qDrainOp o).out (64 + 16 * (collOf k (qDrainOp o).coll).k) else []
  | 5 => if w.opcode = 6 then [] else
      if w.opcode = 5 then (List.range (fld o 8 7 + 1)).map (· + fld o 0 8)
      else if w.opcode = 3 then (if (cPartOp o).toT2 then [] else [(cPartOp o).slot])
      else if w.opcode = 1 && (tileRef (fld o 34 34)).tier = 0 then (List.range (fld o 68 7 + 1)).map (· + (tileRef (fld o 34 34)).idx)
      else if w.opcode = 2 && (tileRef (fld o 18 34)).tier = 0 then (List.range (fld o 52 8 + 1)).map (· + (tileRef (fld o 18 34)).idx)
      else []
  | 6 => if w.opcode = 1 then [(xDecOp o).slot] else if w.opcode = 2 then [(xEncOp o).dst]
         else if w.opcode = 3 then [(xOpenOp o).slot] else []
  | _ => []

/-- The slot that a stop at issue concerns (R94): for SLOT_RANGE the first slot named outside the unit's allocation. -/
def slotConcerned (k : Core) (d : UnitDesc) (w : EWord) (it code : Nat) : Nat :=
  if code = 0x05 then
    let named := (if w.engine = engM then (if w.opcode = 1 then loadSlots (mloadOp w.o) else ringSlots (streamOp w.o) ++ loadSlots (streamOp w.o).lb)
      else engineReads k w it) ++ engineWrites k w it
    (named.find? (fun n => !ownsSlot d n)).getD ((named.find? (fun n => !ownsT0 d n)).getD 0)
  else 0

/-- The plan error a dispatcher operation raises (R84, R91), with the token or slot concerned. -/
def dispCheck (k : Core) (r : Running) (op : Nat) (o : Ops88) : Option (Nat × Nat) :=
  if op = 0 || op = 5 then (if zeroBits o 0 87 then none else some (0x01, 0))
  else if op = 1 then (if !zeroBits o 0 87 then some (0x01, 0) else if !r.frames.isEmpty then some (0x08, 0) else none)
  else if op = 2 then
    if !zeroBits o 28 87 then some (0x01, 0)
    else if fld o 0 16 = 0 || fld o 16 12 = 0 || decide (4 ≤ r.frames.length) then some (0x08, 0) else none
  else if op = 3 then
    let l := (List.range (fld o 8 8)).map (· + fld o 0 8)
    if !zeroBits o 16 87 || l.isEmpty then some (0x01, 0)
    else match l.find? (fun n => !ownsSlot r.desc n) with
      | some n => some (0x05, n)
      | none => (l.find? (fun n => slotOf k n == .filling)).map (fun n => (0x07, n))
  else if op = 4 then
    if !zeroBits o 64 87 then some (0x01, 0)
    else ((List.range 64).find? (fun t => bitOf o t && tokenOf k t == .armed)).map (fun t => (0x04, t))
  else some (0x01, 0)

/-- R86: what becomes of the head instruction. -/
inductive Head where
  | hold | fail (code which : Nat) | issue
  deriving DecidableEq, Repr

def headCheck (k : Core) (r : Running) (w : EWord) : Head :=
  if r.ended then .hold
  else if decide (r.desc.count ≤ r.pc) then .fail 0x09 0
  else match (waited w.h).find? (fun t => tokenOf k t == .idle) with
    | some t => .fail 0x03 t
    | none =>
      if w.h.sigen && tokenOf k w.h.sigtok.toNat == .armed then .fail 0x02 w.h.sigtok.toNat
      else if (waited w.h).any (fun t => tokenOf k t != .set) then .hold
      else if w.h.sigen && tokenOf k w.h.sigtok.toNat != .idle then .hold
      else if w.engine = engD then
        (if w.opcode = 5 && !k.flights.isEmpty then .hold
         else if w.h.rsvd != 0 then .fail 0x01 0
         else match dispCheck k r w.opcode w.o with | some (c, x) => .fail c x | none => .issue)
      else if decide (16 ≤ (k.flights.filter (fun f => f.word.engine == w.engine && !f.started)).length) then .hold
      else if w.h.rsvd != 0 then .fail 0x01 0
      else match engineCheck k r.desc w (iterOf r) with
        | some c => .fail c (slotConcerned k r.desc w (iterOf r) c)
        | none => .issue

/-- CONSUME at issue (R87). -/
def consumeTokens (k : Core) (h : Hdr) : Core := if h.consume then (waited h).foldl (fun k t => setToken k t .idle) k else k

/-- The signal token (R87): ARMED at issue, SET at completion. -/
def signalToken (k : Core) (h : Hdr) (v : Token) : Core := if h.sigen then setToken k h.sigtok.toNat v else k

/-- CONSUME and the signal token at issue (R87). -/
def issueTokens (k : Core) (h : Hdr) (v : Token) : Core := signalToken (consumeTokens k h) h v

/-- A dispatcher operation issues and completes at once (R84). -/
def dispRun (k : Core) (r : Running) (op : Nat) (o : Ops88) : Core × Running :=
  if op = 1 then (k, { r with ended := true })
  else if op = 3 then (((List.range (fld o 8 8)).map (· + fld o 0 8)).foldl releaseSlot k, r)
  else if op = 4 then ((List.range 64).foldl (fun k t => if bitOf o t && tokenOf k t == .set then setToken k t .idle else k) k, r)
  else (k, r)

/-- The dispatcher's position after an instruction; LOOP opens a loop over the instructions behind it. -/
def stepPc (r : Running) (w : EWord) : Running :=
  let r := { r with issued := r.issued + 1 }
  if w.engine = engD && w.opcode = 2 then
    { r with pc := r.pc + 1, frames := ⟨r.pc + 1, fld w.o 16 12, fld w.o 0 16, 0⟩ :: r.frames }
  else
    let (pc, fr) := advanceLoops r.frames (r.pc + 1)
    { r with pc := pc, frames := fr }

/-- Issue an instruction whose head check passed. -/
def issueWord (k : Core) (r : Running) (w : EWord) : Core :=
  if w.engine = engD then
    -- a signal comes with the completion, after the operation's own effect (R84, R87)
    let (k1, r1) := dispRun (consumeTokens k w.h) r w.opcode w.o
    { signalToken k1 w.h .set with run := some (stepPc r1 w) }
  else
    let rd := engineReads k w (iterOf r)
    let f : Flight := ⟨r.issued, r.pc, w, iterOf r, false, rd, rd, [], 0, .none⟩
    { issueTokens k w.h .armed with run := some (stepPc r w), flights := k.flights ++ [f] }

/-! ### Engine starts (R82) -/

/-- The instruction may start as far as its engine's order goes. -/
def mayStart (k : Core) (f : Flight) : Bool :=
  let before := (k.flights.takeWhile (fun g => g.id != f.id)).filter (fun g => g.word.engine == f.word.engine)
  match f.word.engine with
  | 0 => before.all (fun g => g.started && !mStepping g)
  | 3 => before.all (fun g => g.started)
  | 4 => before.all (fun g => g.started)
  | 5 => before.all (fun g => g.started && cAllStarted g)
  | _ => before.isEmpty

/-- Start an instruction. -/
def beginFlight (s : State) (c : Nat) (k : Core) (u : UnitDesc) (f : Flight) : BeginS :=
  match f.word.engine with
  | 0 => (mBegin k f).lift s
  | 1 => (vBegin k f).lift s
  | 2 => (sBegin k f).lift s
  | 3 => gBegin s c k u f
  | 4 => (qBegin k u f).lift s
  | 5 => cBegin s k u f
  | _ => xBegin s c k u f

/-- A started instruction goes on where it can: a stream's rows, contexts that had no number, held copies. -/
def resumeFlight (s : State) (c : Nat) (k : Core) (u : UnitDesc) (f : Flight) : BeginS :=
  match f.word.engine, f.work with
  | 0, .stream j steps zero loaded =>
    if !mStepping f then .wait
    else match streamGo k f j steps zero loaded with
      | .go k' f' => if f'.work = f.work then .wait else .go s k' f'
      | .fail a b => .fail a b
      | .wait => .wait
  | 3, _ => gResume s c k u f
  | 4, _ => (qResume k f).lift s
  | 5, .copies l =>
    if cAllStarted f then .wait
    else match startCopies c u f l.zipIdx s k [] with
      | (.fail a b, _, _, _) => .fail a b
      | (_, s', k', l') => if l' = l then .park s' else .go s' k' { f with work := .copies l' }
  | _, _ => .wait

def tryFlight (s : State) (c : Nat) (k : Core) (u : UnitDesc) (f : Flight) : BeginS :=
  if f.started then resumeFlight s c k u f else if mayStart k f then beginFlight s c k u f else .wait

/-- The first instruction in issue order that can start or go on; `none` when nothing moves. -/
def engineMove (s : State) (c : Nat) (k : Core) (r : Running) : List Flight → Option State
  | [] => none
  | f :: l =>
    match tryFlight s c k r.desc f with
    | .wait => engineMove s c k r l
    | .park s' => if s'.holds = s.holds && s'.media.waits = s.media.waits then engineMove s c k r l else some s'
    | .fail code which => some (stopUnit s c ⟨code, f.index, f.word.engine, which⟩)
    | .go s' k' f' => some (setCore s' c (putFlight k' f'))

/-- The head instruction issues, or stops the unit; `none` while it holds. -/
def issueMove (s : State) (c : Nat) (k : Core) (r : Running) : Option State :=
  match r.waiting with
  | [] => none
  | w :: l =>
    let r' := { r with waiting := l }
    match headCheck k r w with
    | .hold => none
    | .fail code which => some (stopUnit s c ⟨code, r.pc, w.engine, which⟩)
    | .issue => some (setCore s c (issueWord { k with run := some r' } r' w))

/-- A READY context of the G engine, or of the Q engine, is served (R99, R100). -/
def serveMove (s : State) (c : Nat) (k : Core) : Option State :=
  match gServe k with
  | some p => some (setCore s c (putFlight p.1 p.2))
  | none => (qServe s k).map (fun p => setCore s c (putFlight p.1 p.2))

/-- One move of a core: an engine's start, a READY context's, else the dispatcher's. -/
def coreMove (s : State) (c : Nat) : Option State :=
  let k := coreOf s c
  match k.run with
  | none => none
  | some r => match engineMove s c k r k.flights with
    | some s' => some s'
    | none => match serveMove s c k with | some s' => some s' | none => issueMove s c k r

/-- Deliver arrived multicast tiles; members whose counts differ stop with BAD_WORD at their CRECV (R232). -/
def settleCasts (s : State) (c : Nat) : State :=
  let (s1, bad) := deliverCore s c
  bad.foldl (fun s u => match coreRunning s u.1 with
    | some m => stopUnit s m ⟨0x01, u.2, engC, 0⟩
    | none => s) s1

/-- Moves until nothing moves, at most `n` of them. -/
def pump : Nat → State → Nat → State
  | 0, s, _ => s
  | n + 1, s, c => match coreMove s c with | some s' => pump n s' c | none => s

/-- Enough moves for everything presented on a core. -/
def pumpFuel (k : Core) : Nat :=
  2 * (k.flights.length + (match k.run with | some r => r.waiting.length | none => 0) + (gReady k).length + (qReady k).length) + 4

/-- The core goes on as far as it can. -/
def goOn (s : State) (c : Nat) : State := settleCasts (pump (pumpFuel (coreOf s c)) s c) c

/-- A core goes on, then every other core that may have waited for it, and those that may have waited for these. -/
def goAll (s : State) (c : Nat) : State :=
  let s1 := goOn s c
  let others := s1.chip.cores.map (·.1)
  askLocks ((others ++ others).foldl (fun s n => if n = c then s else goOn s n) s1)

/-- The fields of an instruction word (R83). -/
def wordFields (w : W128) : EWord :=
  ⟨fld w 124 4, fld w 116 8, ⟨bitOf w 115, w.extractLsb' 109 6, bitOf w 108, w.extractLsb' 102 6, bitOf w 101, w.extractLsb' 95 6, bitOf w 94,
    bitOf w 93, w.extractLsb' 88 5⟩, w.extractLsb' 0 88⟩

/-- An operation of R84, R126, R150, R164, R182, R222, R262 or R368; the other codes are reserved. -/
def wordNamed (w : EWord) : Bool :=
  let op := w.opcode
  match w.engine with
  | 0 => decide (1 ≤ op) && decide (op ≤ 4)
  | 1 => (decide (1 ≤ op) && decide (op ≤ 0x0E)) || (decide (0x10 ≤ op) && decide (op ≤ 0x13)) || (decide (0x20 ≤ op) && decide (op ≤ 0x23))
    || (decide (0x30 ≤ op) && decide (op ≤ 0x32)) || op == 0x38 || op == 0x39
  | 2 => decide (1 ≤ op) && decide (op ≤ 3)
  | 3 => op == 1
  | 4 => decide (1 ≤ op) && decide (op ≤ 3)
  | 5 => decide (1 ≤ op) && decide (op ≤ 6)
  | 6 => decide (1 ≤ op) && decide (op ≤ 4)
  | 15 => decide (op ≤ 5)
  | _ => false

/-- The dispatcher's position behind the instructions that wait at its head: the next word of the program buffer (R84, R85), none beyond
the unit's count or behind an END. -/
def nextWord (r : Running) : Option W128 :=
  let q := r.waiting.foldl stepPc r
  if decide (r.desc.count ≤ q.pc) then none else q.buffer[q.pc]?

/-- The dispatcher presents the next instruction of the program: it joins the instructions that wait at the head (R86), and every core that
it may have waited for, or that waited for it, goes on (R227). The program buffer says which instruction that is (R84, R85): a command that
names another is no event of this core; a reserved word there is met in its place (R91); beyond the program issue runs on (NO_END). -/
def present (s : State) (c : Nat) (w : EWord) : State :=
  let k := coreOf s c
  match k.run with
  | none => s
  | some r =>
    if r.ended || r.waiting.any (fun x => x.engine == engD && x.opcode == 1) then s
    else
      let put := fun (x : EWord) => goAll (setCore s c { k with run := some { r with waiting := r.waiting ++ [x] } }) c
      match nextWord r with
      | none => put w
      | some x => if wordFields x = w || !wordNamed (wordFields x) then put (wordFields x) else s

end Sys2Proof.Machine
end

