-- ==== Sys2Proof/Machine/Sessions.lean ====
section
/-!
DEFINITION. Sessions (R373 to R379, R399, R400): HELLO and PROOF, CLOSE_SESSION, CANCEL, and the expiries; with what each does at its
step boundary.
-/
namespace Sys2Proof.Machine

abbrev Result := Host.Outcome State Fault Refusal

/-! ### HELLO (R374) -/

/-- Role and principal within their ranges (R371). -/
def principalOk (role principal : Nat) : Bool :=
  (role == 0 && principal == 0) || (role == 1 && decide (principal ≤ 62)) || (role == 2 && decide (principal ≤ 4095))

/-- R371, R376: may the role open a session on this function? -/
def roleAllowed (s : State) (role principal : Nat) (f : Byte) : Bool :=
  match role with
  | 0 => f == 0#8 || f == sideFunc
  | 1 =>
    if f = sideFunc then (policyOf s).sideband != 0#8
    else f != 0#8 && (match operOf s principal with | some o => bitOf o.glades (f.toNat - 1) | none => true)
  | _ => f != 0#8 && f != sideFunc && (match tenOf s principal with | some t => t.glade + 1 == f.toNat | none => true)

def blobCred (b : Blob) : Cred := ⟨b.password, b.key, b.salt, b.iterations⟩

/-- R375: what the challenge of a principal shows; one without a binding is shown a derived salt. -/
def shownCred (s : State) (role principal : Nat) (first : Option Cred) : Cred :=
  match first with
  | some c => c
  | none => (credOf s role principal).getD ⟨true, 0#256, Config.unboundSalt role principal, (policyOf s).iterations⟩

def helloReply (s : State) (id : Nat) (dev : BitVec 256) (sig : BitVec 768) (c : Cred) : List Byte :=
  leBytes 4 id ++ leBytes 4 0 ++ leBytes 32 dev.toNat ++ leBytes 96 sig.toNat ++ leBytes 1 (if c.password then 1 else 0) ++ leBytes 3 0
    ++ leBytes 4 (if c.password then c.iterations else 0) ++ leBytes 32 (if c.password then c.salt.toNat else 0) ++ leBytes 16 s.serial.toNat

/-- The checks of R374, in order; a pending challenge holds its session entry (log 42). -/
def helloCheck (s : State) (h : MsgHead) (b : HelloBody) : Option Ending :=
  let role := b.role.toNat
  let principal := b.principal.toNat
  let first := role == 0 && b.blob.isSome
  if !formOk h false || !principalOk role principal || decide (b.replyLen < 192) || b.objects != (if b.blob.isSome then 1 else 0)
      || (b.blob.isSome && role != 0) || (first && !(b.blob.any (·.ok))) then some (failAt stInvalid 1)
  else if !readyBit s bVault || (s.kt.life == .recovery && role != 0) then some (failAt stNotReady 2)
  else if !roleAllowed s role principal h.func || (first && (credOf s 0 0).isSome) then some (failAt stDenied 3)
  else if decide (256 ≤ s.prot.challenges.length) || decide (4096 ≤ s.prot.sessions.length + s.prot.challenges.length)
      || decide (64 ≤ (s.prot.sessions.filter (fun x => x.role == role && x.principal == principal)).length
          + (s.prot.challenges.filter (fun x => x.role == role && x.principal == principal)).length) then some (busyAt 4 (hintRange s 0))
  else none

def helloGo (s : State) (h : MsgHead) (b : HelloBody) (c : Ctx) : State :=
  match helloCheck s h b with
  | some e => refuse s h c e
  | none =>
    let role := b.role.toNat
    let principal := b.principal.toNat
    let id := s.prot.nextSession
    let dev := Config.freeNonce s.freeCount
    let first := b.blob.map blobCred
    let s1 := drawn { s with prot := { s.prot with
      nextSession := id + 1, challenges := s.prot.challenges ++ [⟨id, role, principal, h.func, b.hostNonce, dev, first, false⟩] } }
    let s2 := putOutput s1 ⟨h.func, h.rid⟩ (helloReply s id dev (Config.freeSignature s.freeCount) (shownCred s role principal first))
    refuse s2 h c ⟨stOk, 0, 0, [(0, 4, id)]⟩

def execHello (h : MsgHead) (b : HelloBody) (s : State) : Result :=
  .next (message s h opOpen .hello true (fun s c => helloGo s h b c))

/-! ### PROOF (R373, R375) -/

/-- The handshake transcript T. -/
def transcript (s : State) (c : Challenge) : List Byte :=
  leBytes 1 c.role ++ leBytes 2 c.principal ++ [c.func] ++ leBytes 32 c.host.toNat ++ leBytes 32 c.dev.toNat ++ leBytes 4 c.id
    ++ leBytes 16 s.serial.toNat

def proofOf (s : State) (c : Challenge) (key : BitVec 256) : BitVec 256 :=
  BitVec.ofNat 256 (leNat (hmacSha256 (keyBytes key) (strBytes "HXC-PROOF-1" ++ transcript s c)))

def confirmOf (s : State) (c : Challenge) (key : BitVec 256) : Nat :=
  leNat (hmacSha256 (keyBytes key) (strBytes "HXC-CONFIRM-1" ++ transcript s c))

def sessionKeyOf (s : State) (c : Challenge) (key : BitVec 256) : BitVec 256 :=
  BitVec.ofNat 256 (leNat (hkdf32 (leBytes 32 c.host.toNat ++ leBytes 32 c.dev.toNat) (keyBytes key)
    (strBytes "HXC-SESSION-1" ++ transcript s c)))

def dropChallenge (s : State) (id : Nat) : State :=
  { s with prot := { s.prot with challenges := s.prot.challenges.filter (fun c => c.id != id) } }

def lockedPrincipal (s : State) (role principal : Nat) : Bool := s.prot.locks.contains (role, principal)

/-- One failed proof; the fifth within 60 s locks the principal (R375). -/
def countFail (s : State) (role principal : Nat) : State :=
  let fails := (s.prot.fails ++ [(role, principal, s.time)]).filter (fun f => decide (s.time < f.2.2 + 60000000))
  if decide (5 ≤ (fails.filter (fun f => f.1 == role && f.2.1 == principal)).length) then
    { s with prot := { s.prot with fails := fails.filter (fun f => !(f.1 == role && f.2.1 == principal))
                                   locks := setHas s.prot.locks (role, principal) } }
  else { s with prot := { s.prot with fails := fails } }

/-- The credential a PROOF is checked against: a first owner's, or the stored one. -/
def challengeCred (s : State) (ch : Challenge) : Option Cred :=
  match ch.first with | some c => some c | none => credOf s ch.role ch.principal

def proofGo (s : State) (h : MsgHead) (p : BitVec 256) (c : Ctx) : State :=
  if !formOk h false then refuse s h c (endWith stInvalid)
  else match s.prot.challenges.find? (fun x => x.id == h.session.toNat && x.func == h.func && !x.proved) with
    | none => refuse s h c (deniedEnd s h)
    | some ch =>
      if lockedPrincipal s ch.role ch.principal || (ch.first.isSome && (credOf s 0 0).isSome) then
        refuse (dropChallenge s ch.id) h c (endWith stDenied)
      else match challengeCred s ch with
        | none => refuse (countFail (dropChallenge s ch.id) ch.role ch.principal) h c (endWith stDenied)
        | some k =>
          if proofOf s ch k.key != p then refuse (countFail (dropChallenge s ch.id) ch.role ch.principal) h c (endWith stDenied)
          else if breach (policyOf s) ch.role k then refuse (dropChallenge s ch.id) h c ⟨stDenied, dtPolicy, 0, []⟩
          else
            let s1 := { s with prot := { s.prot with challenges := s.prot.challenges.map (fun x =>
              if x.id == ch.id then { x with proved := true } else x) } }
            addChange (acceptReq s1 h c opOpen none none (.proof ch.id)) (.request ⟨h.func, h.rid⟩)

def execProof (h : MsgHead) (p : BitVec 256) (s : State) : Result :=
  .next (message s h opOpen .proof true (fun s c => proofGo s h p c))

def storeImage (s : State) (t : Store) : StoreImage := ⟨t, s.glades.sets, s.glades.profiles⟩

/-- A changed store is written: its generation rises, the vault's counter follows, and reserved T3 takes a copy (R364). -/
def writeStore (s : State) (t : Store) : State :=
  let t := { t with generation := t.generation + 1 }
  { s with
    prot := { s.prot with store := some t, flashCopy := if s.flash then some (storeImage s t) else s.prot.flashCopy }
    kt := { s.kt with vaultCounter := max s.kt.vaultCounter t.generation } }

/-- The first owner's credential is written into the store as its session opens; every other such handshake is discarded (R364). -/
def firstOwner (s : State) (ch : Challenge) : State :=
  match ch.first, s.prot.store with
  | some k, some t =>
    let s1 := writeStore s { t with owner := some k }
    let others := s1.prot.challenges.filter (fun x => x.first.isSome && x.id != ch.id)
    others.foldl (fun s x =>
      let s := dropChallenge s x.id
      match s.reqs.find? (fun q => q.job == .proof x.id) with
      | some q => completeReq s q (endWith stDenied)
      | none => s) s1
  | _, _ => s

/-- The session opens at the boundary, and PROOF completes with confirm (R374). -/
def openSession (s : State) (q : Req) (id : Nat) : State :=
  match s.prot.challenges.find? (fun x => x.id == id) with
  | none => completeReq s q (endWith stDenied)
  | some ch =>
    match challengeCred s ch with
    | none => completeReq (dropChallenge s id) q (endWith stDenied)
    | some k =>
      let glade := if ch.role = 2 then (tenOf s ch.principal).map (·.glade) else none
      let confirm := confirmOf s ch k.key
      let (s1, hd) := addKey (firstOwner s ch) (sessionKeyOf s ch k.key) .session glade (if ch.role = 2 then some ch.principal else none)
      let s2 := dropChallenge s1 id
      let x : Session := ⟨id, ch.role, ch.principal, ch.func, hd, s.chip.step, s.time, 0, false, s.time⟩
      completeReq { s2 with prot := { s2.prot with sessions := s2.prot.sessions ++ [x] } } q ⟨stOk, 0, 0, [(0, 32, confirm)]⟩

/-! ### CLOSE_SESSION (R377) -/

def closeGo (s : State) (h : MsgHead) (mode : Byte) (c : Ctx) : State :=
  if !formOk h false || decide (1 < mode.toNat) then refuse s h c (endWith stInvalid)
  else addChange (acceptReq s h c opClose (sessionGlade s c.sess) (sessionTenant c.sess) (.closing c.sess.id (mode == 1#8)))
    (.request ⟨h.func, h.rid⟩)

def execCloseSession (h : MsgHead) (mode : Byte) (s : State) : Result :=
  .next (message s h opClose .opened true (fun s c => closeGo s h mode c))

/-- Requests of a session other than its CLOSE_SESSIONs. -/
def sessionWork (s : State) (id : Nat) : List Req :=
  s.reqs.filter (fun q => q.session == id && (match q.job with | .closing _ _ => false | _ => true))

def finishClose (s : State) (q : Req) (id : Nat) : State :=
  match s.prot.sessions.find? (fun x => x.id == id) with
  | some x => completeReq (closeSession s x none) q (endWith stOk)
  | none => completeReq s q (endWith stOk)

/-- A CLOSE_SESSION takes effect at its boundary. -/
def applyClose (s : State) (q : Req) (id : Nat) (abort : Bool) : State :=
  if abort then
    let s := (sessionWork s id).foldl (fun s w => endRequest s w stCancelled 0 0) s
    finishClose s q id
  else
    let s := { s with prot := { s.prot with sessions := s.prot.sessions.map (fun x => if x.id == id then { x with draining := true } else x) } }
    if (sessionWork s id).isEmpty then finishClose s q id else s

/-- Draining sessions without work close at the boundary (R377); so does a drain of a session that an abort has closed. -/
def closeDrained (s : State) : State :=
  s.reqs.foldl (fun s q => match q.job with
    | .closing id false =>
      if !s.changes.contains (.request q.id) && s.prot.sessions.all (fun x => x.id != id || x.draining) && (sessionWork s id).isEmpty
      then finishClose s q id else s
    | _ => s) s

/-! ### CANCEL (R45, R46, R372, R400, R559) -/

/-- The functions whose requests a session may name (R400). -/
def cancelScope (s : State) (h : MsgHead) (x : Session) (f : Byte) : Bool :=
  (decide (f.toNat ≤ 8) || f == sideFunc)
    && (if isOwner x then true
        else if isOper x then f == sideFunc || (decide (1 ≤ f.toNat) && bitOf (operGlades s x) (f.toNat - 1))
        else f == h.func)

/-- May this session end this request (R372)? A request that is not known is nobody's. -/
def cancelAllowed (s : State) (x : Session) (target : ReqId) : Bool :=
  match reqOf s target with
  | none => true
  | some q =>
    if isOwner x then true
    else if isOper x then
      target.func != sideFunc || s.prot.sessions.any (fun y => y.id == q.session && y.role == 1 && y.principal == x.principal)
    else q.session == x.id

def cancelGo (s : State) (h : MsgHead) (target : W64) (func : Byte) (c : Ctx) : State :=
  let t : ReqId := ⟨func, target⟩
  if !formOk h false || !cancelScope s h c.sess func then refuse s h c (endWith stInvalid)
  else if !cancelAllowed s c.sess t then refuse s h c (endWith stDenied)
  else addChange (acceptReq s h c opCancel (sessionGlade s c.sess) (sessionTenant c.sess) (.cancel t)) (.request ⟨h.func, h.rid⟩)

def execCancel (h : MsgHead) (target : W64) (func : Byte) (s : State) : Result :=
  .next (message s h opCancel .opened false (fun s c => cancelGo s h target func c))

/-- What CANCEL ends (R559); CANCEL, SHUTDOWN and PROTECTION_EXPORT are not ended. -/
def cancellable (q : Req) : Bool :=
  match q.job with
  | .cancel _ => false
  | .shutdown _ => false
  | .config (.protectionExport _ _) => false
  | .config (.protectionRestore _ _ _) => false
  | _ => true

/-- A session whose close is cancelled stays open and accepts requests again. -/
def undrain (s : State) (q : Req) : State :=
  match q.job with
  | .closing id _ => { s with prot := { s.prot with sessions := s.prot.sessions.map (fun x => if x.id == id then { x with draining := false } else x) } }
  | _ => s

/-- R44: a sequence whose own last step ended it keeps that ending. -/
def ownEnding (q : Req) : Bool := match q.job with | .serve v => v.ending.isSome | _ => false

/-- The CANCEL that ends a sequence at the next boundary that begins an iteration, if no earlier change does. -/
def noteCancel (s : State) (t : Req) (cancel : ReqId) (before : Bool) : State :=
  match t.job with
  | .serve v => if before then s else setJob s t (.serve { v with doomed := v.doomed.map (fun d => { d with cancel := some cancel }) })
  | _ => s

def isDoomed (q : Req) : Bool := match q.job with | .serve v => v.doomed.isSome | _ => false

/-- The update's rows are being applied since an earlier boundary, so a CANCEL changes nothing (R199). -/
def applyRuns (s : State) (r : ReqId) : Bool := s.tabs.applying.any (fun a => a.req == r && a.since != s.chip.step)

/-- CANCEL takes effect; `false` while its target is a sequence of a running iteration, which it ends at the boundary that begins the
next (R10, R46). -/
def applyCancel (s : State) (q : Req) (target : ReqId) : State × Bool :=
  match reqOf s target with
  | none => (completeReq s q (endWith stOk), true)
  | some t =>
    if cancellable t && !ownEnding t && t.id != q.id && !applyRuns s t.id then
      let s := endRequest (undrain s t) t stCancelled 0 0
      match reqOf s target with
      | some t1 => (noteCancel s t1 q.id (isDoomed t), false)
      | none => (completeReq s q ⟨stOk, 0, fgTargetRunning, []⟩, true)
    else (completeReq s q ⟨stOk, 0, if t.id != q.id then fgTargetRunning else 0, []⟩, true)

/-! ### Expiries (R374 to R376) -/

/-- The 10 s of a challenge are over; a PROOF taken in time goes on. -/
def execChallengeExpiry (session : W32) (s : State) : Result :=
  .next { s with prot := { s.prot with challenges := s.prot.challenges.filter (fun c => c.id != session.toNat || c.proved) } }

def execPrincipalLockExpiry (role : Byte) (principal : W16) (s : State) : Result :=
  .next { s with prot := { s.prot with locks := s.prot.locks.filter (fun l => l != (role.toNat, principal.toNat)) } }

/-- A session to be closed at the next boundary with a reason (R376). -/
def expireSession (s : State) (id reason : Nat) : State :=
  if s.prot.sessions.any (fun x => x.id == id) && !s.changes.any (fun c => match c with | .expire n _ => n == id | _ => false)
  then addChange s (.expire id reason) else s

def execSessionLifetimeExpiry (session : W32) (s : State) : Result := .next (expireSession s session.toNat dtLifetime)

/-- Idle time runs only while the session has no request in flight. -/
def execSessionIdleExpiry (session : W32) (s : State) : Result :=
  if s.reqs.any (fun q => q.session == session.toNat) then .next s else .next (expireSession s session.toNat dtIdle)

end Sys2Proof.Machine
end

