-- ==== Sys2Proof/Machine/Units.lean ====
section
/-!
DEFINITION. Work units on cores: starts (R85, R95, R96, R228, R428), stalls and bounds (R92, R93, R137, R236), the array's stop
(R139) and the power states of a site (R102, R103).
-/
namespace Sys2Proof.Machine

/-! ### Starts -/

/-- The Glade whose share range holds the core, if any (R427). -/
def rangeOwner (s : State) (c : Nat) : Option Nat :=
  (s.glades.sets.find? (fun p => match p.2 with
    | some g => (decide (g.first ≤ c) && decide (c < g.first + g.count)) || g.extra.contains c
    | none => false)).map (·.1)

def coreFree (s : State) (c : Nat) : Bool :=
  (match s.rc.block with | some (t, i, _) => !((t == 1 || t == 2) && i == c) | none => true)
    && decide (c < 512) && (coreOf s c).run.isNone && (siteOf s c).isSome && !s.chip.moves.contains c && !s.chip.heldBack.contains c

/-- R428: on its own range; when none is free there, on the common pool, or on another range whose Glade's plan has no unit for it. -/
def coreAllowed (s : State) (g c : Nat) : Bool :=
  if rangeOwner s c = some g then true
  else
    let own := match AMap.get none s.glades.sets g with
      | some x => (List.range x.count).any (fun i => coreFree s (x.first + i)) || x.extra.any (coreFree s)
      | none => false
    !own && (match rangeOwner s c with
      | none => true
      | some h => !s.chip.units.any (fun u => u.desc.glade == h && u.desc.core.toNat == c && !u.running))

/-- The units that chains of shared multicast groups join to those of a list. -/
def gangGrow (s : State) : Nat → List Nat → List Nat
  | 0, l => l
  | n + 1, l => gangGrow s n (l ++ ((s.chip.groups.filter (fun g => g.desc.members.any l.contains)).flatMap (fun g => g.desc.members)).filter
      (fun m => !l.contains m)).eraseDups

/-- R228: the gang of a unit. -/
def gangOf (s : State) (unit : Nat) : List Nat := gangGrow s s.chip.groups.length [unit]

/-- The units of a gang that have not started, for which distinct cores must be free. -/
def gangWaits (s : State) (unit : Nat) : List UnitState := s.chip.units.filter (fun u => !u.running && (gangOf s unit).contains u.desc.unitId)

/-- Logical cores on which a unit of Glade `g` may start now. -/
def openCores (s : State) (g : Nat) : List Nat := (List.range 512).filter (fun c => coreFree s c && coreAllowed s g c)

/-- R228: a gang is ready when every unit of it is, and distinct cores are free for those that have not started. -/
def gangReady (s : State) (unit : Nat) : Bool :=
  let l := gangWaits s unit
  let named := (l.filter (fun u => u.desc.core != 0xFFFF#16)).map (fun u => u.desc.core.toNat)
  decide (l.length ≤ 1) ||
    (l.all (fun u => u.left == 0) && named.eraseDups.length == named.length && named.all (coreFree s)
      && l.all (fun u => u.desc.core != 0xFFFF#16 || decide (l.length ≤ (openCores s u.desc.glade).length)))

/-- R97: no further unit of an ended request starts. -/
def ownerStands (s : State) (d : UnitDesc) : Bool := match d.owner with | some r => (reqOf s r).isSome | none => true

/-- R96: committed, its owner not ended, its predecessors ended, its gang ready, the core one it may run on and free. -/
def unitReady (s : State) (c : Nat) (u : UnitState) : Bool :=
  !u.running && u.left == 0 && (u.desc.core == 0xFFFF#16 || u.desc.core.toNat == c) && coreFree s c && coreAllowed s u.desc.glade c
    && ownerStands s u.desc && gangReady s u.desc.unitId

/-- R96: the admission order of the owners, then the unit ID. -/
def startsBefore (a b : UnitState) : Bool :=
  decide (a.order < b.order) || (a.order == b.order && decide (a.desc.unitId < b.desc.unitId))

/-- R96: no ready unit that contends for the core goes first. -/
def unitFirst (s : State) (c : Nat) (u : UnitState) : Bool := !s.chip.units.any (fun v => startsBefore v u && unitReady s c v)

/-- The T2 tiles of a unit's program. -/
def programTiles (d : UnitDesc) : List Nat := slotsOf d.program (16 * d.count)

/-- R208: the program lies in tiles that the dispatcher may read through the near cache. -/
def programReach (s : State) (d : UnitDesc) : Bool :=
  (programTiles d).all (fun t => decide (t < t2Tiles) && reachOk s d.glade t false true)

/-- R214: the program's tiles are FULL. -/
def programFull (s : State) (d : UnitDesc) : Bool := (programTiles d).all (fun t => dState (tileDesc s t) == tileFull)

/-- A program load waits for T2 tokens under the number of its unit (R430, R431). -/
def programTicket (c : Nat) (d : UnitDesc) : Ticket := ⟨d.glade, 0, c, d.unitId, 2 ^ 32⟩

/-- R85, R219, R431: a program is read through the near cache, its missed lines drawn from the T2 regulator; `error` when that holds it. -/
def fetchProgram (s : State) (c : Nat) (d : UnitDesc) : Except State (State × List W128) :=
  let near := touchRange s (coreOf s c).near d.program (16 * d.count)
  match drawTokens s d.glade .t2 (filledBytes (coreOf s c).near near) (unitReserved d) (programTicket c d) with
  | none => .error (holdTicket s (programTicket c d))
  | some s1 => .ok (setCore s1 c { coreOf s1 c with near := near }, programOf s d)

/-- The next unit assigned to a core: the first in the starting order that names it and has not started. -/
def nextAssigned (s : State) (c : Nat) : Option UnitState :=
  (s.chip.units.filter (fun u => !u.running && u.desc.core.toNat == c && ownerStands s u.desc)).foldl
    (fun a u => match a with | some b => if startsBefore u b then some u else a | none => some u) none

/-- R85: while a unit runs, the program of the next unit assigned to its core is loaded into the second buffer. -/
def loadAhead (s : State) (c : Nat) : State :=
  match nextAssigned s c with
  | none => s
  | some u =>
    if (coreOf s c).run.isNone || (coreOf s c).ahead.any (fun b => b.1 == u.desc.unitId) || !programReach s u.desc || !programFull s u.desc then s
    else match fetchProgram s c u.desc with
      | .error s1 => s1
      | .ok p => setCore p.1 c { coreOf p.1 c with ahead := some (u.desc.unitId, p.2) }

/-- A unit begins on a core with its program loaded (R85, R96, R104). -/
def beginUnit (s : State) (c : Nat) (d : UnitDesc) (buffer : List W128) : State :=
  let s1 := setCore s c (startCore (coreOf s c) (runOf d buffer false))
  { s1 with chip := { s1.chip with
    units := s1.chip.units.map (fun u => if u.desc.unitId == d.unitId then { u with running := true } else u) } }

/-- A ready unit starts on a core once its program is in a buffer; one that it may not fetch stops it with ADDRESS (R208). -/
def startUnit (s : State) (c : Nat) (d : UnitDesc) : State :=
  match (coreOf s c).ahead.bind (fun b => if b.1 = d.unitId then some b.2 else none) with
  | some b => loadAhead (beginUnit s c d b) c
  | none =>
    if !programReach s d then stopUnit (beginUnit s c d []) c ⟨0x0A, 0, engD, 0⟩
    else if !programFull s d then s
    else match fetchProgram s c d with
      | .error s1 => s1
      | .ok p => loadAhead (beginUnit p.1 c d p.2) c

/-! ### Stalls and bounds -/

/-- The slot an instruction waits on, EMPTY or FILLING (R92, R137). -/
def slotWait (s : State) (core : Nat) (k : Core) (f : Flight) : Option Nat :=
  match f.word.engine, f.work with
  | 0, .stream j _ _ _ =>
    let p := streamOp f.word.o
    if decide (j < p.rows) then
      let sl := (streamRow p k.active.sparse j).1
      some (if slotOf k sl != .full then sl else (streamOut p (f.word.opcode == 4) j).1)
    else (loadSlots p.lb).find? (fun n => slotOf k n != .full)
  | 5, .copies l =>
    match l.find? (fun c => c.state != .done) with
    | some c => (match c.kind with
      | .receive _ _ => some c.dst.idx
      | _ => if c.src.tier == 0 && slotOf k c.src.idx != .full then some c.src.idx
             else if c.dst.tier == 0 && !isCast c && c.state == .held && slotOf k c.dst.idx == .filling then some c.dst.idx else none)
    | none => none
  | 4, .scan coll l =>
    (l.filter (fun c => c.state == .waiting && c.phase == 0)).findSome? (fun c =>
      let tb := tableBlock k.bytes (collOf k coll).scan c.header
      (slotsOf c.header 64 ++ slotsOf tb.1 tb.2).find? (fun n => slotOf k n != .full))
  | 3, .gather da _ _ _ l =>
    let d := gDesc k.bytes da
    if !d.local_ then none
    else (l.find? (fun c => c.state == .free)).bind (fun c =>
      (slotsOf (localBase ((siteOf s core).getD 0) d.base + c.row * d.stride) d.stride).find? (fun n => slotOf k n != .full))
  | _, _ =>
    if f.started then none
    else match readGate k f.reads with
      | .hold n => some n
      | _ => (engineWrites k f.word f.iter).find? (fun n => slotOf k n == .filling)

/-- The T2 tile that an X instruction reads (R368). -/
def xTile (f : Flight) : Option Nat :=
  if f.word.engine != engX then none
  else if f.word.opcode = 1 && (xDecOp f.word.o).src.tier = 1 then some (tileKey (xDecOp f.word.o).src)
  else if f.word.opcode = 3 then some (xOpenOp f.word.o).tile else none

/-- The T2 or T3 tile an instruction waits on (R92, R236). -/
def tileWait (s : State) (k : Core) (f : Flight) : Option Nat :=
  let bad := fun (key : Nat) => dState (tileDesc s key) != tileFull
  match f.work with
  | .copies l =>
    match l.find? (fun c => c.state != .done) with
    | some c => if c.src.tier != 0 && bad (tileKey c.src) then some (tileKey c.src)
                else if c.dst.tier != 0 && dState (tileDesc s (tileKey c.dst)) == tileFilling && c.state == .held then some (tileKey c.dst)
                else none
    | none => none
  | .gather da _ _ _ l =>
    (l.filter (fun c => c.state == .waiting && c.copy == c.addr)).findSome? (fun c => (slotsOf c.addr (gDesc k.bytes da).stride).find? bad)
  | .scan coll l =>
    (l.filter (fun c => c.state == .waiting)).findSome? (fun c =>
      if c.phase = 0 then ((firstReads k (collOf k coll).scan c).flatMap (fun r => slotsOf r.1 r.2)).find? bad
      else if bad (c.segment / tileBytes) then some (c.segment / tileBytes) else none)
  | .none => if f.started then none else (xTile f).bind (fun key => if bad key then some key else none)
  | _ => none

/-- Not a stall: a GPOOL held under R198, or a transfer held for tokens (R186, R235). -/
def stallExcused (s : State) (c : Nat) (k : Core) (f : Flight) : Bool :=
  s.holds.any (fun t => t.core == c && t.index == f.id)
    || (f.word.engine == engG && !f.started
        && (let d := gDesc k.bytes (gOp f.word.o).desc; versionHeld s d.table d.version))

/-- The stop of an engine stall: SLOT_EMPTY, TILE_EMPTY or ENGINE_PROGRESS (R92). -/
def stallStop (s : State) (core : Nat) (k : Core) (f : Flight) : Stop :=
  match slotWait s core k f with
  | some n => ⟨0x10, f.index, f.word.engine, n⟩
  | none => match tileWait s k f with
    | some t => ⟨0x11, f.index, f.word.engine, t⟩
    | none => ⟨0x12, f.index, f.word.engine, 0⟩

/-- The instruction that an engine makes no progress on: the first that has more to do than complete, else the first that has not
completed (R92). -/
def stalledFlight (k : Core) (e : Nat) : Option Flight :=
  let l := k.flights.filter (fun f => f.word.engine == e)
  match l.find? (fun f => !flightDone f) with | some f => some f | none => l.head?

def execEngineStall (core : CoreId) (e : EngineId) (s : State) : Result :=
  let c := core.toNat
  let k := coreOf s c
  match stalledFlight k (engineCode e) with
  | some f => if stallExcused s c k f then .next s else .next (stopUnit s c (stallStop s c k f))
  | none => .next s

/-- R93: the unit ran longer than twice its estimate. -/
def execUnitBound (core : CoreId) (s : State) : Result :=
  match (coreOf s core.toNat).run with
  | some r => .next (stopUnit s core.toNat ⟨0x13, r.pc, engD, 0⟩)
  | none => .next s

/-! ### Power states -/

/-- R139: no step for 128 cycles and no stepping instruction at the array input. -/
def execArrayStop (core : CoreId) (s : State) : Result :=
  let k := coreOf s core.toNat
  if k.flights.any (fun f => f.word.engine == engM && mStepping f) then .next s
  else .next (setCore s core.toNat { k with arrayOn := false })

/-- R102, R103: a core with no unit is clock-gated; everything is kept. -/
def execCoreClockGate (core : CoreId) (s : State) : Result :=
  let k := coreOf s core.toNat
  if k.run.isSome || k.power != .issuing then .next s
  else .next (setCore s core.toNat { k with power := .clockGated })

/-- R102, R103: power-gating loses T0, near cache, accumulator and tokens, all zero on wake; a core on which the committed plan will start a
unit stays on (log 45). -/
def execCorePowerGate (core : CoreId) (s : State) : Result :=
  if (coreOf s core.toNat).run.isSome || (nextAssigned s core.toNat).isSome then .next s else .next (setCore s core.toNat coreOff)

end Sys2Proof.Machine
end

