-- ==== Sys2Proof/Machine/Strainer.lean ====
section
/-!
DEFINITION. The Strainer and the space accounts: T2 and T3 space (R308, R309), deadline profiles (R438 to R440), costs from the plan
table (R434), the checks of R24 and their reservations (R26, R30, R432 to R437), and the admission of QUERY, ASK and GENERATE.
-/
namespace Sys2Proof.Machine

/-! ### Space (R56, R308, R309) -/

def gib : Nat := 2 ^ 30
/-- T2 open to images, indexes and work (R56). -/
def t2Open : Nat := 1150 * gib
def t2Floor : Nat := 16 * gib
def t3Open (s : State) : Nat := if s.flash then 64 * 1024 * gib else 0

/-- R252. -/
def idxRecordSize (b : LoadIndexBody) : Nat :=
  10 + 4 * b.attrs + (if b.metric = 1#8 then 2 else 0) + (if b.codeForm = 0#8 then b.m else b.m / 2)
def nMaxOf (b : LoadIndexBody) : Nat := min 256 (16240 / idxRecordSize b)

def isFlash (b : LoadIndexBody) : Bool := b.residency == 1#8
def isDurable (b : LoadIndexBody) : Bool := bitOf b.flags 0 || isFlash b

/-- The latest state of a version. -/
def latestState (v : IdxVer) : VState := v.states.getLast?.getD ⟨0, []⟩
def versionOf (i : Index) (n : Nat) : Option IdxVer := i.versions.find? (fun v => v.num == n)
/-- Records of the current version; of a restored one that is still loading, those of its snapshot. -/
def currentRecs (i : Index) : List IRec :=
  match versionOf i i.current with
  | some v => (latestState v).recs
  | none => if i.current = 0 then (match i.versions.getLast? with | some v => (latestState v).recs | none => []) else []

def inThicket (r : IRec) : Bool := r.place.isNone

/-- Segments of the records of one list, or of the Thicket. -/
def segmentsOf (b : LoadIndexBody) (n : Nat) : Nat := ceilDiv n (max 1 (nMaxOf b))

/-- Records of list `l`. -/
def listCount (l : List IRec) (n : Nat) : Nat := (l.filter (fun r => r.place == some n)).length

def listTiles (b : LoadIndexBody) (l : List IRec) : Nat :=
  (((l.filterMap (·.place)).eraseDups).map (fun n => segmentsOf b (listCount l n))).foldl (· + ·) 0
def thicketTiles (b : LoadIndexBody) (l : List IRec) : Nat := segmentsOf b (l.filter inThicket).length

/-- P-tiles of an index, with the open one. -/
def passageTiles (i : Index) : Nat := i.store.length + (if i.filling.isSome then 1 else 0)

/-- T2 and T3 bytes of `n` P-tiles with their passage map (R277, R282). -/
def passageT2 (b : LoadIndexBody) (n : Nat) : Nat := 16 * n + (if isFlash b then 0 else tileBytes * n)
def passageT3 (b : LoadIndexBody) (n : Nat) : Nat := if isFlash b then tileBytes * n else 0

/-- T2 and T3 bytes an index holds: components, list and Thicket segments, vector log, passage store and map (R277; log 17). -/
def indexT2 (i : Index) : Nat :=
  let l := currentRecs i
  i.body.t2bytes + passageT2 i.body (passageTiles i) + tileBytes * thicketTiles i.body l + (if isFlash i.body then 0 else tileBytes * listTiles i.body l + 2 * i.body.dim * (l.filter inThicket).length)
/-- T3 bytes of a durable index's snapshot, the T2 parts of state 0 of its version, and of its journal, one page a record at the least (R307). -/
def durableT3 (i : Index) : Nat :=
  let page := fun (n : Nat) => tileBytes * ceilDiv n tileBytes
  let snap := match i.snapshot with
    | some (_, l) => page (i.body.t2bytes + 16 * passageTiles i) + tileBytes * thicketTiles i.body l
        + (if isFlash i.body then 0 else tileBytes * (listTiles i.body l + passageTiles i) + page (2 * i.body.dim * (l.filter inThicket).length))
    | none => 0
  snap + tileBytes * i.journal.length

def indexT3 (i : Index) : Nat :=
  let l := currentRecs i
  durableT3 i +
  i.body.t3bytes + passageT3 i.body (passageTiles i) + (if isFlash i.body then tileBytes * listTiles i.body l + 2 * i.body.dim * (l.filter inThicket).length else 0)

def sumNat (l : List Nat) : Nat := l.foldl (· + ·) 0

def mergeClaims (s : State) (f : Merge → Nat) : Nat := sumNat (s.idx.loaded.filterMap (fun i => i.merge.map f))

def imgList (s : State) : List Img := s.images.current.toList ++ s.images.outgoing.toList

/-- The LOAD_MODEL in progress. -/
def loading (s : State) : Option (Req × LoadJob) :=
  s.reqs.findSome? (fun q => match q.job with | .load j => some (q, j) | _ => none)

/-- Records staged and not applied yet, with their index. -/
def stagedItems (s : State) : List (Index × Nat) :=
  s.reqs.flatMap (fun q => match q.job with
    | .items _ b _ l => (match heldIndex s b.handle with
      | some i => (l.filter (fun x => x.status.isNone)).map (fun x => (i, itemPassages x))
      | none => [])
    | _ => [])

/-- Bytes an item claims: Thicket tiles in T2, and its part of the vector log in T2, or in T3 on a flash index (R277, R286). -/
def itemT2 (b : LoadIndexBody) (n : Nat) : Nat := tileBytes * segmentsOf b n + (if isFlash b then 0 else 2 * b.dim * n)
def itemT3 (b : LoadIndexBody) (n : Nat) : Nat := if isFlash b then 2 * b.dim * n else 0

/-- T3 that a load with the STORE flag claims for its copy: as much as its declared footprints, all that is known before the image arrives
(R67; log 21). -/
def storeClaim (b : LoadModelBody) : Nat := if b.flags = 0#8 then 0 else b.t2 + b.t3

/-- T2 held by images, indexes, tables being replaced, and claims. -/
def heldT2 (s : State) : Nat :=
  sumNat ((imgList s).map (fun i => i.info.t2)) + sumNat (s.idx.loaded.map indexT2) + mergeClaims s (·.t2)
    + sumNat (s.tabs.replaces.map (·.bytes)) + sumNat (s.tabs.versions.map (·.extra)) + sumNat ((stagedItems s).map (fun x => itemT2 x.1.body x.2))
    + (match loading s with | some (_, j) => j.body.t2 | none => 0)
def heldT3 (s : State) : Nat :=
  sumNat ((imgList s).map (fun i => i.info.t3)) + sumNat (s.idx.loaded.map indexT3) + mergeClaims s (·.t3)
    + sumNat (s.images.stored.filterMap (fun p => p.2.map (·.size))) + sumNat ((stagedItems s).map (fun x => itemT3 x.1.body x.2))
    + (match loading s with | some (_, j) => j.body.t3 + storeClaim j.body | none => 0)

/-- Retrievals and generations whose reservations stand: those in progress, and those ended since the last boundary (R26). -/
def serves (s : State) : List (Option Nat × Serve) :=
  (s.reqs.filterMap (fun q => match q.job with | .serve v => some (q.glade, v) | _ => none)) ++ s.sched.lag

def gladeServes (s : State) (g : Nat) : List Serve := ((serves s).filter (fun p => p.1 == some g)).map (·.2)

/-- KV bytes reserved, in all, with those of the set's sequences at home elsewhere (R332), and by one Glade. -/
def kvHeld (s : State) : Nat := sumNat ((serves s).map (fun p => p.2.pages * p.2.pageBytes)) + sumNat (s.grove.entries.map (·.bytes))
def kvHeldBy (s : State) (g : Nat) : Nat := sumNat ((gladeServes s g).map (fun v => v.pages * v.pageBytes))

/-- The KV pool of an idle module, and what is free of it now (R309, R313). -/
def kvPool (s : State) : Nat := t2Open - heldT2 s
def kvFree (s : State) : Nat := kvPool s - kvHeld s

/-- May a claim of `n` bytes of T2 be granted now, leaving the floor (R308, R309)? -/
def t2Fits (s : State) (n : Nat) : Bool := decide (heldT2 s + kvHeld s + n + t2Floor ≤ t2Open)
/-- With the space reserved as KV pages counted as free. -/
def t2FitsIdle (s : State) (n : Nat) : Bool := decide (heldT2 s + n + t2Floor ≤ t2Open)
def t3Fits (s : State) (n : Nat) : Bool := decide (heldT3 s + n ≤ t3Open s)

/-- R310: bytes of a KV page. -/
def pageBytesOf (m : ImageMeta) : Nat :=
  let p := m.params
  p.layers * ceilDiv (2 * (p.kvHeads / max 1 m.slices) * p.headDim * 64) tileBytes * tileBytes

/-! ### Deadline profiles (R438, R440) -/

def profileBuiltin : Nat → Option Profile
  | 0 => some ⟨0, 30000, 2000, 3000, 16000, 6000, 1000, 320⟩
  | 1 => some ⟨1, 15000, 1000, 2000, 0, 4000, 500, 192⟩
  | 2 => some ⟨2, 60000, 4000, 6000, 32000, 12000, 2000, 512⟩
  | 3 => some ⟨3, 250000, 40000, 12000, 64000, 48000, 4000, 1024⟩
  | _ => none

def profileOf (s : State) (n : Nat) : Option Profile :=
  match profileBuiltin n with | some p => some p | none => AMap.get none s.glades.profiles n

/-- 15 % of a deadline, rounded up (R26, R439). -/
def reserveOf (d : Nat) : Nat := ceilDiv (15 * d) 100

/-- R440. -/
def profileValid (p : Profile) : Bool :=
  decide (8 ≤ p.id) && decide (p.id ≤ 63) && decide (1000 ≤ p.deadline) && decide (p.deadline ≤ 600000000) && decide (100 ≤ p.embed)
    && decide (100 ≤ p.rerank) && decide (100 ≤ p.pack) && decide (32 ≤ p.pairLen) && decide (p.pairLen ≤ 4096)
    && (p.sharded != 0 || p.flash != 0)
    && [p.sharded, p.flash].all (fun x => x == 0 || decide (50 + p.embed + x + p.rerank + p.pack + reserveOf p.deadline ≤ p.deadline))

/-- The search budget for a residency; 0 when not offered. -/
def searchBudget (p : Profile) (flash : Bool) : Nat := if flash then p.flash else p.sharded

/-! ### Collectives (R461) -/

/-- More than any deadline: the cost of what the plan table does not cover. -/
def never : Nat := 2 ^ 40

/-- R461: hops and effective ports of each stage. -/
def stageTable (n : Nat) : List (Nat × Nat) :=
  match n with
  | 2 => [(1, 8)]
  | 4 => [(1, 4), (1, 4)]
  | 8 => [(1, 2), (2, 2), (1, 4)]
  | 16 => [(1, 2), (2, 2), (1, 2), (2, 2)]
  | _ => []

/-- R461: h_max. -/
def hopsMost (n : Nat) : Nat := if n = 2 then 1 else if n = 4 then 2 else if n = 8 then 3 else 4

/-- The ports of stage `j` that are up, at most the table's (R464: costs count the ports present). -/
def stagePorts (s : State) (j e : Nat) : Nat :=
  match layoutOf s with
  | some (n, me) => min e ((List.range 8).filter (fun p => portUp s p && (layoutPeer n me p).1 == nextHop n me (me ^^^ 2 ^ j))).length
  | none => e

/-- Nanoseconds for `n` bytes over half ports of 100,000 bytes/µs each. -/
def halfPortTime (n halves : Nat) : Nat := if halves = 0 then never else ceilDiv (n * 1000) (halves * 100000)

/-- 0.8 µs and 0.3 µs for each hop after the first, in ns. -/
def hopTime (h : Nat) : Nat := 800 + 300 * (h - 1)

/-- R461: one pass over the stages at the costed rate of e − 0.5 ports. -/
def passTime (s : State) (n bytes : Nat) : Nat :=
  sumNat ((stageTable n).zipIdx.map (fun x => halfPortTime (ceilDiv bytes (2 ^ (x.2 + 1))) (2 * stagePorts s x.2 x.1.2 - 1) + hopTime x.1.1))

/-- R461: the time of a collective in ns. A SEND of a plan row is costed over the first stage's ports and the most hops. -/
def collectiveTime (s : State) (kind : LinkKind) (bytes : Nat) : Nat :=
  let n := memberCount s
  match kind with
  | .allreduce => 2 * passTime s n bytes
  | .allgather => passTime s n bytes
  | .gather => halfPortTime (ceilDiv ((n - 1) * bytes) n) 15 + hopTime (hopsMost n)
  | .broadcast => halfPortTime bytes 3 + hopTime (hopsMost n)
  | .send => halfPortTime bytes (2 * stagePorts s 0 (((stageTable n).head?.map (·.2)).getD 0) - 1) + hopTime (hopsMost n)

/-! ### Times of stages and iterations (R10, R30, R60, R104, R323, R434) -/

/-- Raised costs in thousandths: of T2 at the slowest stack's bin, 8.0 or 6.4 in place of 10 Gb/s (R238), and while a stack runs on its
spare area or unprotected (R242), of T3 while a channel is out of service (R304). -/
def slowBins (s : State) : Nat :=
  let b := (s.media.bins.map (·.2)).foldl max 0
  if b = 0 then 0 else if b = 1 then 250 else 563
def raisedT2 (s : State) : Nat := slowBins s + if !s.media.unprotected.isEmpty then 89 else if !s.media.spareCost.isEmpty then 33 else 0
def raisedT3 (s : State) : Nat :=
  if s.under.out.any (fun c => !s.under.moved.contains c.1) then 59 else if !s.under.out.isEmpty then 4 else 0

/-- The plan adjusted to the clock in force and to raised memory costs (R434; log 26). -/
def planned (s : State) (m : ImageMeta) : ImageMeta :=
  { m with plan := m.plan.map (fun r =>
      let extra := raisedT2 s + (if r.kind == .searchFlash || r.kind == .coldFetch then raisedT3 s else 0)
      { r with time := ceilDiv (r.time * 1200 * (1000 + extra)) (1000 * max 1 s.power.costing) }) }

/-- A row's time with its collectives and 3.5 µs for every start of its longest chain (R104, R461). -/
def rowTime (s : State) (r : PlanRow) : Nat := r.time + ceilDiv (7 * r.chain) 2 + ceilDiv (sumNat (r.links.map (fun l => collectiveTime s l.1 l.2))) 1000

/-- The time of a stage; `none` for a size beyond the plan. -/
def stageTime (s : State) (m : ImageMeta) (k : PlanKind) (size : Nat) : Option Nat := (planRow m k size).map (rowTime s)

/-- R60: `n` cold experts copied in rounds of the staging slots. -/
def roundsTime (m : ImageMeta) (n : Nat) : Nat :=
  let fetch := fun k => (planTime m .coldFetch k).getD never
  let slots := m.params.coldSlots
  if n = 0 then 0
  else if slots = 0 then never
  else n / slots * fetch slots + (if n % slots = 0 then 0 else fetch (n % slots))

/-- R60: the cold experts of an iteration over `tokens` tokens, in every MoE layer. -/
def coldTime (m : ImageMeta) (tokens : Nat) : Nat :=
  sumNat ((moeLayers m.params).map (fun l => roundsTime m (min (tokens * m.params.active) (coldExperts m l).length)))

/-- The image with a serial number, as it is costed now (R71). -/
def costedImage (s : State) (n : Nat) : Option ImageMeta := (imageOf s n).map (fun i => planned s i.info)

/-- The estimate of an iteration (R10): each entry is a sequence with its image, and its chunk length or 0 for a decode iteration. Each
image's sequences are costed by that image's plan table (R71, R319). -/
def iterTime (s : State) (l : List (Nat × Nat)) : Nat :=
  max 250 (sumNat (((l.map (·.1)).eraseDups).map (fun g => match costedImage s g with
    | none => 0
    | some m =>
      let here := (l.filter (fun x => x.1 == g)).map (·.2)
      let dec := (here.filter (· == 0)).length
      let chunks := here.filter (· != 0)
      (if dec = 0 then 0 else (stageTime s m .decode dec).getD never)
        + sumNat (chunks.map (fun c => (stageTime s m .prefill c).getD never)) + coldTime m (dec + sumNat chunks))))

/-- What the Strainer sees of a sequence: its image, its longest chunk left and their number, its interval deadline, its TTFT deadline with
the time at which it ends (0 once a token is sampled), the earliest time at which it joins, and whether it has still to join. -/
structure SeqView where
  image  : Nat
  chunk  : Nat
  left   : Nat
  interval : Nat
  ttft   : Nat
  ttftEnd : Nat
  joinAt : Nat
  joins  : Nat
  deriving DecidableEq, Repr

def seqView (q : Req) (v : Serve) : SeqView :=
  ⟨v.image, v.chunks.foldl max 0, v.chunks.length, v.interval, v.ttft, if v.lastToken = 0 then q.time + v.ttft else 0,
    if v.seq = 1 && v.kind = 2 then q.time + v.profile.deadline else 0, if v.seq = 1 then 1 else 0⟩

/-- Sequences that run or will run in the batch. -/
def views (s : State) : List SeqView :=
  s.reqs.filterMap (fun q => match q.job with | .serve v => if v.seq != 0 && v.ending.isNone then some (seqView q v) else none | _ => none)

/-- The longest iteration of these sequences while sequence `i` decodes: every sequence decodes, and every other one runs its longest
chunk. With `i` beyond the list, the longest of all. -/
def longestIter (s : State) (l : List SeqView) (i : Nat) : Nat :=
  iterTime s (l.map (fun v => (v.image, 0)) ++ ((l.zipIdx.filter (fun x => x.2 != i && x.1.chunk != 0)).map (fun x => (x.1.image, x.1.chunk))))

/-- The interval of sequence `i` holds in every iteration it can run (R30, R323). -/
def intervalHolds (s : State) (l : List SeqView) (i : Nat) (v : SeqView) : Bool := decide (longestIter s l i + reserveOf v.interval ≤ v.interval)

/-- The TTFT deadline holds when every iteration up to the first token is the longest. -/
def ttftHolds (s : State) (l : List SeqView) (v : SeqView) : Bool :=
  v.ttftEnd == 0 || decide (max s.time v.joinAt + (v.left + v.joins) * longestIter s l l.length + reserveOf v.ttft ≤ v.ttftEnd)

/-- R323: the deadlines of the first `n` sequences, those admitted already, still hold. -/
def othersHold (s : State) (l : List SeqView) (n : Nat) : Bool :=
  (l.zipIdx.take n).all (fun x => intervalHolds s l x.2 x.1 && ttftHolds s l x.1)

/-- The iteration under way: one chunk of every sequence in PREFILL, a decode iteration of every other. -/
def batchTime (s : State) : Nat :=
  iterTime s (s.reqs.filterMap (fun q => match q.job with
    | .serve v => if v.seq = 2 then some (v.image, v.chunks.headD 0) else if v.seq = 3 then some (v.image, 0) else none
    | _ => none))

/-- R10: the steps of an iteration, each within 20 ms. -/
def iterationSteps (s : State) : Nat := max 1 (ceilDiv (batchTime s) 20000)

/-! ### Boundary wait and hints (R28, R437) -/

/-- The wait to the next boundary that begins an iteration (R28). -/
def iterationWait (s : State) : Nat := boundaryWait s + (s.sched.runOf - 1 - s.sched.runAt) * 20000

/-- The budgeted end of a retrieval or generation, in µs: its retrieval deadline, or the deadlines of its tokens (R23, R437). -/
def budgetEnd (q : Req) (v : Serve) : Nat :=
  if v.kind = 0 then q.time + v.profile.deadline
  else if v.lastToken = 0 then q.time + v.ttft + (v.maxNew - 1) * v.interval
  else v.lastToken + (v.maxNew - v.gen.length) * v.interval

/-- R26: what a search reserves is released; the T2 rate that stays is that of the rerank's home rows. -/
def searchReleased (v : Serve) : Serve := { v with t2rate := v.homeRate, t3rate := 0, slots := 0, ctxs := 0 }

/-- R437: the state as admission will see it at time `t`, a later boundary, by the budgets of the requests admitted: searches that have
ended by then hold no rates, and requests that have ended hold nothing. -/
def releasedBy (s : State) (t : Nat) : State :=
  { s with
    time := t
    sched := { s.sched with start := t, length := 0, runAt := 0, runOf := 1, lag := [] }
    reqs := s.reqs.filterMap (fun q => match q.job with
      | .serve v =>
        if budgetEnd q v ≤ t then none
        else if v.searchBy ≤ t then some { q with job := .serve (searchReleased v) }
        else some q
      | _ => some q) }

/-- The times at which budgets release something: the next boundary, and the ends of searches and of requests after it. -/
def releaseTimes (s : State) : List Nat :=
  let t := s.time + boundaryWait s
  t :: sortNat ((s.reqs.flatMap (fun q => match q.job with | .serve v => [v.searchBy, budgetEnd q v] | _ => [])).filter (fun x => decide (t < x)))

/-- R437: to the earliest time at which what was refused fits by the budgets of the requests admitted (log 18). -/
def hintWhen (s : State) (fits : State → Bool) : Nat :=
  match (releaseTimes s).find? (fun t => fits (releasedBy s t)) with
  | some t => hintRange s (t - s.time)
  | none => 4294967295

/-- To the latest budgeted end of the retrievals and generations that hold something. -/
def pinsEnd (s : State) (holds : Serve → Bool) : Nat :=
  (s.reqs.filterMap (fun q => match q.job with
    | .serve v => if holds v then some (budgetEnd q v - s.time) else none
    | _ => none)).foldl max 0

/-- To the latest budgeted end of the requests pinned to an image (R68). -/
def pinnedEnd (s : State) (serial : Nat) : Nat := pinsEnd s (fun v => v.image == serial)

/-! ### Costs (R434, R436) -/

/-- R504: the Clearing time of a unit of estimate `e` µs. -/
def clearingTime (e : Nat) : Nat := 4 * e + 14

/-- The floor: the highest costing point recorded by a running request (R472). -/
def floorOfPower (s : State) : Nat := (s.reqs.map (fun q => match q.job with | .serve v => v.point | _ => 0)).foldl max (pointMhz 0)

/-- Power in W at an operating point. -/
def powerAt (l : List (Nat × Nat)) (mhz : Nat) : Nat := ((l.find? (fun p => p.1 == mhz)).map (·.2)).getD 0

/-- Power in W of the plan rows a request needs, at the highest floor of its life: its own costing point or a running one's (R472). -/
def planPower (s : State) (m : ImageMeta) (l : List (PlanKind × Nat)) : Nat :=
  sumNat (l.map (fun x => ((planRow m x.1 x.2).map (fun r => powerAt r.power (max s.power.costing (floorOfPower s)))).getD 0))

def gladeOf (s : State) (g : Nat) : Option GladeState := AMap.get none s.glades.sets g

/-- The settings a new request is costed against: a pending reduction counts (R443 item 2). -/
def costedSettings (g : GladeState) : GladeSettings :=
  match g.pending with
  | none => g.set
  | some p => { g.set with cores := min g.set.cores p.cores, entries := min g.set.entries p.entries
                           kvCap := if p.kvCap = 0 then g.set.kvCap else if g.set.kvCap = 0 then p.kvCap else min g.set.kvCap p.kvCap
                           t2 := ⟨min g.set.t2.rate p.t2.rate, p.t2.depth⟩, t3 := ⟨min g.set.t3.rate p.t3.rate, p.t3.depth⟩
                           grove := ⟨min g.set.grove.rate p.grove.rate, p.grove.depth⟩
                           hostOut := ⟨min g.set.hostOut.rate p.hostOut.rate, p.hostOut.depth⟩
                           hostIn := ⟨min g.set.hostIn.rate p.hostIn.rate, p.hostIn.depth⟩ }

/-- Most segments a probed list can have, times the lists probed, with the Thicket (R273, R303). -/
def searchSegments (i : Index) (l : List IRec) (pMax : Nat) : Nat :=
  let per := ((((l.filterMap (·.place)).eraseDups).map (fun n => segmentsOf i.body (listCount l n))).foldl max 0)
  pMax * per

/-- Sequence table entries: each Glade's guaranteed ones, then the common ones (R314, R432), beside those of sequences at home on another
member (R332). -/
def entriesFit (s : State) (g : Nat) : Bool :=
  let used := fun x => ((gladeServes s x).filter (fun v => v.kind != 0)).length + (if x = g then 1 else 0)
  let need := sumNat ((List.range 8).map (fun x => max (used x) (match gladeOf s x with | some y => y.set.entries | none => 0)))
  decide (need + s.grove.entries.length ≤ 8192)

/-- The baseline of RUN (R478). -/
def baseline (s : State) (ports : Nat) : Nat := if s.flash then 420 else 260 + 9 * ports

/-- Power reserved for admitted requests (R471), and for an online test: 7.1 W, in whole watts (R528, log 32). -/
def reservedPower (s : State) : Nat := sumNat ((serves s).map (fun p => p.2.power)) + (if s.bi.testing.isSome then 8 else 0)

/-- What a request asks of the Strainer (R26), in µs, bytes and bytes per µs: `gen` is its TTFT deadline, its chunks and its interval
deadline; `homeRate` the T2 rate of its rerank's home rows; `slots` the bytes of T0, or the table pages of a unit, that its table sets take;
`hot` its reads of pinned rows per ms; `cores` the cores that each stage needs. -/
structure Ask where
  glade    : Nat
  image    : Nat
  retrieve : Option Nat
  stages   : Nat
  gen      : Option (Nat × List Nat × Nat)
  pages    : Nat
  pageB    : Nat
  t2rate   : Nat
  t3rate   : Nat
  homeRate : Nat
  grove    : Nat
  outRate  : Nat
  slots    : Nat
  ctxs     : Nat
  hot      : Nat
  cores    : List Nat
  power    : Nat
  reserve  : Nat
  longest  : Nat
  deriving DecidableEq, Repr

def maxNat (l : List Nat) : Nat := l.foldl max 0

/-- The three sums of R30 with the given waits, prefill time and longest iteration. -/
def sumsFit (a : Ask) (wait join prefill decode : Nat) : Bool :=
  (match a.retrieve with | some d => decide (wait + a.stages + a.reserve ≤ d) | none => true)
    && (match a.gen with
        | some (ttft, _, interval) =>
          decide ((if a.retrieve.isSome then wait + a.stages + a.reserve else wait) + join + prefill + reserveOf ttft ≤ ttft)
            && decide (decode + reserveOf interval ≤ interval)
        | none => true)

/-- The cores present of a Glade's share range, those that stand in for absent ones included, and none held back (R81, R429, R434). -/
def gladeCores (s : State) (g : GladeState) : Nat :=
  ((List.range g.count).filter (fun i => (siteOf s (g.first + i)).isSome && !s.chip.heldBack.contains (g.first + i))).length + g.extra.length

/-- The cores that a request of a Glade is costed on. -/
def costedCores (s : State) (n : Nat) (set : GladeSettings) : Nat :=
  match gladeOf s n with | some g => min set.cores (gladeCores s g) | none => 0

/-- Capacities of a Glade's division (R432): T0 of its cores in bytes, table pages of a unit in proportion to T3 rates, scan contexts, reads
of pinned rows per ms of the 12 stacks in proportion to its cores (R193). -/
def t0Capacity (cores : Nat) : Nat := cores * 192 * tileBytes
def pageCapacity (s : State) (rate : Nat) : Nat :=
  1024 * rate / max 1 (sumNat (s.glades.sets.map (fun p => match p.2 with | some g => g.set.t3.rate | none => 0)))
def ctxCapacity (cores : Nat) : Nat := 4096 * cores
def hotCapacity (cores : Nat) : Nat := 12 * 400000 * cores / 512

/-- Reservations that peers hold on this member for a Glade's indexes (R27). -/
def reservedFor (s : State) (g : Nat) : List Reserved :=
  s.grove.reserves.filter (fun r => (heldIndex s r.handle).bind (indexGlade s) == some g)

/-- R459, R464: the Grove rate of a Glade on the ports that are up; all of it outside a set. -/
def groveCapacity (s : State) (rate : Nat) : Nat :=
  if inSet s then rate / 8 * ((List.range 8).filter (fun p => portUp s p)).length else rate

/-- Is the request's search a flash search? -/
def askFlash (a : Ask) : Bool := a.t3rate != 0

/-- Rates, cores, contexts, table slots and row reads beside those that the Glade holds (R26, R432, R435). -/
def divisionFits (s : State) (a : Ask) (g : GladeSettings) (held : List Serve) (far : List Reserved) : Bool :=
  let n := costedCores s a.glade g
  let slots := fun (flash : Bool) => sumNat ((held.filter (fun v => (v.t3rate != 0) == flash)).map (·.slots))
  decide (sumNat (held.map (·.t2rate)) + sumNat (far.map (·.t2rate)) + max a.t2rate a.homeRate ≤ g.t2.rate)
    && decide (sumNat (held.map (·.t3rate)) + a.t3rate ≤ g.t3.rate) && decide (sumNat (held.map (·.outRate)) + a.outRate ≤ g.hostOut.rate)
    && decide (sumNat (held.map (·.grove)) + a.grove ≤ groveCapacity s g.grove.rate)
    && decide (sumNat (held.map (fun v => maxNat v.cores)) + sumNat (far.map (·.cores)) + maxNat a.cores ≤ n)
    && decide (sumNat (held.map (·.ctxs)) + sumNat (far.map (·.ctxs)) + a.ctxs ≤ ctxCapacity n)
    && (if askFlash a then decide (slots true + a.slots ≤ pageCapacity s g.t3.rate)
        else decide (slots false + sumNat (far.map (·.slots)) + a.slots ≤ t0Capacity n))
    && decide (sumNat (held.map (·.hot)) + a.hot ≤ hotCapacity n)

/-- Open scans of a unit (R300): one for every flash search, over all Glades. -/
def scansFit (s : State) (a : Ask) : Bool := !askFlash a || decide (((serves s).filter (fun p => p.2.t3rate != 0)).length < 64)

/-- Check 6 of R24: on an idle module. -/
def idleFits (s : State) (a : Ask) (g : GladeSettings) (flash : Bool) : Bool :=
  let chunks := match a.gen with | some (_, l, _) => l | none => []
  decide (0 < costedCores s a.glade g) && g.t2.rate != 0 && g.hostIn.rate != 0 && g.hostOut.rate != 0 && (!flash || g.t3.rate != 0)
    && sumsFit a 0 0 (sumNat (chunks.map (fun c => iterTime s [(a.image, c)]))) (iterTime s [(a.image, 0)])
    && decide (a.pages * a.pageB ≤ kvPool s) && divisionFits s a g [] []
    && (a.reserve == 0 || decide (clearingTime a.longest ≤ a.reserve))
    && (match a.gen with
        | some (ttft, _, interval) => decide (clearingTime a.longest ≤ reserveOf ttft) && decide (clearingTime a.longest ≤ reserveOf interval)
        | none => true)

/-- The sequences in view with a new one that asks for generation; the new one is the last. -/
def withNew (s : State) (a : Ask) : List SeqView :=
  match a.gen with
  | some (ttft, chunks, interval) => views s ++ [⟨a.image, maxNat chunks, chunks.length, interval, ttft, 0, 0, 1⟩]
  | none => views s

/-- Check 7 of R24: beside what is reserved now. -/
def nowFits (s : State) (a : Ask) (g : GladeSettings) (ports : Nat) : Bool :=
  let l := withNew s a
  let n := (views s).length
  let chunks := match a.gen with | some (_, c, _) => c.length | none => 0
  (a.gen.isNone || entriesFit s a.glade) && decide (a.pages * a.pageB ≤ kvFree s)
    && (g.kvCap == 0 || decide (kvHeldBy s a.glade + a.pages * a.pageB ≤ g.kvCap))
    && divisionFits s a g (gladeServes s a.glade) (reservedFor s a.glade) && scansFit s a
    && decide (baseline s (max ports (portsEnabled s)) + reservedPower s + a.power ≤ (match s.power.cut with | some c => c.1 | none => s.power.sust))
    && sumsFit a (if a.retrieve.isSome then boundaryWait s else iterationWait s) (if a.gen.isSome then longestIter s (views s) n else 0)
        (chunks * longestIter s l l.length) (longestIter s l n)
    && (a.gen.isNone || othersHold s l n)

/-! ### Checks 1 to 5 of R24 -/

def fpGe (a b : W32) : Bool := fpLt b a || fpEq a b
def fpTenth : W32 := fpDiv (fpOfNat 1) (fpOfNat 1000)

/-- R317, R318, R347: the sampling block and the stop strings; vocabulary and grammars are those of the image. -/
def paramsOk (p : ParamObj) (maxNew : Nat) (m : Option ImageMeta) : Bool :=
  !p.rsvd && decide (p.topK ≤ 256) && decide (p.biases.length ≤ 64) && decide (p.window ≤ 131072) && decide (p.minNew ≤ maxNew)
    && p.flags.toNat / 4 == 0
    && (fpIsZero p.temperature || (fpFinite p.temperature && fpGe p.temperature fpTenth && !fpLt (fpOfNat 100) p.temperature))
    && !fpIsNan p.topP && fpLt 0#32 p.topP && !fpLt fp32One p.topP
    && !fpIsNan p.minP && !fpLt p.minP 0#32 && fpLt p.minP fp32One
    && !fpIsNan p.repetition && fpLt 0#32 p.repetition && !fpLt (fpOfNat 64) p.repetition && fpFinite p.presence
    && p.biases.all (fun b => !fpIsNan b.2 && b.2 != fp32Inf false && (match m with | some i => decide (b.1 < i.params.vocab) | none => true))
    && (p.biases.map (·.1)).eraseDups.length == p.biases.length
    && (p.grammar == 0xFFFF#16 || (match m with | some i => decide (p.grammar.toNat < i.grammars.length) | none => true))
    && decide (p.stops.length ≤ 8) && p.stops.all (fun st => decide (1 ≤ st.length) && decide (st.length ≤ 64) && wellFormed st)

def seedGiven (p : ParamObj) : Bool := bitOf p.flags 0
def penalizePrompt (p : ParamObj) : Bool := bitOf p.flags 1

/-- R259. -/
def filterOk (f : FilterBody) (attrs : Nat) : Bool :=
  f.tenant == 0#16 && f.flags.toNat / 2 == 0 && bitOf f.flags 0 == f.acl.isSome && decide (f.preds.length ≤ 4)
    && f.preds.all (fun p => decide (p.attr < attrs) && decide (p.low.toNat ≤ p.high.toNat))

def maxItem : Nat := 16 * 1048576

/-- Check 1 for the search part of QUERY and ASK (R24, R273, R407). -/
def searchFormOk (s : State) (b : QueryBody) (i : Index) (pMax : Nat) : Bool :=
  decide (1 ≤ b.k) && decide (b.k ≤ 256) && decide (1 ≤ b.pr) && decide (b.pr ≤ min 256 i.body.nReg)
    && decide (b.pr * i.body.lam ≤ 262144) && decide (1 ≤ b.p) && decide (b.p ≤ 4096) && decide (b.p ≤ pMax) && decide (pMax ≤ 4096)
    && decide (pMax ≤ b.pr * i.body.lam) && filterOk b.filter i.body.attrs && b.objects == 1 && decide (1 ≤ b.text.len)
    && decide (b.text.len ≤ maxItem) && (profileOf s b.profile).isSome && b.text.tagOk

/-- Check 1 for the generation part of ASK and GENERATE (R24, R441). -/
def genFormOk (maxNew ttft interval outLen : Nat) : Bool :=
  decide (1 ≤ maxNew) && decide (1000 ≤ ttft) && decide (ttft ≤ 600000000) && decide (295 ≤ interval) && decide (interval ≤ 60000000)
    && decide (4096 ≤ outLen)

/-- Check 3 for work on the cores: T2 and every core group (R24). -/
def coresReady (s : State) : Bool := readyBit s bT2 && (List.range 8).all (fun g => readyBit s (bCg g))

/-- Check 3 for an index: T3 for flash; for a set index the ports of its set (R24, R306). -/
def indexReady (s : State) (i : Index) (setOk : Bool) : Bool :=
  (!isFlash i.body || readyBit s bT3) && (i.body.shardCount == 1 || (inSet s && setOk))

/-- The time left of the load in progress (R68, R70): in drain mode first to the end of the requests pinned to the image it replaces,
then the declared bytes not yet written at the host-in rate of set 8 (log 18). -/
def loadHint (s : State) : Nat :=
  match loading s with
  | some (_, j) =>
    let wait := match s.images.current with | some i => if j.oldFreed then 0 else pinnedEnd s i.serial | none => 0
    let rate := match gladeOf s 8 with | some g => max 1 g.set.hostIn.rate | none => 1
    hintRange s (wait + ceilDiv (j.body.t2 + j.body.t3 - j.chunks * 1048576) rate)
  | none => hintRange s 0

/-- R70, R72: ST_BUSY while a drain-mode load runs, or any load that will make an image current when there is none (log 18); otherwise
ST_NOT_READY without an image. -/
def modelCheck (s : State) : Option Ending :=
  if (loading s).any (fun l => l.2.body.mode == 1#8 || s.images.current.isNone) then some (busyAt 3 (loadHint s))
  else if s.images.current.isNone || !readyBit s bImage then some (failAt stNotReady 3)
  else none

/-- The version a request selects (R12, R24 check 4). -/
def selectVersion (i : Index) (n : Nat) : Option IdxVer := versionOf i (if n = 0 then i.current else n)

/-- Is a table or section that the request needs damaged (R506)? -/
def imageDamaged (s : State) (l : List Nat) : Bool := match s.images.current with | some i => i.damaged.any (fun x => l.contains x) | none => false

/-- Plaintext bytes of a text item, after the cut (R335). -/
def textLen (t : TextObj) : Nat := if t.len ≤ textLimit then t.len else (cutText t.bytes).length

/-- The record of an admitted retrieval or generation, before anything has run. -/
def serveNew (kind : Nat) (p : Profile) (params : ParamObj) (seed : W64) (gstart : Nat) (t : TextObj) : Serve :=
  { kind := kind, handle := 0, version := 0, vstate := 0, statePin := false, image := 0, k := 0, pr := 0, p := 0, pMax := 0, profile := p
    budget := 0, maxNew := 0, ttft := 0, interval := 0, outLen := 0, retPrompt := false, inclStop := false, template := false
    params := params, text := cutText t.bytes, truncated := decide (textLimit < t.len), started := false, awaits := [], tables := [], stage := 0
    searchBy := 0, searched := false, question := none, found := none, ranked := [], reranked := false, classes := [], whole := 0, cut := 0
    skipped := 0, conf := 0#32, pages := 0, pageBytes := 0, pageTable := [], t2rate := 0, t3rate := 0, homeRate := 0, grove := 0, slots := 0, ctxs := 0, hot := 0
    cores := [], filter := ⟨0#16, 0#8, [], none⟩, outRate := 0, point := 0, power := 0, reserve := 0, seq := 0, joinable := false, prompt := [], gen := [], fresh := false
    gstate := gstart, seed := seed, chunks := [], pos := 0, pendBytes := [], heldBytes := [], released := [], segs := 0, outUsed := 0
    lastToken := 0, longest := 0, ending := none, doomed := none }

/-- R312: free pages of the pool for a request, in position order. Pages are numbered by the model, lowest free first; the spec gives no
order (log 47). -/
def freePages (s : State) (n : Nat) : List Nat :=
  let used := (serves s).flatMap (fun p => p.2.pageTable)
  ((List.range (used.length + n)).filter (fun x => !used.contains x)).take n

/-- The seed of a request: given, or drawn (R327). -/
def seedOf (s : State) (p : ParamObj) : W64 := if seedGiven p then p.seed else Config.freeSeed s.freeCount

/-- Drawing a seed uses the generator once. -/
def seedDrawn (s : State) (p : ParamObj) : State := if seedGiven p then s else drawn s

def grammarStart (m : ImageMeta) (p : ParamObj) : Nat :=
  if p.grammar = 0xFFFF#16 then 0 else ((grammarAt m p.grammar.toNat).map (·.start)).getD 0

/-- The chunk lengths the plan table offers (R320). -/
def chunkRows (m : ImageMeta) : List Nat := (m.plan.filter (fun r => r.kind == .prefill && decide (1 ≤ r.upto) && decide (r.upto ≤ 16384))).map (·.upto)

/-- R320: the longest chunk with which every iteration stays within the interval deadlines of the sequences admitted; when none does, the
longest of all, which check 7 then refuses. -/
def chunkLen (s : State) (m : ImageMeta) (image : Nat) : Nat :=
  let n := (views s).length
  let ok := (chunkRows m).filter (fun c =>
    let l := views s ++ [⟨image, c, 1, 0, 0, 0, 0, 1⟩]
    (l.zipIdx.take n).all (fun x => intervalHolds s l x.2 x.1))
  maxNat (if ok.isEmpty then chunkRows m else ok)

def chunkSchedule (n c : Nat) : List Nat :=
  if c = 0 || n = 0 then [] else List.replicate (n / c) c ++ (if n % c = 0 then [] else [n % c])

end Sys2Proof.Machine
end

