-- ==== Sys2Proof/Machine/Serve.lean ====
section
/-!
DEFINITION. QUERY, ASK and GENERATE: the checks of R24 in order, admission (R26 to R30, R316), and what each stage's end makes of a
request (R31 to R37, R273 to R275, R316, R319 to R329, R348, R359, R360).
-/
namespace Sys2Proof.Machine

/-! ### Admission -/

/-- Current table versions, pinned at admission (R12, R201). -/
def currentTables (s : State) (serial : Nat) : List (Nat × Nat) :=
  (s.tabs.versions.filter (fun t => t.current && t.image == serial)).map (fun t => (t.table, t.version))

/-- Segment bytes per microsecond at the interval deadline's rate (R26): 128 bytes in every interval, since the spec gives no byte count of
a segment (DESIGN CHOICE, log 18). -/
def segmentRate (interval : Nat) : Nat := if interval = 0 then 0 else ceilDiv 128 interval

def searchKind (flash : Bool) : PlanKind := if flash then .searchFlash else .searchSharded

/-- Admit: the request and its reservations; search reservations on other holders wait for their grants (R27). -/
def admitOne (s : State) (h : MsgHead) (c : Ctx) (op : Nat) (g : Nat) (v : Serve) : State :=
  let s := if v.kind = 0 then s else seedDrawn s v.params
  let s := acceptReq s h c op (some g) (sessionTenant c.sess) (.serve v)
  if v.awaits.isEmpty then s
  else v.awaits.foldl (fun s m => sendTo s m (leBytes 1 2 ++ leBytes 8 h.rid.toNat ++ leBytes 4 v.handle ++ leBytes 4 v.pMax ++ leBytes 4 (searchBudget v.profile false))) s

/-- Check 6 and 7 with their answers; `none` admits. -/
def strain (s : State) (a : Ask) (flash costOk : Bool) : Option Ending :=
  match gladeOf s a.glade with
  | none => some (failAt stInvalid 6)
  | some g =>
    let set := costedSettings g
    if !costOk || !idleFits s a set flash then some (failAt stInvalid 6)
    else if !nowFits s a set s.power.ports then some (busyAt 7 (hintWhen s (fun t => nowFits t a set t.power.ports)))
    else none

/-- Does a stage's plan row fit its budget? A size beyond the plan fits none. -/
def costs (s : State) (m : ImageMeta) (k : PlanKind) (size budget : Nat) : Bool :=
  match stageTime s m k size with | some t => decide (t ≤ budget) | none => false

/-- The longest unit a request runs, by the plan (R436). -/
def longestUnit (m : ImageMeta) : Nat := (planTime m .unit 0).getD 0

/-- Check 1 of R24 for QUERY and ASK. -/
def queryForm (s : State) (h : MsgHead) (b : QueryBody) (ask : Bool) : Bool :=
  match loadedIndex s b.handle, profileOf s b.profile with
  | some i, some p =>
    formOk h true && searchFormOk s b i (if b.pMax = 0 then b.p else b.pMax)
      && (if ask then
            decide (b.flags.toNat < 4) && decide (1 ≤ b.budget) && decide (b.budget + b.maxNew ≤ 131072)
              && genFormOk b.maxNew b.ttft b.interval b.outLen && decide (p.deadline < b.ttft)
              && paramsOk b.params b.maxNew (s.images.current.map (·.info))
          else
            b.flags == 0#16 && b.budget == 0 && b.maxNew == 0 && b.ttft == 0 && b.interval == 0
              && decide (64 * ceilDiv (112 + 16 * b.k) 64 ≤ b.outLen))
  | _, _ => false

/-- Checks 1 to 5 of R24 for QUERY and ASK; otherwise the index, the version, the image and the profile. -/
def queryChecks (s : State) (h : MsgHead) (b : QueryBody) (ask : Bool) (x : Session) :
    Except Ending (Index × IdxVer × Img × Profile × Nat) :=
  if !queryForm s h b ask then .error (failAt stInvalid 1)
  else if !(tenRight s x 0 && (!ask || tenRight s x 1) && granted s x b.handle) then .error (failAt stDenied 2)
  else if lostIndex s b.handle then .error (failAt stFault dtPoisoned)
  else match modelCheck s with
    | some e => .error e
    | none =>
      match loadedIndex s b.handle, s.images.current, profileOf s b.profile, sessionGlade s x with
      | some i, some img, some p, some g =>
        if !coresReady s || !indexReady s i (setAllReady s) || (inSet s && !setAllReady s) || (ask && imageDamaged s [0x06, 0x08])
        then .error (failAt stNotReady 3)
        else match selectVersion i b.version with
          | none => .error (failAt stVersionRetired 4)
          | some ver => if i.fp != img.info.fingerprint then .error (failAt stIndexMismatch 5) else .ok (i, ver, img, p, g)
      | _, _, _, _ => .error (failAt stNotReady 3)

/-! #### What a request reserves (R26, R193) -/

/-- Cores that a stage keeps busy, by its core time in core-µs. -/
def stageCores (m : ImageMeta) (k : PlanKind) (size budget : Nat) : Nat :=
  match planRow m k size with | some r => ceilDiv r.cores (max 1 budget) | none => 0

/-- Grove bytes of a stage in a µs. -/
def stageGrove (m : ImageMeta) (k : PlanKind) (size budget : Nat) : Nat :=
  match planRow m k size with | some r => ceilDiv (sumNat (r.links.map (·.2))) (max 1 budget) | none => 0

/-- R198: a window in which an update is applied ends within 60 µs; every stage that reads a feature table counts one. -/
def applyWindow : Nat := 60

/-- Bytes of the tables of a set (R256). -/
def tablesSize (b : LoadIndexBody) : Nat := 2 * b.m * (if b.codeForm = 0#8 then 256 else 16)

/-- The distance-table slots of a search, one for each probed list: a header in T0, with a table block for L2 (R257); on a unit, table pages
(R301). -/
def searchSlots (b : LoadIndexBody) (pMax : Nat) : Nat :=
  pMax * (if isFlash b then ceilDiv (tablesSize b) 4096 else 64 + (if b.metric = 2#8 then tablesSize b else 0))

/-- The listed feature tables with their bags, as they are current now (R188). -/
def featureTables (s : State) (m : ImageMeta) (serial : Nat) : List (TableVer × Nat) :=
  m.features.filterMap (fun f =>
    (s.tabs.versions.find? (fun t => t.current && t.image == serial && t.table == f.table + 1)).map (fun t => (t, f.bag)))

/-- R193: reads of pinned rows per ms for `k` candidates, each of 512 bytes of stride begun. -/
def hotReads (s : State) (m : ImageMeta) (serial k budget : Nat) : Nat :=
  ceilDiv (1000 * sumNat (((featureTables s m serial).filter (fun x => tablePinned s x.1)).map (fun x => k * x.2 * ceilDiv x.1.stride 512))) (max 1 budget)

/-- R193: T2 bytes per µs of every other lookup, costed as a home read. -/
def homeReads (s : State) (m : ImageMeta) (serial k budget : Nat) : Nat :=
  ceilDiv (sumNat (((featureTables s m serial).filter (fun x => !tablePinned s x.1)).map (fun x => k * x.2 * x.1.stride))) (max 1 budget)

/-- R37: host-link bytes per µs of a returned packed prompt, between the retrieval deadline and the TTFT deadline. -/
def promptRate (b : QueryBody) (p : Profile) : Nat :=
  if bitOf b.flags 0 then ceilDiv (segmentSize (4 + 4 * b.budget)) (max 1 (b.ttft - p.deadline)) else 0

/-- What a QUERY or an ASK asks of the Strainer (R26, R29, R30, R303). -/
def queryAsk (s : State) (b : QueryBody) (ask : Bool) (i : Index) (ver : IdxVer) (img : Img) (p : Profile) (g : Nat) : Ask :=
  let m := img.info
  let flash := isFlash i.body
  let kind := searchKind flash
  let pMax := if b.pMax = 0 then b.p else b.pMax
  let budget := searchBudget p flash
  let rate := if budget = 0 then 0 else ceilDiv (searchSegments i (latestState ver).recs pMax * tileBytes) budget
  let pages := if ask then ceilDiv (b.budget + b.maxNew) 64 else 0
  { glade := g, image := img.serial, retrieve := some p.deadline
    stages := 50 + p.embed + budget + (if ask then p.rerank + applyWindow + p.pack else 0)
    gen := if ask then some (b.ttft, chunkSchedule b.budget (chunkLen s m img.serial), b.interval) else none
    pages := pages, pageB := pageBytesOf m
    t2rate := if flash then 0 else rate, t3rate := if flash then rate else 0
    homeRate := if ask then homeReads s m img.serial b.k p.rerank else 0
    grove := if i.body.shardCount = 1 && !inSet s then 0
      else maxNat (stageGrove m .embed (textLen b.text) p.embed :: stageGrove m kind pMax budget
        :: (if ask then [stageGrove m .rerank b.k p.rerank, stageGrove m .decode 1 b.interval] else []))
    outRate := segmentRate b.interval + (if ask then promptRate b p else 0)
    slots := searchSlots i.body pMax
    ctxs := ((planRow m kind pMax).map (·.contexts)).getD 0
    hot := if ask then hotReads s m img.serial b.k p.rerank else 0
    cores := stageCores m .embed (textLen b.text) p.embed :: stageCores m kind pMax budget
      :: (if ask then [stageCores m .rerank b.k p.rerank, stageCores m .pack b.budget p.pack, stageCores m .decode 1 b.interval] else [])
    power := planPower s m ([(.embed, textLen b.text), (kind, pMax)] ++ (if ask then [(.rerank, b.k), (.decode, 1)] else []))
    reserve := reserveOf p.deadline, longest := longestUnit m }

/-- Idle costs of the stages against their budgets (check 6), the pair length (R34) and, for an ASK, the chunks. -/
def queryCost (s : State) (b : QueryBody) (ask : Bool) (i : Index) (img : Img) (p : Profile) : Bool :=
  let m := img.info
  let flash := isFlash i.body
  let budget := searchBudget p flash
  budget != 0 && costs s m .embed (textLen b.text) p.embed && costs s m (searchKind flash) (if b.pMax = 0 then b.p else b.pMax) budget
    && (!ask || (decide (p.pairLen ≤ m.params.context) && costs s m .rerank b.k p.rerank && costs s m .pack b.budget p.pack
      && !(chunkRows m).isEmpty))

/-- R189: the class of every tenant now. -/
def tenantClasses (s : State) : List (Nat × Nat) :=
  match s.prot.store with
  | some t => t.tens.filterMap (fun p => p.2.map (fun x => (p.1, x.cls.toNat)))
  | none => []

def queryServe (s : State) (b : QueryBody) (ask : Bool) (i : Index) (ver : IdxVer) (img : Img) (p : Profile) (a : Ask) : Serve :=
  { serveNew (if ask then 2 else 0) p b.params (if ask then seedOf s b.params else 0#64) (grammarStart img.info b.params) b.text with
    handle := i.handle, version := ver.num, vstate := (latestState ver).num, statePin := true, image := img.serial
    k := b.k, pr := b.pr, p := b.p, pMax := if b.pMax = 0 then b.p else b.pMax, budget := b.budget, maxNew := b.maxNew
    ttft := b.ttft, interval := b.interval, outLen := b.outLen, retPrompt := ask && bitOf b.flags 0, inclStop := bitOf b.flags 1
    awaits := if i.body.shardCount = 1 then [] else peersOf s
    tables := currentTables s img.serial
    filter := b.filter, classes := tenantClasses s
    pages := a.pages, pageBytes := a.pageB, pageTable := freePages s a.pages, t2rate := max a.t2rate a.homeRate, t3rate := a.t3rate, homeRate := a.homeRate, outRate := a.outRate
    grove := a.grove, slots := a.slots, ctxs := a.ctxs, hot := a.hot, cores := a.cores, power := a.power
    point := s.power.costing, reserve := a.reserve, seq := if ask then 1 else 0
    searchBy := s.time + boundaryWait s + p.embed + searchBudget p (isFlash i.body)
    chunks := match a.gen with | some (_, l, _) => l | none => [] }

def queryGo (s : State) (h : MsgHead) (b : QueryBody) (ask : Bool) (c : Ctx) : State :=
  match queryChecks s h b ask c.sess with
  | .error e => refuse s h c e
  | .ok (i, ver, img0, p, g) =>
    let img := { img0 with info := planned s img0.info }
    let a := queryAsk s b ask i ver img p g
    match strain s a (isFlash i.body) (queryCost s b ask i img p) with
    | some e => refuse s h c e
    | none => admitOne s h c (if ask then opAsk else opQuery) g
        (queryServe s b ask i ver img p a)

def execQuery (h : MsgHead) (b : QueryBody) (s : State) : Result :=
  .next (message s h opQuery .opened false (fun s c => queryGo s h b false c))

def execAsk (h : MsgHead) (b : QueryBody) (s : State) : Result :=
  .next (message s h opAsk .opened false (fun s c => queryGo s h b true c))

/-! ### GENERATE (R316, R408) -/

/-- Tokens the template's form without passages adds (R358). -/
def bareTokens (m : Option ImageMeta) (wrap : Bool) : Nat :=
  if wrap then (match m with | some i => (runOfT i.template 7).length + (runOfT i.template 8).length | none => 0) else 0

/-- R316: prompt tokens counted for the reservation. -/
def promptCount (m : Option ImageMeta) (b : GenBody) : Nat :=
  min b.cap (textLen b.text + bareTokens m (bitOf b.flags 0))

def genForm (s : State) (h : MsgHead) (b : GenBody) : Bool :=
  let m := s.images.current.map (·.info)
  formOk h true && decide (b.flags.toNat < 4) && b.objects == 1 && decide (1 ≤ b.cap) && decide (b.cap ≤ 131071)
    && genFormOk b.maxNew b.ttft b.interval b.outLen && paramsOk b.params b.maxNew m && decide (b.text.len ≤ maxItem) && b.text.tagOk
    && (match m with | some i => decide (promptCount m b + b.maxNew ≤ i.params.context) | none => true)
    && (b.text.len != 0 || decide (0 < bareTokens m (bitOf b.flags 0)))

def genAsk (s : State) (b : GenBody) (img : Img) (g : Nat) : Ask :=
  let m := img.info
  let n := promptCount (some m) b
  { glade := g, image := img.serial, retrieve := none, stages := 0
    gen := some (b.ttft, chunkSchedule n (chunkLen s m img.serial), b.interval)
    pages := ceilDiv (n + b.maxNew) 64, pageB := pageBytesOf m, t2rate := 0, t3rate := 0, homeRate := 0
    grove := if inSet s then stageGrove m .decode 1 b.interval else 0
    outRate := segmentRate b.interval, slots := 0, ctxs := 0, hot := 0, cores := [stageCores m .decode 1 b.interval]
    power := planPower s m [(.decode, 1)], reserve := reserveOf b.ttft, longest := longestUnit m }

def genServe (s : State) (b : GenBody) (img : Img) (a : Ask) : Serve :=
  { serveNew 1 ⟨0, 0, 0, 0, 0, 0, 0, 0⟩ b.params (seedOf s b.params) (grammarStart img.info b.params) b.text with
    image := img.serial, tables := currentTables s img.serial, budget := b.cap, maxNew := b.maxNew, ttft := b.ttft, interval := b.interval, outLen := b.outLen
    template := bitOf b.flags 0, inclStop := bitOf b.flags 1, pages := a.pages, pageBytes := a.pageB, pageTable := freePages s a.pages, outRate := a.outRate
    grove := a.grove, cores := a.cores, power := a.power, point := s.power.costing, reserve := a.reserve, seq := 1
    chunks := match a.gen with | some (_, l, _) => l | none => [] }

def genGo (s : State) (h : MsgHead) (b : GenBody) (c : Ctx) : State :=
  if !genForm s h b then refuse s h c (failAt stInvalid 1)
  else if !tenRight s c.sess 1 then refuse s h c (failAt stDenied 2)
  else match modelCheck s with
    | some e => refuse s h c e
    | none =>
      match s.images.current, sessionGlade s c.sess with
      | some img0, some g =>
        if !coresReady s || (inSet s && !setAllReady s) then refuse s h c (failAt stNotReady 3)
        else
          let img := { img0 with info := planned s img0.info }
          let a := genAsk s b img g
          match strain s a false !(chunkRows img.info).isEmpty with
          | some e => refuse s h c e
          | none => admitOne s h c opGenerate g (genServe s b img a)
      | _, _ => refuse s h c (failAt stNotReady 3)

def execGenerate (h : MsgHead) (b : GenBody) (s : State) : Result :=
  .next (message s h opGenerate .opened false (fun s c => genGo s h b c))

/-! ### Stage ends -/

/-- The result block of a search (R275). -/
def resultBlock (v : Serve) (fp : W128) (sigma : W32) (o : SearchOut) : List Byte :=
  leBytes 4 v.handle ++ leBytes 4 v.version ++ leBytes 16 fp.toNat ++ leBytes 4 o.entries.length ++ leBytes 4 v.k
    ++ leBytes 4 (listsProbed v) ++ leBytes 4 o.skipped ++ leBytes 8 o.scored ++ leBytes 4 o.filtered ++ leBytes 4 o.tombstoned
    ++ leBytes 2 v.pr ++ leBytes 1 v.stage ++ leBytes 1 (searchFlags v) ++ leBytes 4 sigma.toNat
    ++ o.entries.flatMap (fun e => leBytes 6 e.pid ++ leBytes 2 0 ++ leBytes 4 (intBits 32 e.score) ++ leBytes 4 e.source.toNat)

/-- The bare form of a GENERATE prompt (R358). -/
def wrapPrompt (m : ImageMeta) (wrap : Bool) (l : List Nat) : List Nat :=
  if wrap then runOfT m.template 7 ++ l ++ runOfT m.template 8 else l

/-- R320: when tokenization gives fewer tokens than were counted, the last chunks are shortened or dropped. -/
def shortenChunks : List Nat → Nat → List Nat
  | [], _ => []
  | c :: r, n => if n = 0 then [] else min c n :: shortenChunks r (n - min c n)

/-- Stages of a retrieval or generation that have not ended. -/
def stagesLeft (v : Serve) : Nat :=
  if v.kind = 1 then 1
  else if v.kind = 0 then (if v.searched then 0 else if v.stage = 0 then 2 else 1)
  else if v.joinable then 1 else if v.reranked then 2 else if v.searched then 3 else if v.stage = 0 then 5 else 4

/-- R26: what the stages that have ended reserved is released at the first boundary after: the search's slots, contexts and rates, the
rerank's hot-row share and home reads, each stage's core time. -/
def releaseStages (v : Serve) : Serve :=
  let v := { v with cores := v.cores.drop (v.cores.length - stagesLeft v) }
  let v := if v.reranked then { v with hot := 0, homeRate := 0 } else v
  if v.searched then searchReleased v else v

/-- The text unit has tokenized a question or a prompt, once (R31, R316, R342). -/
def onTokenized (s : State) (q : Req) (v : Serve) : State :=
  match imageOf s v.image, v.question with
  | none, _ => s
  | some _, some _ => s
  | some img, none =>
    let toks := tokenize img.info.vocab v.text
    if v.kind = 1 then
      let p := wrapPrompt img.info v.template toks
      if v.budget < p.length then endServe s q { v with prompt := p } stLengthLimit 0 0
      else setJob s q (.serve { v with question := some toks, prompt := p, joinable := true, chunks := shortenChunks v.chunks p.length })
    else setJob s q (.serve { v with question := some toks })

/-- Sum the counters of a stage's drains; the entries are those of the last stage. -/
def addStage (a : Option SearchOut) (o : SearchOut) (k : Nat) : SearchOut :=
  match a with
  | none => { o with entries := o.entries.take k }
  | some x => { o with entries := o.entries.take k, skipped := x.skipped + o.skipped, scored := x.scored + o.scored
                       filtered := x.filtered + o.filtered, tombstoned := x.tombstoned + o.tombstoned }

/-- R273: does the search end after this stage? -/
def searchEnds (v : Serve) (o : SearchOut) : Bool :=
  let l := min (v.p * 2 ^ (v.stage - 1)) v.pMax
  decide (v.k ≤ o.entries.length) || l == v.pMax || decide (o.ranked ≤ l)

/-- The version state that a request searches: its pinned one. -/
def pinnedRecs (i : Index) (v : Serve) : List IRec :=
  match versionOf i v.version with
  | some x => ((x.states.find? (fun y => y.num == v.vstate)).getD (latestState x)).recs
  | none => []

/-- A search stage has ended (R273, R274), with the entries that R276 gives it; a QUERY writes its block as one final segment and completes
(R275, R410). A stage of a search that has ended, or that has no embedding yet, is none. -/
def onSearched (s : State) (q : Req) (v : Serve) (peers : List Entry) (skipped scored filtered tombstoned : Nat) : State :=
  match heldIndex s v.handle, imageOf s v.image, v.question with
  | some i, some img, some toks =>
    if v.searched || v.kind = 1 then s
    else
      let query := queryVector i.body (embedVector img.info toks)
      let (l, ranked) := stageEntries i (pinnedRecs i v) query v.filter (q.tenant.getD 0) v.k v.pr v.p v.pMax (v.stage + 1) peers
      let o : SearchOut := ⟨l, ranked, skipped, scored, filtered, tombstoned⟩
      let v := { v with stage := v.stage + 1, found := some (addStage v.found o v.k) }
      let out := (v.found).getD o
      if !searchEnds v out then setJob s q (.serve v)
      else if v.kind != 0 then setJob s q (.serve { v with searched := true })
      else
        let v := { v with searched := true }
        let (s1, v1) := putSegment s q v true (resultBlock v i.fp i.body.sigma out)
        endServe s1 q v1 (naturalStatus v1) 0 0
  | none, _, some _ => endServe s q v stFault 0 0
  | _, _, _ => s

/-- R34, R50, R283: a candidate's score. The pair's passage tokens are those of its text; a passage that does not open ends the request first
(R361, R506). -/
def scoreOf (s : State) (store : List PTile) (m : ImageMeta) (v : Serve) (toks : List Nat) (made : Int) (pid : Nat) : W32 :=
  match findPassage s store pid with
  | some f => rerankScore m (pairTokens v.profile.pairLen toks (tokenize m.vocab f.text))
      (featureVector s m v.tables f made (((v.classes.find? (fun x => x.1 == f.tenant)).map (·.2)).getD 0))
  | none => fp32NaN

def versionMade (i : Index) (v : Serve) : Int := match versionOf i v.version with | some x => x.made | none => 0

/-- The P-tiles of the version that a request has pinned (R282, R291). -/
def pinnedTiles (i : Index) (v : Serve) : List PTile := match versionOf i v.version with | some x => tilesOf i x | none => []

/-- The rerank has ended: every candidate that the search found has its score (R34, R35); one that does not open is a fault (R506). -/
def onReranked (s : State) (q : Req) (v : Serve) : State :=
  match heldIndex s v.handle, imageOf s v.image, v.question, v.found with
  | some i, some img, some toks, some o =>
    if v.kind != 2 || !v.searched || v.reranked then s
    else if !o.entries.all (fun e => (findPassage s (pinnedTiles i v) e.pid).isSome) then endServe s q v stFault dtPoisoned 0
    else
      let scores := o.entries.map (fun e => (e.pid, scoreOf s (pinnedTiles i v) img.info v toks (versionMade i v) e.pid))
      setJob s q (.serve { v with ranked := rerankOrder scores, reranked := true })
  | _, _, _, _ => s

/-- The scores in row order, which is the order of the entries found (R35, R167). -/
def rowScores (v : Serve) : List (Nat × W32) :=
  match v.found with
  | some o => o.entries.filterMap (fun e => v.ranked.find? (fun r => r.1 == e.pid))
  | none => []

/-- Packed-prompt bytes (R360). -/
def promptBytes (l : List Nat) : List Byte := leBytes 4 l.length ++ l.flatMap (leBytes 4)

/-- The Infuser has packed (R36, R37, R359, R360); a passage that it examines and that does not open is a fault (R361). -/
def onPacked (s : State) (q : Req) (v : Serve) : State :=
  match imageOf s v.image, heldIndex s v.handle with
  | some img, some i =>
    if !v.reranked || v.joinable then s
    else
    let cands := v.ranked.map (fun r => (r.1, match findPassage s (pinnedTiles i v) r.1 with | some f => tokenize img.info.vocab f.text | none => []))
    match packPrompt img.info.template v.budget (v.question.getD []) cands with
    | none => endServe s q v stLengthLimit 0 0
    | some (p, prompt) =>
      if !((v.ranked.take (p.whole + p.cut + p.skipped)).all (fun r => (findPassage s (pinnedTiles i v) r.1).isSome)) then
        endServe s q v stFault dtPoisoned 0
      else
      let v := { v with whole := p.whole, cut := p.cut, skipped := p.skipped, conf := rerankConfidence (rowScores v) p.ids, prompt := prompt
                        joinable := true, chunks := shortenChunks v.chunks prompt.length }
      if !v.retPrompt then setJob s q (.serve v)
      else if !segFits v (promptBytes prompt).length then endServe s q v stLengthLimit 0 0
      else
        let (s1, v1) := putSegment s q v false (promptBytes prompt)
        setJob s1 q (.serve v1)
  | _, _ => s

/-! ### Sampling (R325, R329, R349, R350) -/

/-- End a sequence: everything released at the end, cut at the last whole character that fits. -/
def endSeq (v : Serve) (status : Nat) (rel held pend : List Byte) : Serve :=
  { v with released := fitChars (lastRoom v) (rel ++ held ++ (if pend.isEmpty then [] else replacement))
           heldBytes := [], pendBytes := [], seq := 4, ending := some (endWith status) }

def allowedToken (m : ImageMeta) (v : Serve) (t : Nat) : Bool :=
  (match grammarAt m v.params.grammar.toNat with
    | some g => v.params.grammar == 0xFFFF#16 || grammarAllows g v.gstate t
    | none => true)
    && !(t == m.params.eos && decide (v.gen.length < v.params.minNew))

def nextGrammar (m : ImageMeta) (v : Serve) (t : Nat) : Nat :=
  if v.params.grammar = 0xFFFF#16 then v.gstate
  else match grammarAt m v.params.grammar.toNat with | some g => grammarNext g v.gstate t | none => v.gstate

/-- One sample of a sequence: the token, its text, and the endings in the order of R329. -/
def sampleSeq (now : Nat) (m : ImageMeta) (v : Serve) (logits : List W32) : Serve :=
  let g := v.gen.length + 1
  let occ := occurrence v.params.window (penalizePrompt v.params) v.prompt v.gen
  match sampleToken v.params v.seed g occ (allowedToken m v) logits with
  | none => endSeq v stDeadEnd [] v.heldBytes v.pendBytes
  | some t =>
    let gap := if v.lastToken = 0 then 0 else now - v.lastToken
    let v := { v with gen := v.gen ++ [t], gstate := nextGrammar m v t, fresh := true, lastToken := now, longest := max v.longest gap
                      reserve := reserveOf v.interval }
    if t = m.params.eos then endSeq v (naturalStatus v) [] v.heldBytes v.pendBytes
    else
      let (chars, pend) := decodeBytes (v.pendBytes ++ entryBytesOf m.vocab t)
      let (rel, held, hit) := matchChars v.params.stops v.inclStop [] v.heldBytes chars
      if hit then
        if v.outUsed + segmentSize rel.length ≤ v.outLen then endSeq v stStopMatched rel [] []
        else endSeq v stLengthLimit (matchChars v.params.stops false [] v.heldBytes chars).1 [] []
      else if (!rel.isEmpty && !segFits v rel.length) || v.gen.length == v.maxNew || v.prompt.length + g == m.params.context then
        endSeq v stLengthLimit rel held pend
      else { v with released := rel, heldBytes := held, pendBytes := pend }

/-- R332: the home sends the sampled token to every member. -/
def tellToken (s : State) (r : ReqId) (before after : Serve) : State :=
  match after.gen.drop before.gen.length with
  | t :: _ => (peersOf s).foldl (fun s m => sendTo s m (leBytes 1 15 ++ leBytes 1 r.func.toNat ++ leBytes 8 r.rid.toNat ++ leBytes 4 t)) s
  | [] => s

/-- A sequence that decodes, or whose last prefill chunk has run, samples from the logits of its tokens (R51, R320 to R322). -/
def onSampled (s : State) (q : Req) (v : Serve) : State :=
  match imageOf s v.image with
  | none => s
  | some img =>
    if (v.seq == 3 || (v.seq == 2 && decide (v.chunks.length ≤ 1))) && !v.fresh && v.ending.isNone then
      let v1 := sampleSeq s.time img.info v (logitsOf img.info (v.prompt ++ v.gen))
      tellToken (setJob s q (.serve v1)) q.id v v1
    else s

/-- What a unit's results do for one request; results of a request that has ended are discarded (R97). -/
def onServe (s : State) (r : ReqId) (f : State → Req → Serve → State) : State :=
  match reqOf s r with
  | some q => (match q.job with | .serve v => f s q v | _ => s)
  | none => s

def applyResult (s : State) : UnitResult → State
  | .none => s
  | .tokenized r => onServe s r onTokenized
  | .searched r l skipped scored filtered tombstoned => onServe s r (fun s q v => onSearched s q v l skipped scored filtered tombstoned)
  | .reranked r => onServe s r onReranked
  | .packed r => onServe s r onPacked
  | .sampled rows => rows.foldl (fun s r => onServe s r onSampled) s

end Sys2Proof.Machine
end

