-- ==== Sys2Proof/Machine/Media.lean ====
section
/-!
DEFINITION. Faults of T2 and T3: channel errors, retirement, rebuild and the spare area (R240 to R245), double faults (R214, R506), and
a read response that makes a context or a copy go on (R99, R100, R183, R229, R266).
-/
namespace Sys2Proof.Machine

def chanOf (s : State) (c : Nat) : ChanState := AMap.get (.live []) s.media.channels c
def setChan (s : State) (c : Nat) (x : ChanState) : State :=
  { s with media := { s.media with channels := AMap.put (.live []) s.media.channels c x } }

def stackOfChannel (c : Nat) : Nat := c / 32

/-- A T2 event in the error log (R413): kind 3, the channel in Detail. -/
def t2Event (s : State) (code channel : Nat) : State := logAdd s { logNone with kind := 3, code := code, detail := BitVec.ofNat 128 channel }
def t3Event (s : State) (code channel : Nat) : State := logAdd s { logNone with kind := 4, code := code, detail := BitVec.ofNat 128 channel }

/-! ### What the media hold (R32, R41, R218, R237, R245, R300) -/

/-- The bytes of a 64-byte access as they stand on a T2 channel's pins: AES-256-XTS under the ephemeral key, the device address over 64 as
the tweak; a tile's descriptor under its tile index with bit 63 set (R237). Without the key nothing can be read. -/
def t2Pins (s : State) (line : Nat) : Option (List Byte) :=
  (AMap.get none s.keys.handles s.keys.t2Key).map (fun k => xtsEncrypt (keyBytes k.key) (keyBytes k.half) line (devBytes s (64 * line) 64))

def t2DescPins (s : State) (tile : Nat) : Option (List Byte) :=
  (AMap.get none s.keys.handles s.keys.t2Key).map (fun k =>
    xtsEncrypt (keyBytes k.key) (keyBytes k.half) (2 ^ 63 + tile) (leBytes 64 (tileDesc s tile).toNat))

/-- A T3 page as it stands on its die, under the at-rest key of its index (R300); the tweak is not given (log 46). -/
def t3Page (s : State) (tile : Nat) (k : VKey) : List Byte :=
  xtsEncrypt (keyBytes k.key) (keyBytes k.half) (Config.t3Tweak tile).toNat (devBytes s ((t3Base + tile) * tileBytes) tileBytes)

/-- The die of a T3 tile has failed: its reads are served from the group of 15 and 1 until its channel's spare blocks hold it (R245). -/
def onFailedDie (s : State) (tile : Nat) : Bool := s.media.failedDies.contains (t3Channel tile, t3Die tile)

/-! ### Double faults (R506) -/

/-- The table version whose rows lie in a tile. -/
def tableOfTile (s : State) (key : Nat) : Option TableVer :=
  s.tabs.versions.find? (fun t => decide (t.base / tileBytes ≤ key) && decide (key * tileBytes < rowAddr t.base t.stride (t.rows - 1) + t.stride))

/-- End requests with ST_FAULT, POISONED. -/
def faultReqs (s : State) (f : Req → Bool) : State :=
  (s.reqs.filter f).foldl (fun s q => match reqOf s q.id with | some q => endRequest s q stFault dtPoisoned 0 | none => s) s

def pinsImage (n : Nat) (q : Req) : Bool := match q.job with | .serve v => v.image == n | .items _ _ i _ => i == n | _ => false
def pinsIndex (h : Nat) (q : Req) : Bool := match q.job with
  | .serve v => v.kind != 1 && v.handle == h
  | .items _ b _ _ => b.handle == h
  | _ => false
def pinsTable (t v : Nat) (q : Req) : Bool := match q.job with | .serve x => x.tables.contains (t, v) | _ => false

/-- The tile becomes POISONED, and what it held decides who ends (R506): an image section, a part of an index, a table version, or
otherwise the owner requests of the unit that read it. -/
def doubleFault (s : State) (u : UnitDesc) (key : Nat) : State :=
  let d := tileDesc s key
  let s := setTile (dropLines s key) key (setDState d tilePoisoned)
  match tableOfTile s key with
  | some t =>
    let s := { s with tabs := { s.tabs with damaged := setHas s.tabs.damaged t.table } }
    faultReqs s (pinsTable t.table t.version)
  | none =>
    match dKind d with
    | 1 =>
      let mark := fun (o : Option Img) => o.map (fun i => { i with damaged := setHas i.damaged (fld d 128 16) })
      let old := match s.images.outgoing with | some i => s.reqs.any (fun q => (suspectsOf u).contains q.id && pinsImage i.serial q) | none => false
      match s.images.current, s.images.outgoing with
      | some i, o =>
        let (s, n) := if old then ({ s with images := { s.images with outgoing := mark o } }, (o.map (·.serial)).getD 0)
          else ({ s with images := { s.images with current := mark s.images.current } }, i.serial)
        setReady (faultReqs s (pinsImage n)) bImage false
      | none, some i => faultReqs { s with images := { s.images with outgoing := mark s.images.outgoing } } (pinsImage i.serial)
      | none, none => s
    | 3 =>
      let h := fld d 128 32
      let s := faultReqs s (pinsIndex h)
      match heldIndex s h with
      | some i => if isDurable i.body then setTile s key (setDState d tileFull) else putIndex s { i with lost := true }
      | none => s
    | _ => faultReqs s (fun q => (suspectsOf u).contains q.id)

/-! ### Channels (R240 to R243) -/

/-- No work unit: the reader of a tile that Wenik itself or an Understory unit reads. -/
def noUnit : UnitDesc := ⟨0, none, [], 0, 0, 0, 0xFFFF#16, 0, 0, 0, 0, []⟩

/-- R241: parity groups lie within a stack, one tile on each of its 32 channels, so a tile has lost its partner on a channel that is gone
and whose tiles the rebuild has not restored yet; how far a rebuild has come is not given, and is a free value (log 46). -/
def groupShort (s : State) (key : Nat) : Bool :=
  let c := t2Channel key
  (List.range 32).any (fun i =>
    let x := 32 * stackOfChannel c + i
    x != c && (match chanOf s x with
      | .retired => true
      | .rebuilding => Config.freeUnrestored s.freeCount key
      | _ => false))

/-- The interleaved tiles on a channel that hold something. -/
def tilesOn (s : State) (c : Nat) : List Nat :=
  (s.media.tiles.map (·.1)).filter (fun t => decide (t < t2Tiles) && t2Channel t == c)

/-- R242 item 6: two tiles of one group are missing; those that cannot be restored become POISONED. -/
def loseGroups (s : State) (c : Nat) : State :=
  let gone := (List.range 32).map (· + 32 * stackOfChannel c) |>.filter (channelGone s)
  let lost := (gone.flatMap (tilesOn s)).filter (groupShort s)
  lost.foldl (fun s t => doubleFault s noUnit t) (drawn s)

/-- R242 items 2, 3, 5 and 6: retire a channel and begin its rebuild, or serve it by reconstruction for good; replicas on it are lost. -/
def retireChannel (s : State) (c : Nat) : State :=
  match chanOf s c with
  | .live _ =>
    let st := stackOfChannel c
    let s := t2Event s 1 c
    let busy := s.media.spareInUse.contains st || s.media.channels.any (fun p => p.1 / 32 == st && p.2 == .rebuilding)
    let second := (List.range 32).any (fun i => channelGone s (32 * st + i))
    let s := if busy then setChan { s with media := { s.media with unprotected := setHas s.media.unprotected st } } c .retired
      else setChan s c .rebuilding
    let s := loseChannel s c
    if second then loseGroups s c else s
  | _ => s

/-- An uncorrectable access: served from the group; the third within 1 s retires the channel (R242). -/
def countError (s : State) (c : Nat) : State :=
  match chanOf s c with
  | .live l =>
    let l := (l ++ [s.time]).filter (fun t => decide (s.time < t + 1000000))
    if decide (3 ≤ l.length) then retireChannel s c else setChan s c (.live l)
  | _ => s

/-- The replica areas' rows that lie on a tile, with their stack. -/
def rowsOn (s : State) (key : Nat) : List Nat :=
  ((hotList s).filter (fun p => (slotsOf (replicaBase ((key - t2Tiles) / 8192) + p.2.offset) (rowSpace p.2.stride)).contains key)).map (·.1)

/-- The tile cannot be read: POISONED, found lost by this read, or uncorrectable in a group that is short (R214, R242 item 6). -/
def cannotRead (s : State) (key : Nat) (q : ReadQuality) : Bool :=
  dState (tileDesc s key) == tilePoisoned || (q == .poisoned && (decide (key < t2Tiles) || decide (t3Base ≤ key)))
    || (q == .uncorrectable && decide (key < t2Tiles) && groupShort s key)

/-- What an access tells of a T2 tile that can be read: a corrected one shows nothing (R240, R243); an uncorrectable one is served from
the group and rewritten in place, and counts against the channel (R242); a replica has no group and is lost (R241). -/
def noteQuality (s : State) (key : Nat) (q : ReadQuality) : State :=
  if q = .corrected || q = .good || decide (t2All ≤ key) then s
  else if key < t2Tiles then countError s (t2Channel key)
  else countError ((rowsOn s key).foldl (fun s h => loseReplica s h ((key - t2Tiles) / 8192)) s) (t2Channel key)

/-! ### Responses -/

/-- Which copy a response belongs to: the first started instruction of the engine with this copy in flight. -/
def copyFlight (k : Core) (idx : Nat) : Option (Flight × Copy) :=
  k.flights.findSome? (fun f => match f.work with
    | .copies l => (match l[idx]? with | some c => if c.state == .flying && f.started then some (f, c) else none | none => none)
    | _ => none)

/-- The T2 tile that the X instruction at the head of its engine reads (R368); a POISONED one is a double fault (R214). -/
def xFlightTile (k : Core) : Option Nat := (k.flights.find? (fun f => f.word.engine == engX)).bind xTile

/-- The tile a response reads. -/
def copyTile (c : Copy) : Nat := if c.src.tier != 0 then tileKey c.src else tileKey c.dst

/-- Put a step of an instruction in execution, with its near-cache fills drawn from the T2 regulator (R431). -/
def takeStep (s : State) (c : Nat) (u : UnitDesc) (f : Flight) (idx : Nat) (b : BeginS) : State :=
  match b with
  | .wait => s
  | .park s1 => s1
  | .fail code which => stopUnit s c ⟨code, f.index, f.word.engine, which⟩
  | .go s1 k1 f1 =>
    let t : Ticket := ⟨u.glade, 0, c, f.id, idx⟩
    match drawTokens s1 u.glade .t2 (filledBytes (coreOf s c).near k1.near) (unitReserved u) t with
    | some s2 => setCore s2 c (putFlight k1 f1)
    | none => holdTicket s t

/-- The response's effect on its context or copy. -/
def responseStep (s : State) (c : Nat) (e : EngineId) (idx : Nat) (q : ReadQuality) (r : Running) : State :=
  let k := coreOf s c
  let poison := fun (key : Nat) => cannotRead s key q
  match e with
  | .g => match gatherFlight k idx with
    | some (f, x) =>
      if poison (x.copy / tileBytes) then doubleFault s r.desc (x.copy / tileBytes)
      else
        let s1 := noteQuality s (x.copy / tileBytes) q
        if x.copy != x.addr && (q == .uncorrectable || q == .poisoned) then setCore s1 c (putFlight k (putLookup f x.num { x with copy := x.addr }))
        else takeStep s1 c r.desc f idx (gArrive s1 k f x)
    | none => s
  | .q => match scanFlight k idx with
    | some (f, x) => (match (pendingTiles k f x).find? poison with
      | some key => doubleFault s r.desc key
      | none =>
        let s1 := match (pendingTiles k f x).head? with | some key => noteQuality s key q | none => s
        takeStep s1 c r.desc f idx ((qArrive s1 k r.desc f x).lift s1))
    | none => s
  | .c => match copyFlight k idx with
    | some (f, x) =>
      if poison (copyTile x) then doubleFault s r.desc (copyTile x)
      else
        let s := noteQuality s (copyTile x) q
        match f.work with
        | .copies l =>
          match x.kind with
          | .cast _ _ => setCore s c (putFlight k { f with work := .copies (l.set idx { x with state := .arrived }) })
          | .receive _ _ => s
          | _ =>
            let (s1, k1) := copyFinish s k x
            setCore s1 c (putFlight k1 { f with work := .copies (l.set idx { x with state := .done }) })
        | _ => s
    | none => s
  | .x => match xFlightTile k with
    | some key => if poison key then doubleFault s r.desc key else noteQuality s key q
    | none => s
  | _ => s

/-! ### Channels, dies and the scrub -/

/-- R242 items 3 and 4: the rebuild has ended; the raised cost counts from the next boundary. -/
def execT2RebuildEnd (channel : Nat) (s : State) : Result :=
  match chanOf s channel with
  | .rebuilding =>
    let st := stackOfChannel channel
    .next (setChan (t2Event { s with media := { s.media with spareInUse := setHas s.media.spareInUse st } } 2 channel) channel .rebuilt)
  | _ => .next s

/-- The channel of a tile outside the address space, a parity tile or a tile of a spare area: they are numbered from the end of the
replica areas, channel by channel in turn (R239; log 46). -/
def hiddenChannel (key : Nat) : Nat := (key - t2All) % 384

/-- R244: the scrub reads every T2 tile, parity tiles and spare areas included, and corrects what it finds under R240 and R242; a tile
beyond repair becomes POISONED, a replica is lost, and a parity or spare tile is written again. -/
def scrubFound (s : State) (found : List (Nat × ReadQuality)) : State :=
  found.foldl (fun s f =>
    if t2All ≤ f.1 then (if f.2 = .uncorrectable || f.2 = .poisoned then countError s (hiddenChannel f.1) else s)
    else if cannotRead s f.1 f.2 then doubleFault s noUnit f.1
    else noteQuality s f.1 f.2) s

/-- R245: a failed die; its tiles are rebuilt into spare blocks while the channel has them, else the channel goes out of service (R304). -/
def execT3DieFail (channel die : Nat) (spare : Bool) (s : State) : Result :=
  if !s.flash || decide (256 ≤ channel) || decide (8 ≤ die) then .next s
  else
    let s := t3Event { s with media := { s.media with failedDies := setHas s.media.failedDies (channel, die) } } 1 channel
    .next (if spare then s else addChange s (.channelOut channel))

end Sys2Proof.Machine
end

