-- ==== Sys2Proof/Machine/Complete.lean ====
section
/-!
DEFINITION. Completions of instructions and the end of a unit (R87 to R90, R95 to R97, R105), the engine instructions as presented by
the dispatcher (R82 to R86), and the outcome of a Clearing's replay (R501 to R505).
-/
namespace Sys2Proof.Machine

/-! ### The end of a unit -/

/-- The successors of an ended unit have one predecessor less (R96). -/
def releaseSuccs (s : State) (l : List Nat) : State :=
  { s with chip := { s.chip with
      units := s.chip.units.map (fun u => if l.contains u.desc.unitId then { u with left := u.left - 1 } else u)
      links := s.chip.links.map (fun u => if l.contains u.desc.unitId then { u with left := u.left - 1 } else u) } }

/-- Groups all of whose members have ended are freed (R227). -/
def freeGroups (s : State) : State :=
  { s with chip := { s.chip with groups := s.chip.groups.filter (fun g =>
      g.desc.members.any (fun m => s.chip.units.any (fun u => u.desc.unitId == m))) } }

/-- A unit has ended with its results: successors, groups, and what the results make of its requests (R97). -/
def unitEnded (s : State) (d : UnitDesc) (res : UnitResult) : State :=
  let s := { s with chip := { s.chip with units := s.chip.units.filter (fun u => u.desc.unitId != d.unitId) } }
  applyResult (freeGroups (releaseSuccs s d.succs)) res

/-- Results of two replays of the same unit, for different members. -/
def joinResults : UnitResult → UnitResult → UnitResult
  | .sampled a, .sampled b => .sampled (a ++ b)
  | .none, b => b
  | a, _ => a

/-- The slots are emptied and the core is free (R90). -/
def emptyCore (k : Core) : Core :=
  { k with run := none, tokens := [], slots := [], descs := [], bytes := [], flights := [] }

/-- The unit on a core ends when END has issued and every instruction has completed; the results of a replay wait for the Clearing. -/
def finishUnit (s : State) (c : Nat) : State :=
  let k := coreOf s c
  match k.run with
  | none => s
  | some r =>
    if !r.ended || !k.flights.isEmpty then s
    else
      let s1 := setCore s c (emptyCore k)
      if r.replay then
        { s1 with chip := { s1.chip with clearings := s1.chip.clearings.map (fun x => if replayCore x == c then { x with result := joinResults x.result r.result } else x) } }
      else unitEnded s1 r.desc r.result

/-- Every core whose unit has nothing left to do. -/
def finishAll (s : State) : State := (s.chip.cores.map (·.1)).foldl finishUnit s

/-! ### INSTRUCTION_COMPLETE -/

/-- The results that leave with the instruction. -/
def noteResult (k : Core) (res : UnitResult) : Core :=
  if res = .none then k else { k with run := k.run.map (fun r => { r with result := res }) }

def execInstructionComplete (core : CoreId) (e : EngineId) (res : UnitResult) (s : State) : Result :=
  let c := core.toNat
  let k := coreOf s c
  match k.flights.find? (fun f => f.word.engine == engineCode e && flightDone f) with
  | none => .next s
  | some f => .next (finishAll (goAll (completeFlight (setCore s c (noteResult k res)) c f) c))

/-! ### REPLAY_COMPLETE (R501) -/

/-- End a suspect with the code of its last replay. -/
def failSuspects (s : State) (l : List ReqId) (code : Nat) : State :=
  l.foldl (fun s r => match reqOf s r with | some q => endRequest s q stFault code 0 | none => s) s

/-- A Clearing draws its time from its suspects' fault reserves; one whose reserve no longer covers the longest unit it may still run
ends with RESERVE_SPENT (R503, R504, R557). -/
def spendReserve (s : State) (r : ReqId) (lost : Nat) : State :=
  match reqOf s r with
  | none => s
  | some q => match q.job with
    | .serve v =>
      let v := { v with reserve := v.reserve - lost }
      let need := match imageOf s v.image with | some i => clearingTime (longestUnit i.info) | none => 0
      if v.reserve < need then endRequest s { q with job := .serve v } stFault dtReserveSpent 0 else setJob s q (.serve v)
    | _ => s

/-- The results stand for the requests that are left; the Clearing ends, and its site is queued for the online test: first when every
replay that stopped did so as the first run (R501, R505). -/
def endClearing (s : State) (cl : Clearing) (res : UnitResult) : State :=
  let s := (suspectsOf cl.unit).foldl (fun s r => spendReserve s r (s.time - cl.since)) (setCore s (replayCore cl) coreOff)
  let rest := s.bi.queue.filter (· != cl.site)
  let s := { s with
    chip := { s.chip with clearings := s.chip.clearings.filter (fun x => x.unit.unitId != cl.unit.unitId) }
    bi := { s.bi with queue := if cl.sameAll then cl.site :: rest else rest ++ [cl.site] } }
  assignQuarantine (unitEnded s cl.unit res)

def putClearing (s : State) (cl : Clearing) : State :=
  { s with chip := { s.chip with clearings := s.chip.clearings.map (fun x => if x.unit.unitId == cl.unit.unitId then cl else x) } }

def lowerHalf (l : List ReqId) : List ReqId := l.take ((l.length + 1) / 2)
def upperHalf (l : List ReqId) : List ReqId := l.drop ((l.length + 1) / 2)

/-- Replay a half next. -/
def replayHalf (s : State) (cl : Clearing) (half other : List ReqId) : State :=
  let cl := { cl with whole := false, current := half, other := other }
  replayStart (putClearing s cl) cl

/-- The replay completed. -/
def replayOk (s : State) (cl : Clearing) : State :=
  if cl.whole then endClearing s cl cl.result
  else match cl.lowerCode with
    | none =>
      if cl.other.isEmpty then endClearing s cl cl.result
      else replayHalf s cl cl.other []
    | some code =>
      -- the upper half is cleared: the fault lies in the lower half
      if cl.lowerSet.length ≤ 1 then endClearing (failSuspects s cl.lowerSet code) cl cl.result
      else replayHalf s { cl with lowerCode := none, lowerSet := [] } (lowerHalf cl.lowerSet) (upperHalf cl.lowerSet)

/-- The replay stopped: split, go on, or end suspects (R501 items 5 and 6). -/
def replayFail (s : State) (cl : Clearing) (code : Nat) : State :=
  if cl.whole then
    if cl.current.length ≤ 1 then endClearing (failSuspects s cl.current code) cl .none
    else replayHalf s cl (lowerHalf cl.current) (upperHalf cl.current)
  else match cl.lowerCode with
    | none =>
      if cl.other.isEmpty then
        -- the upper half failed after a cleared lower one
        if cl.current.length ≤ 1 then endClearing (failSuspects s cl.current code) cl cl.result
        else replayHalf s cl (lowerHalf cl.current) (upperHalf cl.current)
      else replayHalf s { cl with lowerCode := some code, lowerSet := cl.current } cl.other []
    | some _ => endClearing (failSuspects s (cl.lowerSet ++ cl.current) code) cl cl.result

/-- R505: a stop like the first run's puts the site first in the queue of the online test. -/
def execReplayComplete (unitId : Nat) (o : ReplayOutcome) (s : State) : Result :=
  match s.chip.clearings.find? (fun x => x.unit.unitId == unitId && x.quarantine.isSome) with
  | none => .next s
  | some cl =>
    let s := setCore s (replayCore cl) coreOff
    match o with
    | .completed => .next (replayOk s { cl with sameAll := cl.sameAll && !cl.whole })
    | .stopped code same => .next (replayFail s { cl with sameAll := cl.sameAll && same } code)

/-- The dispatcher presents an instruction of a unit (R82, R86). -/
def presentAt (core : CoreId) (engine opcode : Nat) (h : Hdr) (o : BitVec 88) (s : State) : State :=
  finishAll (present s core.toNat ⟨engine, opcode, h, o⟩)

end Sys2Proof.Machine
end

