-- ==== Sys2Proof/Machine/Engines.lean ====
section
/-!
DEFINITION. The instructions of the dispatcher and of the seven engines (R82 to R86): each is presented on its core, issues under R86
and takes its effect as its engine's file gives it.
-/
namespace Sys2Proof.Machine

/-- R84. -/
def execNop (core : CoreId) (h : Hdr) (o : BitVec 88) (s : State) : Result := .next (presentAt core engD 0 h o s)

/-- R84. -/
def execEndUnit (core : CoreId) (h : Hdr) (o : BitVec 88) (s : State) : Result := .next (presentAt core engD 1 h o s)

/-- R84. -/
def execLoop (core : CoreId) (h : Hdr) (o : BitVec 88) (s : State) : Result := .next (presentAt core engD 2 h o s)

/-- R84. -/
def execSlotfree (core : CoreId) (h : Hdr) (o : BitVec 88) (s : State) : Result := .next (presentAt core engD 3 h o s)

/-- R84. -/
def execTokclr (core : CoreId) (h : Hdr) (o : BitVec 88) (s : State) : Result := .next (presentAt core engD 4 h o s)

/-- R84. -/
def execDrain (core : CoreId) (h : Hdr) (o : BitVec 88) (s : State) : Result := .next (presentAt core engD 5 h o s)

/-- R127. -/
def execMload (core : CoreId) (h : Hdr) (o : BitVec 88) (s : State) : Result := .next (presentAt core engM 1 h o s)

/-- R121. -/
def execMswap (core : CoreId) (h : Hdr) (o : BitVec 88) (s : State) : Result := .next (presentAt core engM 2 h o s)

/-- R128. -/
def execMstream (core : CoreId) (h : Hdr) (o : BitVec 88) (s : State) : Result := .next (presentAt core engM 3 h o s)

/-- R128, R134. -/
def execMacc (core : CoreId) (h : Hdr) (o : BitVec 88) (s : State) : Result := .next (presentAt core engM 4 h o s)

/-- R150. -/
def execVadd (core : CoreId) (h : Hdr) (o : BitVec 88) (s : State) : Result := .next (presentAt core engV 1 h o s)

/-- R150. -/
def execVsub (core : CoreId) (h : Hdr) (o : BitVec 88) (s : State) : Result := .next (presentAt core engV 2 h o s)

/-- R150. -/
def execVmul (core : CoreId) (h : Hdr) (o : BitVec 88) (s : State) : Result := .next (presentAt core engV 3 h o s)

/-- R150. -/
def execVfma (core : CoreId) (h : Hdr) (o : BitVec 88) (s : State) : Result := .next (presentAt core engV 4 h o s)

/-- R150. -/
def execVscale (core : CoreId) (h : Hdr) (o : BitVec 88) (s : State) : Result := .next (presentAt core engV 5 h o s)

/-- R150. -/
def execVmax (core : CoreId) (h : Hdr) (o : BitVec 88) (s : State) : Result := .next (presentAt core engV 6 h o s)

/-- R150. -/
def execVmin (core : CoreId) (h : Hdr) (o : BitVec 88) (s : State) : Result := .next (presentAt core engV 7 h o s)

/-- R146, R150. -/
def execVcvt (core : CoreId) (h : Hdr) (o : BitVec 88) (s : State) : Result := .next (presentAt core engV 8 h o s)

/-- R145, R150. -/
def execVexp (core : CoreId) (h : Hdr) (o : BitVec 88) (s : State) : Result := .next (presentAt core engV 9 h o s)

/-- R150. -/
def execVrsqrt (core : CoreId) (h : Hdr) (o : BitVec 88) (s : State) : Result := .next (presentAt core engV 10 h o s)

/-- R150. -/
def execVsilu (core : CoreId) (h : Hdr) (o : BitVec 88) (s : State) : Result := .next (presentAt core engV 11 h o s)

/-- R150. -/
def execVswiglu (core : CoreId) (h : Hdr) (o : BitVec 88) (s : State) : Result := .next (presentAt core engV 12 h o s)

/-- R150. -/
def execVgelu (core : CoreId) (h : Hdr) (o : BitVec 88) (s : State) : Result := .next (presentAt core engV 13 h o s)

/-- R150. -/
def execVgeglu (core : CoreId) (h : Hdr) (o : BitVec 88) (s : State) : Result := .next (presentAt core engV 14 h o s)

/-- R151. -/
def execVsum (core : CoreId) (h : Hdr) (o : BitVec 88) (s : State) : Result := .next (presentAt core engV 16 h o s)

/-- R151. -/
def execVsumsq (core : CoreId) (h : Hdr) (o : BitVec 88) (s : State) : Result := .next (presentAt core engV 17 h o s)

/-- R151. -/
def execVdot (core : CoreId) (h : Hdr) (o : BitVec 88) (s : State) : Result := .next (presentAt core engV 18 h o s)

/-- R151. -/
def execVmaxr (core : CoreId) (h : Hdr) (o : BitVec 88) (s : State) : Result := .next (presentAt core engV 19 h o s)

/-- R152. -/
def execVrmsnorm (core : CoreId) (h : Hdr) (o : BitVec 88) (s : State) : Result := .next (presentAt core engV 32 h o s)

/-- R152. -/
def execVnorm2 (core : CoreId) (h : Hdr) (o : BitVec 88) (s : State) : Result := .next (presentAt core engV 33 h o s)

/-- R152. -/
def execVsoftmax (core : CoreId) (h : Hdr) (o : BitVec 88) (s : State) : Result := .next (presentAt core engV 34 h o s)

/-- R153. -/
def execVrope (core : CoreId) (h : Hdr) (o : BitVec 88) (s : State) : Result := .next (presentAt core engV 35 h o s)

/-- R154. -/
def execPacka (core : CoreId) (h : Hdr) (o : BitVec 88) (s : State) : Result := .next (presentAt core engV 48 h o s)

/-- R156. -/
def execDtip (core : CoreId) (h : Hdr) (o : BitVec 88) (s : State) : Result := .next (presentAt core engV 49 h o s)

/-- R156. -/
def execDtl2 (core : CoreId) (h : Hdr) (o : BitVec 88) (s : State) : Result := .next (presentAt core engV 50 h o s)

/-- R150. -/
def execSload (core : CoreId) (h : Hdr) (o : BitVec 88) (s : State) : Result := .next (presentAt core engV 56 h o s)

/-- R150. -/
def execSstore (core : CoreId) (h : Hdr) (o : BitVec 88) (s : State) : Result := .next (presentAt core engV 57 h o s)

/-- R168. -/
def execTopk (core : CoreId) (h : Hdr) (o : BitVec 88) (s : State) : Result := .next (presentAt core engS 1 h o s)

/-- R163. -/
def execArgmax (core : CoreId) (h : Hdr) (o : BitVec 88) (s : State) : Result := .next (presentAt core engS 2 h o s)

/-- R170. -/
def execThresh (core : CoreId) (h : Hdr) (o : BitVec 88) (s : State) : Result := .next (presentAt core engS 3 h o s)

/-- R182, R183. -/
def execGpool (core : CoreId) (h : Hdr) (o : BitVec 88) (s : State) : Result := .next (presentAt core engG 1 h o s)

/-- R263. -/
def execQopen (core : CoreId) (h : Hdr) (o : BitVec 88) (s : State) : Result := .next (presentAt core engQ 1 h o s)

/-- R264. -/
def execQscan (core : CoreId) (h : Hdr) (o : BitVec 88) (s : State) : Result := .next (presentAt core engQ 2 h o s)

/-- R265. -/
def execQdrain (core : CoreId) (h : Hdr) (o : BitVec 88) (s : State) : Result := .next (presentAt core engQ 3 h o s)

/-- R223. -/
def execCtile (core : CoreId) (h : Hdr) (o : BitVec 88) (s : State) : Result := .next (presentAt core engC 1 h o s)

/-- R224. -/
def execClist (core : CoreId) (h : Hdr) (o : BitVec 88) (s : State) : Result := .next (presentAt core engC 2 h o s)

/-- R225. -/
def execCpart (core : CoreId) (h : Hdr) (o : BitVec 88) (s : State) : Result := .next (presentAt core engC 3 h o s)

/-- R227. -/
def execCmcast (core : CoreId) (h : Hdr) (o : BitVec 88) (s : State) : Result := .next (presentAt core engC 4 h o s)

/-- R227. -/
def execCrecv (core : CoreId) (h : Hdr) (o : BitVec 88) (s : State) : Result := .next (presentAt core engC 5 h o s)

/-- R226. -/
def execCsetd (core : CoreId) (h : Hdr) (o : BitVec 88) (s : State) : Result := .next (presentAt core engC 6 h o s)

/-- R369. -/
def execXdec (core : CoreId) (h : Hdr) (o : BitVec 88) (s : State) : Result := .next (presentAt core engX 1 h o s)

/-- R369. -/
def execXenc (core : CoreId) (h : Hdr) (o : BitVec 88) (s : State) : Result := .next (presentAt core engX 2 h o s)

/-- R369. -/
def execXopen (core : CoreId) (h : Hdr) (o : BitVec 88) (s : State) : Result := .next (presentAt core engX 3 h o s)

/-- R369. -/
def execXseal (core : CoreId) (h : Hdr) (o : BitVec 88) (s : State) : Result := .next (presentAt core engX 4 h o s)

end Sys2Proof.Machine
end

