-- ==== Sys2Proof/Machine/Config.lean ====
section
/-!
DEFINITION. CONFIG: bindings, credentials, policy and the protection store (R364, R376, R378 to R381, R411), Glades and profiles (R424 to
R427, R440, R443, R444). Each is accepted by a message and takes effect at its boundary.
-/
namespace Sys2Proof.Machine

/-! ### Acceptance -/

/-- Accept a CONFIG subfunction, or refuse it: form, role, then its own conditions. -/
def configGo (s : State) (h : MsgHead) (c : Ctx) (i : Instr) (form role valid : Bool) : State :=
  if !form then refuse s h c (endWith stInvalid)
  else if !role then refuse s h c (endWith stDenied)
  else if !valid then refuse s h c (endWith stInvalid)
  else addChange (acceptReq s h c opConfig none none (.config i)) (.request ⟨h.func, h.rid⟩)

/-- A subfunction of the owner's (R372). -/
def ownerConfig (s : State) (h : MsgHead) (i : Instr) (sealing recOk : Bool) (valid : State → Bool) : State :=
  message s h opConfig .opened recOk (fun s c => configGo s h c i (formOk h sealing) (isOwner c.sess) (valid s))

/-! ### The protection store -/

/-- A change of the store: its generation rises, it is written to reserved T3, and the log receives a kind 7 record (R364, R413). -/
def bumpStore (s : State) (code : Nat) : State :=
  match s.prot.store with
  | none => s
  | some t =>
    logAdd (writeStore s t) { logNone with kind := 7, code := code }

def setStore (s : State) (f : Store → Store) : State := { s with prot := { s.prot with store := s.prot.store.map f } }

def generationOf (s : State) : Nat := ((s.prot.store).map (·.generation)).getD 0

/-- CONFIG's result: the generation after the change (R415). -/
def configDone (s : State) (q : Req) : State := completeReq s q ⟨stOk, 0, 0, [(0, 8, generationOf s)]⟩

/-! ### Conditions (R378, R424) -/

def gladeDefined (s : State) (g : Nat) : Bool := decide (g < 8) && (gladeOf s g).isSome

/-- Every Glade of a bitmap is defined. -/
def gladesDefined (s : State) (b : Byte) : Bool := (List.range 8).all (fun g => !bitOf b g || gladeDefined s g)

def grantsOk (s : State) (glade : Nat) (l : List Nat) : Bool :=
  decide (l.length ≤ 64) && l.all (fun h => match loadedIndex s h with | some i => indexGlade s i == some glade | none => false)

def retiring (s : State) (t : Nat) : Bool := match s.prot.store with | some x => x.retiring.any (fun r => r.1 == t) | none => false

def ownsIndex (s : State) (t : Nat) : Bool := s.idx.loaded.any (fun i => i.body.ownerTenant == t && !i.dropped)

def blobOk (s : State) (role : Nat) (b : Blob) : Bool := b.ok && !breach (policyOf s) role (blobCred b)

def tenantBindOk (s : State) (b : TenantBody) (x : Blob) : Bool :=
  decide (b.tenant ≤ 4095) && (tenOf s b.tenant).isNone && !retiring s b.tenant && gladeDefined s b.glade && blobOk s 2 x
    && grantsOk s b.glade b.grants && decide (b.rights.toNat < 16) && (b.kind == 1#8) == x.password

def tenantSetOk (s : State) (b : TenantBody) : Bool :=
  match tenOf s b.tenant with
  | none => false
  | some t => gladeDefined s b.glade && grantsOk s b.glade b.grants && decide (b.rights.toNat < 16)
      && !(t.glade != b.glade && ownsIndex s b.tenant)

def tenantUnbindOk (s : State) (t : Nat) : Bool := (tenOf s t).isSome && !ownsIndex s t

def operBindOk (s : State) (b : OperatorBody) (x : Blob) : Bool :=
  decide (b.operator ≤ 62) && (operOf s b.operator).isNone && gladesDefined s b.glades && blobOk s 1 x && decide (b.rights.toNat < 32)
    && (b.kind == 1#8) == x.password

def operSetOk (s : State) (b : OperatorBody) : Bool :=
  (operOf s b.operator).isSome && gladesDefined s b.glades && decide (b.rights.toNat < 32)

/-- The principal has a binding. -/
def bound (s : State) (role principal : Nat) : Bool :=
  match role with
  | 0 => (credOf s 0 0).isSome
  | 1 => (operOf s principal).isSome
  | _ => (tenOf s principal).isSome

def credSetOk (s : State) (role principal : Nat) (x : Blob) : Bool :=
  decide (role ≤ 2) && (role != 0 || principal == 0) && bound s role principal && !(role == 2 && retiring s principal)
    && blobOk s role x

/-- R376's ranges, and the owner's credential under the new policy. -/
def policyOk (s : State) (p : Policy) : Bool :=
  p.passwords.toNat / 8 == 0 && decide (100000 ≤ p.iterations) && decide (p.iterations ≤ 10000000) && decide (60 ≤ p.lifetime)
    && decide (p.lifetime ≤ 2592000) && decide (10 ≤ p.idle) && decide (p.idle ≤ 86400) && decide (p.sideband.toNat ≤ 1)
    && (match credOf s 0 0 with | some c => !breach p 0 c | none => true)

/-! ### Glades (R425, R426) -/

def offeredT2 : Nat := 27095040
def offeredT3 (s : State) : Nat := if s.flash then 767692 else 0
def offeredGrove : Nat := 1411200

def depthOk (r : RateDepth) : Bool := decide (65536 ≤ r.depth) && decide (r.depth ≤ 1073741824)

def setSum (s : State) (but : Nat) (f : GladeSettings → Nat) : Nat :=
  sumNat (s.glades.sets.map (fun p => match p.2 with | some g => if p.1 = but then 0 else f g.set | none => 0))

/-- Ranges of R425 and sums of R426, beside the values in force of every other set. -/
def settingsOk (s : State) (g : GladeSettings) : Bool :=
  let fits := fun (f : GladeSettings → Nat) (cap : Nat) => decide (setSum s g.glade f + f g ≤ cap)
  decide (g.cores ≤ 512) && g.cores % 8 == 0 && decide (g.entries ≤ 8192)
    && (g.glade != 8 || (g.cores == 0 && g.entries == 0 && g.kvCap == 0))
    && depthOk g.t2 && depthOk g.t3 && depthOk g.grove && depthOk g.hostOut && depthOk g.hostIn
    && fits (·.cores) 512 && fits (·.entries) 8192 && fits (·.t2.rate) offeredT2 && fits (·.t3.rate) (offeredT3 s)
    && fits (·.grove.rate) offeredGrove && fits (·.hostOut.rate) s.glades.hostCap && fits (·.hostIn.rate) s.glades.hostCap

def gladeDefineOk (s : State) (g : GladeSettings) : Bool := decide (g.glade < 8) && (gladeOf s g.glade).isNone && settingsOk s g
def gladeSetOk (s : State) (g : GladeSettings) : Bool := decide (g.glade ≤ 8) && (gladeOf s g.glade).isSome && settingsOk s g

/-- R424: the Glade has no bound tenant, no retiring tenant and no loaded index. -/
def gladeRemoveOk (s : State) (g : Nat) : Bool :=
  let held := match s.prot.store with
    | some t => t.tens.any (fun p => match p.2 with | some b => b.glade == g | none => false) || t.retiring.any (fun r => r.2 == g)
    | none => false
  gladeDefined s g && !held && !s.idx.loaded.any (fun i => indexGlade s i == some g)

def profileSetOk (p : Profile) : Bool := profileValid p
def profileRemoveOk (s : State) (n : Nat) : Bool := decide (8 ≤ n) && (AMap.get none s.glades.profiles n).isSome

/-! ### Messages -/

def execRecoveryMode (h : MsgHead) (mode : Byte) (s : State) : Result :=
  .next (ownerConfig s h (.recoveryMode h mode) false false (fun _ => decide (mode.toNat ≤ 1)))
def execPolicySet (h : MsgHead) (p : Policy) (s : State) : Result :=
  .next (ownerConfig s h (.policySet h p) false false (fun s => policyOk s p))
/-- R411, R499: a package whose signature fails is refused with ST_INVALID. -/
def execFirmwareUpdate (h : MsgHead) (signatureOk : Bool) (s : State) : Result :=
  .next (ownerConfig s h (.firmwareUpdate h signatureOk) true true (fun _ => signatureOk))
def execTenantBind (h : MsgHead) (b : TenantBody) (blob : Blob) (s : State) : Result :=
  .next (ownerConfig s h (.tenantBind h b blob) false false (fun s => tenantBindOk s b blob))
def execTenantSet (h : MsgHead) (b : TenantBody) (s : State) : Result :=
  .next (ownerConfig s h (.tenantSet h b) false false (fun s => tenantSetOk s b))
def execTenantUnbind (h : MsgHead) (tenant : Nat) (s : State) : Result :=
  .next (ownerConfig s h (.tenantUnbind h tenant) false false (fun s => tenantUnbindOk s tenant))
def execOperatorBind (h : MsgHead) (b : OperatorBody) (blob : Blob) (s : State) : Result :=
  .next (ownerConfig s h (.operatorBind h b blob) false false (fun s => operBindOk s b blob))
def execOperatorSet (h : MsgHead) (b : OperatorBody) (s : State) : Result :=
  .next (ownerConfig s h (.operatorSet h b) false false (fun s => operSetOk s b))
def execOperatorUnbind (h : MsgHead) (operator : Nat) (s : State) : Result :=
  .next (ownerConfig s h (.operatorUnbind h operator) false false (fun s => (operOf s operator).isSome))
def execCredentialSet (h : MsgHead) (role : Byte) (principal : Nat) (blob : Blob) (s : State) : Result :=
  .next (ownerConfig s h (.credentialSet h role principal blob) false false (fun s => credSetOk s role.toNat principal blob))
def execProtectionExport (h : MsgHead) (outLen : Nat) (s : State) : Result :=
  .next (ownerConfig s h (.protectionExport h outLen) false false (fun s => s.prot.store.isSome))

/-- R411: the MAC under the owner credential key. -/
def resetMac (s : State) (session : Nat) : Option (BitVec 256) :=
  (credOf s 0 0).map (fun c => BitVec.ofNat 256 (leNat (hmacSha256 (keyBytes c.key)
    (strBytes "HXC-RESET-1" ++ leBytes 4 session ++ leBytes 16 s.serial.toNat))))

def execProtectionReset (h : MsgHead) (mac : BitVec 256) (s : State) : Result :=
  .next (message s h opConfig .opened false (fun s c => configGo s h c (.protectionReset h mac) (formOk h false)
    (isOwner c.sess && resetMac s c.sess.id == some mac) true))

def execGladeDefine (h : MsgHead) (g : GladeSettings) (s : State) : Result :=
  .next (ownerConfig s h (.gladeDefine h g) false false (fun s => gladeDefineOk s g))
def execGladeSet (h : MsgHead) (g : GladeSettings) (s : State) : Result :=
  .next (ownerConfig s h (.gladeSet h g) false false (fun s => gladeSetOk s g))
def execGladeRemove (h : MsgHead) (glade : Nat) (s : State) : Result :=
  .next (ownerConfig s h (.gladeRemove h glade) false false (fun s => gladeRemoveOk s glade))
def execProfileSet (h : MsgHead) (p : Profile) (s : State) : Result :=
  .next (ownerConfig s h (.profileSet h p) false false (fun _ => profileSetOk p))
def execProfileRemove (h : MsgHead) (id : Nat) (s : State) : Result :=
  .next (ownerConfig s h (.profileRemove h id) false false (fun s => profileRemoveOk s id))

/-! ### Effects on Glades -/

def bucketNew (r : RateDepth) (old : Bucket) : Bucket :=
  let b : Bucket := { old with rate := r.rate, depth := r.depth, rRes := min old.rRes r.rate }
  let (dRes, dFree) := bucketDepths b
  { b with res := min (dRes : Int) b.res, free := min (dFree : Int) b.free }

/-- A set's buckets under its settings (R430). -/
def putBuckets (s : State) (g : GladeSettings) : State :=
  let r := (AMap.get none s.regs g.glade).getD ⟨bucketNone, bucketNone, bucketNone, bucketNone, bucketNone⟩
  { s with regs := AMap.put none s.regs g.glade (some
      ⟨bucketNew g.t2 r.t2, bucketNew g.t3 r.t3, bucketNew g.grove r.grove, bucketNew g.hostOut r.hostOut, bucketNew g.hostIn r.hostIn⟩) }

def putGlade (s : State) (g : Nat) (x : Option GladeState) : State :=
  { s with glades := { s.glades with sets := AMap.put none s.glades.sets g x } }

/-- GLADECHG in the Glade's function (R443 item 4); set 8 is the PF's. -/
def gladeChanged (s : State) (g : Nat) : State :=
  let f := if g = 8 then 0 else g + 1
  raiseEvent (setFunc s f { funcAt s f with gladechg := true }) f

/-- Share ranges in ascending Glade ID from core 0 (R427). -/
def assignShares (s : State) : State :=
  ((List.range 8).foldl (fun (p : State × Nat) g => match gladeOf p.1 g with
    | some x => (putGlade p.1 g (some { x with first := p.2, count := x.set.cores }), p.2 + x.set.cores)
    | none => p) (s, 0)).1

/-- Do the Glade's reservations fit under new settings (R443 item 2)? -/
def reservationsFit (s : State) (g : GladeSettings) : Bool :=
  let l := gladeServes s g.glade
  decide (sumNat (l.map (·.t2rate)) ≤ g.t2.rate) && decide (sumNat (l.map (·.t3rate)) ≤ g.t3.rate)
    && decide (sumNat (l.map (·.outRate)) ≤ g.hostOut.rate) && (g.kvCap == 0 || decide (kvHeldBy s g.glade ≤ g.kvCap))
    && (g.cores != 0 || l.isEmpty)
    && (match gladeOf s g.glade with
        | some x => decide (x.set.entries ≤ g.entries) || decide ((l.filter (fun v => v.kind != 0)).length ≤ g.entries)
        | none => true)

/-- The increases of new settings, with the reductions left out. -/
def raised (old new : GladeSettings) : GladeSettings :=
  let up := fun (a b : RateDepth) => (⟨max a.rate b.rate, b.depth⟩ : RateDepth)
  { new with cores := max old.cores new.cores, entries := max old.entries new.entries
             kvCap := if old.kvCap = 0 || new.kvCap = 0 then 0 else max old.kvCap new.kvCap
             t2 := up old.t2 new.t2, t3 := up old.t3 new.t3, grove := up old.grove new.grove
             hostOut := up old.hostOut new.hostOut, hostIn := up old.hostIn new.hostIn }

/-- A resource that the Glade's rates deny (R425). -/
def denies (g : GladeSettings) (flashIdx : Bool) : Bool := g.t2.rate == 0 || (flashIdx && g.t3.rate == 0)

/-- R284, R298: a GLADE_SET that denies a resource ends INGEST items and merges of the Glade. -/
def endDenied (s : State) (g : GladeSettings) : State :=
  s.reqs.foldl (fun s q => match reqOf s q.id with
    | none => s
    | some q => match q.job with
      | .items false b p l => (match heldIndex s b.handle with
        | some i => if indexGlade s i == some g.glade && (denies g (isFlash i.body) || g.hostIn.rate == 0 || g.hostOut.rate == 0)
                    then setJob s q (.items false b p (closeItems l stInvalid)) else s
        | none => s)
      | .merge h => (match heldIndex s h with
        | some i => if indexGlade s i == some g.glade && denies g (isFlash i.body || (i.merge.map (·.target)) == some 2)
                    then endRequest s q stInvalid 0 0 else s
        | none => s)
      | _ => s) s

/-- GLADE_SET at its boundary (R443). -/
def applyGladeSet (s : State) (g : GladeSettings) : State :=
  match gladeOf s g.glade with
  | none => s
  | some x =>
    let y := if reservationsFit s g then { x with set := g, pending := none } else { x with set := raised x.set g, pending := some g }
    gladeChanged (endDenied (putBuckets (putGlade s g.glade (some y)) y.set) g) g.glade

/-- A pending reduction is applied at the first boundary at which it fits (R443 item 2). -/
def applyPending (s : State) : State :=
  (List.range 9).foldl (fun s g => match gladeOf s g with
    | some x => (match x.pending with
      | some p => if reservationsFit s p then gladeChanged (putBuckets (putGlade s g (some { x with set := p, pending := none })) p) g else s
      | none => s)
    | none => s) s

/-! ### Effects at the boundary -/

/-- Right bits or grants taken away, or a move (R379). -/
def tenantTouched (t : TenBind) (b : TenantBody) : Bool :=
  t.glade != b.glade || (t.rights &&& ~~~b.rights) != 0#8 || t.grants.any (fun h => !b.grants.contains h)
def operTouched (o : OperBind) (b : OperatorBody) : Bool := (o.glades &&& ~~~b.glades) != 0#8 || (o.rights &&& ~~~b.rights) != 0#8

def putTenant (s : State) (n : Nat) (t : Option TenBind) : State := setStore s (fun x => { x with tens := AMap.put none x.tens n t })
def putOper (s : State) (n : Nat) (o : Option OperBind) : State := setStore s (fun x => { x with opers := AMap.put none x.opers n o })

/-- Does any held index hold records of the tenant that a merge has not dropped (R378)? -/
def hasRecords (s : State) (t : Nat) : Bool := s.idx.loaded.any (fun i => (currentRecs i).any (fun r => r.tenant == t))

/-- Items that name an unbound tenant and are not applied end with ST_DENIED (R379 item 3). -/
def denyItems (s : State) (t : Nat) : State :=
  s.reqs.foldl (fun s q => match q.job with
    | .items ins b p l => setJob s q (.items ins b p (l.map (fun i =>
        if i.status.isNone && i.entry.tenant.toNat == t then { i with status := some stDenied, accepted := false } else i)))
    | _ => s) s

def applyTenantUnbind (s : State) (q : Req) (t : Nat) : State :=
  let glade := ((tenOf s t).map (·.glade)).getD 0
  let s := denyItems (closePrincipal (putTenant s t none) 2 t dtUnbind (some q.id)) t
  let s := if hasRecords s t then setStore s (fun x => { x with retiring := setHas x.retiring (t, glade) }) else s
  { s with prot := { s.prot with dying := setHas s.prot.dying t } }

/-- POLICY_SET: sessions of credentials in breach, or past a shortened time, are closed (R376, R379). -/
def applyPolicy (s : State) (q : Req) (p : Policy) : State :=
  let s := setStore s (fun x => { x with policy := p })
  (s.prot.sessions).foldl (fun s x =>
    match credOf s x.role x.principal with
    | some c =>
      if breach p x.role c then closeByChange s x dtPolicy (some q.id)
      else if x.opened + p.lifetime * 1000000 < s.time then closeByChange s x dtLifetime (some q.id)
      else if !s.reqs.any (fun r => r.session == x.id) && decide (x.idle + p.idle * 1000000 < s.time) then closeByChange s x dtIdle (some q.id)
      else s
    | none => s) s

/-- A tenant whose KEK has been zeroed takes the one of its new blob (R365; log 42). -/
def giveKek (s : State) (n : Nat) (kek : BitVec 256) : State :=
  match tenOf s n with
  | some t =>
    if t.kek.isSome then s
    else (addKey (putTenant s n (some { t with kek := some kek })) kek .kek (some t.glade) (some n)).1
  | none => s

def applyCredential (s : State) (q : Req) (role principal : Nat) (b : Blob) : State :=
  let c := blobCred b
  let s := match role with
    | 0 => setStore s (fun x => { x with owner := some c })
    | 1 => (match operOf s principal with | some o => putOper s principal (some { o with cred := some c }) | none => s)
    | _ => (match tenOf s principal with | some t => giveKek (putTenant s principal (some { t with cred := some c })) principal b.kek | none => s)
  closePrincipal s role principal dtCredential (some q.id)

/-- R381: every credential key but the owner's, every KEK and every index key are zeroed; what T3 holds of an index is unreadable. -/
def applyReset (s : State) (q : Req) : State :=
  let s := (s.prot.sessions.filter (fun x => x.role != 0)).foldl (fun s x => closeByChange s x dtCredential (some q.id)) s
  let s := setStore s (fun x => { x with
    opers := x.opers.map (fun p => (p.1, p.2.map (fun o => { o with cred := none })))
    tens := x.tens.map (fun p => (p.1, p.2.map (fun t => { t with cred := none, kek := none }))) })
  { s with
    keys := { s.keys with handles := s.keys.handles.filter (fun p => match p.2 with
      | some v => v.purpose != .kek && v.purpose != .passage && v.purpose != .atRest && v.purpose != .credential
      | none => false) }
    idx := { s.idx with
      loaded := s.idx.loaded.map (fun i => { i with lost := true, keys := [], atRest := 0, snapshot := none, journal := [] }), flashOnly := [] } }

def applyTenantBind (s : State) (b : TenantBody) (x : Blob) : State :=
  let s := putTenant s b.tenant (some ⟨b.glade, b.cls, b.rights, b.grants, some (blobCred x), some x.kek⟩)
  (addKey s (x.kek) .kek (some b.glade) (some b.tenant)).1

def applyGladeRemove (s : State) (q : Req) (g : Nat) : State :=
  let opers := match s.prot.store with | some t => t.opers | none => []
  let s := opers.foldl (fun s p => match p.2 with
    | some o => if bitOf o.glades g then
        let left := o.glades &&& ~~~(1#8 <<< g)
        let s := if left = 0#8 then closePrincipal s 1 p.1 dtRights (some q.id) else s
        putOper s p.1 (some { o with glades := left })
      else s
    | none => s) s
  let s := putGlade { s with regs := AMap.put none s.regs g none } g none
  setFunc s (g + 1) { funcAt s (g + 1) with enabled := false }

def applyGladeDefine (s : State) (g : GladeSettings) : State :=
  let s := putBuckets (putGlade s g.glade (some ⟨g, none, 0, 0, []⟩)) g
  gladeChanged (setFunc s (g.glade + 1) { funcAt s (g.glade + 1) with enabled := true }) g.glade

def putProfile (s : State) (n : Nat) (p : Option Profile) : State :=
  { s with glades := { s.glades with profiles := AMap.put none s.glades.profiles n p } }

/-- The conditions hold again when the change is applied (log 19). -/
def configStillOk (s : State) : Instr → Bool
  | .policySet _ p => policyOk s p
  | .tenantBind _ b x => tenantBindOk s b x
  | .tenantSet _ b => tenantSetOk s b
  | .tenantUnbind _ t => tenantUnbindOk s t
  | .operatorBind _ b x => operBindOk s b x
  | .operatorSet _ b => operSetOk s b
  | .operatorUnbind _ n => (operOf s n).isSome
  | .credentialSet _ r p x => credSetOk s r.toNat p x
  | .gladeDefine _ g => gladeDefineOk s g
  | .gladeSet _ g => gladeSetOk s g
  | .gladeRemove _ g => gladeRemoveOk s g
  | .profileRemove _ n => profileRemoveOk s n
  | .protectionRestore _ _ g => s.prot.store.isNone && decide (s.kt.vaultCounter ≤ g)
  | _ => true

/-- A protection or Glade subfunction takes effect. -/
def applyProtection (s : State) (q : Req) : Instr → State
  | .policySet _ p => bumpStore (applyPolicy s q p) 0x0002
  | .tenantBind _ b x => bumpStore (applyTenantBind s b x) 0x0010
  | .tenantSet _ b =>
    let s1 := match tenOf s b.tenant with
      | some t =>
        let s1 := putTenant s b.tenant (some { t with glade := b.glade, cls := b.cls, rights := b.rights, grants := b.grants })
        if tenantTouched t b then closePrincipal s1 2 b.tenant dtRights (some q.id) else s1
      | none => s
    bumpStore s1 0x0011
  | .tenantUnbind _ t => bumpStore (applyTenantUnbind s q t) 0x0012
  | .operatorBind _ b x => bumpStore (putOper s b.operator (some ⟨b.glades, b.rights, some (blobCred x)⟩)) 0x0013
  | .operatorSet _ b =>
    let s1 := match operOf s b.operator with
      | some o =>
        let s1 := putOper s b.operator (some { o with glades := b.glades, rights := b.rights })
        if operTouched o b then closePrincipal s1 1 b.operator dtRights (some q.id) else s1
      | none => s
    bumpStore s1 0x0014
  | .operatorUnbind _ n => bumpStore (closePrincipal (putOper s n none) 1 n dtUnbind (some q.id)) 0x0015
  | .credentialSet _ r p x => bumpStore (applyCredential s q r.toNat p x) 0x0016
  | .protectionExport _ _ =>
    (match s.prot.store with
     | some t => putOutput { s with prot := { s.prot with exports := s.prot.exports ++ [storeImage s t] } } q.id (leBytes 8 t.generation)
     | none => s)
  | .protectionReset _ _ => bumpStore (applyReset s q) 0x0018
  | .gladeDefine _ g => bumpStore (applyGladeDefine s g) 0x0020
  | .gladeSet _ g => bumpStore (applyGladeSet s g) 0x0021
  | .gladeRemove _ g => bumpStore (applyGladeRemove s q g) 0x0022
  | .profileSet _ p => bumpStore (putProfile s p.id (some p)) 0x0023
  | .profileRemove _ n => bumpStore (putProfile s n none) 0x0024
  | _ => s

/-! ### PROTECTION_RESTORE (R364, R411) -/

/-- Load a store: what it holds is in force, and its Glades' functions exist (R364, R383). -/
def loadStore (s : State) (i : StoreImage) : State :=
  let s := { s with
    prot := { s.prot with store := some i.store }
    glades := { s.glades with sets := i.sets, profiles := i.profiles }
    kt := { s.kt with vaultCounter := max s.kt.vaultCounter i.store.generation } }
  let s := (List.range 8).foldl (fun s g => setFunc s (g + 1) { funcAt s (g + 1) with enabled := (gladeOf s g).isSome }) s
  let s := (List.range 9).foldl (fun s g => match gladeOf s g with | some x => putBuckets s x.set | none => s) s
  let s := i.store.tens.foldl (fun s p => match p.2 with
    | some t => (match t.kek with | some k => (addKey s k .kek (some t.glade) (some p.1)).1 | none => s)
    | none => s) s
  setReady (assignShares s) bStore true

def restoreGo (s : State) (h : MsgHead) (c : Ctx) (sealOk : Bool) (generation : Nat) : State :=
  if !formOk h false || s.prot.store.isSome || !sealOk || decide (generation < s.kt.vaultCounter) then refuse s h c (endWith stInvalid)
  else match s.prot.exports.find? (fun i => i.store.generation == generation) with
    | none => refuse s h c (endWith stInvalid)
    | some _ => addChange (acceptReq s h c opConfig none none (.config (.protectionRestore h sealOk generation))) (.request ⟨h.func, h.rid⟩)

/-- PROTECTION_RESTORE takes effect (R9, R364); another may have loaded a store in the same step. -/
def applyRestore (s : State) (q : Req) (generation : Nat) : State :=
  match s.prot.exports.find? (fun i => i.store.generation == generation) with
  | some i => completeReq (loadStore s i) q ⟨stOk, 0, 0, [(0, 8, generation)]⟩
  | none => completeReq s q (endWith stInvalid)

def execProtectionRestore (h : MsgHead) (sealOk : Bool) (generation : Nat) (s : State) : Result :=
  .next (message s h opConfig .restore true (fun s c => restoreGo s h c sealOk generation))

end Sys2Proof.Machine
end

