-- ==== Sys2Proof/Machine/TableOps.lean ====
section
/-!
DEFINITION. Table messages and hot-row events: row updates (R197 to R199), replacement (R200 to R203), pins and ranking (R192), the ends of
replica copies (R195), the same in a set (R204), and tiles written outside the engines.
-/
namespace Sys2Proof.Machine

/-! ### Tiles written by Wenik (R210, R214) -/

def putTileImage (s : State) (t : TileImage) : State :=
  if tilePopulated s t.key then
    let s := dropLines s t.key
    setTile (setDevBytes s (putCells s.media.bytes (t.key * tileBytes) tileBytes (cellsOf 0 (t.bytes.take tileBytes)))) t.key t.desc
  else s

/-- Only tiles that are EMPTY: fresh tiles of a claim. -/
def putFresh (s : State) (l : List TileImage) : State :=
  l.foldl (fun s t => if dState (tileDesc s t.key) = tileEmpty then putTileImage s t else s) s

/-! ### Versions (R174 to R179) -/

def codeWidth (width code : Nat) : Nat := if code = 8 then width else width / 2

/-- A row as it stands in T2 (R176). -/
def rowImage (r : RowRecord) : List Byte :=
  leBytes 2 r.scale.toNat ++ leBytes 2 r.offset.toNat ++ List.replicate 12 0#8 ++ r.codes

/-- The first 128 bits of SHA-256 over the rows (R179). -/
def tableDigest (s : State) (base rows stride : Nat) : W128 :=
  BitVec.ofNat 128 (leNat ((sha256 ((List.range rows).flatMap (fun n => devBytes s (rowAddr base stride n) stride))).take 16))

/-! ### HOT_ROW_RANK (R192) -/

def windowSamples (s : State) : List (Nat × Nat) := s.tabs.samples.filter (fun x => decide (s.time < x.1 + 1000000))

def sampleCount (l : List (Nat × Nat)) (home : Nat) : Nat := (l.filter (fun x => x.2 == home)).length

/-- Insert by descending count, then ascending address. -/
def insertRow (x : Nat × Nat) : List (Nat × Nat) → List (Nat × Nat)
  | [] => [x]
  | y :: r => if decide (y.2 < x.2) || (x.2 == y.2 && decide (x.1 < y.1)) then x :: y :: r else y :: insertRow x r

/-- Sampled rows with their counts, in rank order. -/
def rankedRows (l : List (Nat × Nat)) : List (Nat × Nat) :=
  ((l.map (·.2)).eraseDups.map (fun h => (h, sampleCount l h))).foldr insertRow []

def strideAt (s : State) (home : Nat) : Option Nat :=
  (s.tabs.versions.find? (fun v => decide (v.base ≤ home) && decide (home < v.base + tableBytes v.rows v.width v.code))).map (·.stride)

/-- Promote one candidate, replacing the coldest unpinned entry when the directory or the area is full and its share is at most half. -/
def promoteRow (s : State) (x : Nat × Nat) : State :=
  match strideAt s x.1 with
  | none => s
  | some st =>
    if (hotAt s x.1).isSome then s
    else if !dirFull s st then promote s x.1 st x.2 false
    else match coldest s with
      | some c =>
        if x.2 < 2 * c.2.share then s
        else promoteWaiting (purgeCleared (demote { s with tabs := { s.tabs with waits := s.tabs.waits ++ [(x.1, st, x.2)] } } c.1))
      | none => s

/-- One rank: shares and counts below 1/6,144 are renewed, rows cold for 10 s are demoted, rows at 1/1,536 are promoted. -/
def rankRows (s : State) : State :=
  let l := windowSamples s
  let total := l.length
  let s := reclaim { s with tabs := { s.tabs with samples := l, waits := [] } }
  let s := (hotList s).foldl (fun s p =>
    let n := sampleCount l p.1
    let below := if decide (n * 6144 < total) || total == 0 then p.2.below + 1 else 0
    if p.2.leaving then s
    else if !kept p.2 && decide (100 ≤ below) then demote s p.1
    else putHot s p.1 (some { p.2 with share := n, below := below })) s
  (rankedRows l).foldl (fun s x => if decide (total ≤ x.2 * 1536) && decide (0 < total) then promoteRow s x else s) s

def execHotRowRank (s : State) : Result := .next (rankRows s)

/-- The copy into one stack has written the replica's last byte (R195). -/
def replicaDone (s : State) (home stack : Nat) (e : HotRow) : State :=
  let bytes := devBytes s home e.stride
  let s := setDevBytes s (writeBytes s.media.bytes (replicaBase stack + e.offset) bytes)
  let e := { e with repl := e.repl.set stack .valid, lock := e.lock.drop 1 }
  putHot s home (some (nextCopy s (grantLock (if e.leaving then clearValid s e else e))))

def execReplicaCopyDone (home stack : Nat) (s : State) : Result :=
  .next (match hotAt s home with
    | some e => if e.lock.head? == some (.copy stack) && e.repl[stack]? == some .copying then replicaDone s home stack e else s
    | none => s)

/-! ### TABLE_UPDATE (R197 to R199) -/

/-- Owner, or operator with the TABLE right (R372). -/
def tableRole (s : State) (x : Session) : Bool := isOwner x || operRight s x 1

/-- Form, role, capacity; then acceptance, told to the set (R204). A replacement's swap is accepted at its commit (R200). -/
def tableGo (s : State) (h : MsgHead) (c : Ctx) (i : Instr) (form : Bool) (busy : Option Nat) (claim : State → State) : State :=
  if !form then refuse s h c (endWith stInvalid)
  else if !tableRole s c.sess then refuse s h c (endWith stDenied)
  else match busy with
    | some hint => refuse s h c (busyAt 0 hint)
    | none =>
      let s := tellPeers (acceptReq (claim s) h c opConfig none none (.table i [])) 3 ⟨h.func, h.rid⟩
      match i with
      | .tableReplace _ _ _ _ _ => s
      | _ => addChange s (.request ⟨h.func, h.rid⟩)

def updateForm (s : State) (h : MsgHead) (table : Nat) (rows : List RowRecord) : Bool :=
  formOk h true && decide (1 ≤ table) && decide (table ≤ 16) && decide (rows.length ≤ 4096)
    && (match curVersion s table with
        | some v => rows.all (fun r => decide (r.index < v.rows) && r.codes.length == codeWidth v.width v.code)
        | none => false)

def execTableUpdate (h : MsgHead) (table : Nat) (rows : List RowRecord) (s : State) : Result :=
  .next (message s h opConfig .opened false (fun s c => tableGo s h c (.tableUpdate h table rows) (updateForm s h table rows)
    (if 4096 < s.tabs.stepRows + rows.length then some (hintRange s 0) else none)
    (fun s => { s with tabs := { s.tabs with stepRows := s.tabs.stepRows + rows.length } })))

/-- From its boundary, no GPOOL on the version starts, and the locks are asked for once none runs (R198 items 1 and 2). -/
def beginApply (s : State) (q : Req) (table : Nat) (rows : List RowRecord) : State :=
  match curVersion s table with
  | none => completeReq s q (endWith stInvalid)
  | some v =>
    let rows := rows.filter (fun r => decide (r.index < v.rows) && r.codes.length == codeWidth v.width v.code)
    askLocks { s with tabs := { s.tabs with applying := s.tabs.applying ++ [⟨table, v.version, q.id, rows, s.chip.step, false⟩] } }

/-- No copy holds the lock of an updated row. -/
def locksFree (s : State) (v : TableVer) (rows : List RowRecord) : Bool :=
  rows.all (fun r => match hotAt s (rowHome v r.index) with
    | some e => (match e.lock.head? with | some (.copy _) => false | _ => true)
    | none => true)

/-- Write one row: home and every VALID replica, under the lock, and the near caches drop its lines (R195, R196). -/
def writeRow (s : State) (v : TableVer) (r : RowRecord) : State :=
  let home := rowHome v r.index
  let bytes := rowImage r
  let s := dropRange (setDevBytes s (writeBytes s.media.bytes home bytes)) home v.stride
  match hotAt s home with
  | none => s
  | some e => dropReplicas ((List.range 12).foldl (fun s k => if e.repl[k]? == some .valid then
      setDevBytes s (writeBytes s.media.bytes (replicaBase k + e.offset) bytes) else s) s) e

/-- The rows of an update are written (R198 item 3). -/
def writeApply (s : State) (a : Apply) : State :=
  match versionAt s a.table a.version with
  | none => s
  | some v =>
    let s := a.rows.foldl (fun s r => writeRow s v r) s
    { s with tabs := { s.tabs with versions := s.tabs.versions.map (fun x =>
      if x.table == a.table && x.version == a.version then { x with updated := x.updated + a.rows.length } else x) } }

/-- An update ends: its locks are released and its record is written. -/
def endApply (s : State) (a : Apply) : State :=
  let s := match versionAt s a.table a.version with | some v => a.rows.foldl (fun s r => unlockRow s v r) s | none => s
  match reqOf s a.req with | some q => configDone s q | none => s

def applyReady (s : State) (a : Apply) : Bool :=
  a.asked && !gatherOn s a.table a.version
    && (match versionAt s a.table a.version with | some v => locksFree s v a.rows | none => true)

/-- Every update applied at the boundary is written in acceptance order, and their messages complete (R198). -/
def execTableUpdateApplyEnd (table : Nat) (s : State) : Result :=
  let l := s.tabs.applying.filter (fun a => a.table == table)
  if l.isEmpty || !l.all (applyReady s) then .next s
  else
    let s := l.foldl writeApply { s with tabs := { s.tabs with applying := s.tabs.applying.filter (fun a => a.table != table) } }
    .next (goAll (l.foldl endApply s) 0)

/-! ### TABLE_REPLACE (R200 to R203) -/

/-- The width of a feature table in the current image's list (R188). -/
def listedWidth (s : State) (table : Nat) : Option Nat :=
  match s.images.current with
  | some i => (i.info.features.find? (fun f => f.table + 1 == table)).map (·.width)
  | none => none

def replaceForm (s : State) (h : MsgHead) (table code width rows : Nat) : Bool :=
  formOk h true && decide (1 ≤ table) && decide (table ≤ 16) && (code == 4 || code == 8) && decide (1 ≤ rows)
    && decide (rows ≤ 16777216) && listedWidth s table == some width && t2Fits s (tableBytes rows width code)

def replaceBusy (s : State) (table : Nat) : Bool :=
  s.tabs.versions.any (fun v => v.table == table && !v.current && some v.image == currentSerial s)
    || s.tabs.replaces.any (fun r => r.table == table)

/-- To the latest budgeted end of the requests pinned to the outgoing version (R437; log 18). -/
def replaceHint (s : State) (table : Nat) : Nat :=
  let old := (s.tabs.versions.filter (fun v => v.table == table && !v.current)).map (fun v => (v.table, v.version))
  hintRange s (pinsEnd s (fun v => v.tables.any old.contains))

def execTableReplace (h : MsgHead) (table code width rows : Nat) (s : State) : Result :=
  .next (message s h opConfig .opened false (fun s c => tableGo s h c (.tableReplace h table code width rows)
    (replaceForm s h table code width rows) (if replaceBusy s table then some (replaceHint s table) else none)
    (fun s => { s with tabs := { s.tabs with
      replaces := s.tabs.replaces ++ [⟨⟨h.func, h.rid⟩, table, code, width, rows, 0, tableBytes rows width code, none⟩] } })))

/-- The E-tile descriptor of a table tile (R212): FULL, NC, shared, WP. -/
def tableTile (table version ordinal : Nat) : BitVec 512 :=
  BitVec.ofNat 512 (2 + 4 * 2 ^ 2 + 2 ^ 14 + 15 * 2 ^ 16 + 16384 * 2 ^ 32 + 2 ^ 47 + table * 2 ^ 128 + version * 2 ^ 136 + ordinal * 2 ^ 168)

/-- A pinned row of a version not yet committed: its replicas are all VALID (R200 item 4). -/
def replicate (s : State) (v : TableVer) (n : Nat) : State :=
  let home := rowHome v n
  match hotAt s home, freeOffset s (rowSpace v.stride) with
  | none, some o =>
    let bytes := devBytes s home v.stride
    let s := (List.range 12).foldl (fun s k => setDevBytes s (writeBytes s.media.bytes (replicaBase k + o) bytes)) s
    let e : HotRow := ⟨v.stride, o, true, s.sched.admits, [], 0, 0, List.replicate 12 .valid, [], false, []⟩
    putHot s home (some { e with repl := (List.range 12).map (fun k => if replicaUsable s e k then .valid else .absent) })
  | _, _ => s

/-- Room for the replicas of a version's pinned rows: stale entries of these tiles that may go are gone, and colder rows are demoted. -/
def roomFor (s : State) (v : TableVer) : State :=
  (pinnedRows s v).foldl (fun s n => if (hotAt s (rowHome v n)).isSome then s else makeRoom s v.stride) (purgeCleared s)

/-- Every pinned row of the version stands in the directory. -/
def replicated (s : State) (v : TableVer) : Bool :=
  (pinnedRows s v).all (fun n => match hotAt s (rowHome v n) with | some e => e.pinned && !e.leaving | none => false)

def commitOk (s : State) (x : Replace) (rows : List RowRecord) (base : Nat) : Bool :=
  x.ready.isNone && rows.length == x.rows && base % tileBytes == 0 && decide ((base + x.bytes) / tileBytes ≤ t2Tiles)
    && rows.zipIdx.all (fun r => r.1.index == r.2 && r.1.codes.length == codeWidth x.width x.code)
    && (List.range (x.bytes / tileBytes)).all (fun i => dState (tileDesc s (base / tileBytes + i)) == tileEmpty)

/-- The version that a replacement's rows build (R200 item 3). -/
def replaceVersion (s : State) (x : Replace) (base : Nat) : TableVer :=
  let st := rowStride x.width x.code
  ⟨x.table, nextVersion s x.table, base, x.rows, x.width, x.code, st, tableDigest s base x.rows st, 0, (currentSerial s).getD 0, true, x.bytes⟩

/-- The rows in fresh tiles, the digest and the descriptor built, and the pinned rows replicated as far as there is room. -/
def builtReplace (s : State) (x : Replace) (rows : List RowRecord) (base : Nat) : State × TableVer :=
  let st := rowStride x.width x.code
  let t := rows.foldl (fun s r => setDevBytes s (writeBytes s.media.bytes (rowAddr base st r.index) (rowImage r))) s
  let v := replaceVersion t x base
  let t := (List.range (x.bytes / tileBytes)).foldl (fun s i => setTile s (base / tileBytes + i) (tableTile x.table v.version i)) t
  ((pinnedRows t v).foldl (fun s n => replicate s v n) (roomFor t v), v)

/-- The swap of a replacement is accepted at its commit; while the replicas find no room the commit has not come. -/
def commitReplace (s : State) (x : Replace) (rows : List RowRecord) (base : Nat) : State :=
  let (t, v) := builtReplace s x rows base
  if !replicated t v then roomFor s v
  else
    let t := { t with tabs := { t.tabs with replaces := t.tabs.replaces.map (fun y =>
      if y.req == x.req then { y with base := base, ready := some v } else y) } }
    addChange (tellPeers t 13 x.req) (.request x.req)

def execTableReplaceCommit (r : ReqId) (rows : List RowRecord) (base : Nat) (s : State) : Result :=
  .next (match s.tabs.replaces.find? (fun x => x.req == r) with
    | some x => if commitOk s x rows base then commitReplace s x rows base else s
    | none => s)

/-- The swap: the old version becomes outgoing (R200, R202). -/
def swapTable (s : State) (q : Req) (v : TableVer) : State :=
  let s := countVersion s v.table v.version
  let tabs := { s.tabs with
    versions := s.tabs.versions.map (fun x => if x.table == v.table && x.image == v.image then { x with current := false } else x) ++ [v]
    replaces := s.tabs.replaces.filter (fun x => x.req != q.id)
    damaged := s.tabs.damaged.filter (· != v.table) }
  configDone { s with tabs := tabs } q

/-! ### HOT_PIN and HOT_UNPIN (R192) -/

def addPins (l : List (Nat × Nat)) (table : Nat) (rows : List Nat) : List (Nat × Nat) := (l ++ rows.map (fun n => (table, n))).eraseDups
def takePins (l : List (Nat × Nat)) (table : Nat) (rows : List Nat) : List (Nat × Nat) := l.filter (fun p => !(p.1 == table && rows.contains p.2))

/-- The pins as the changes accepted before leave them (R192: up to 4,096 rows in all). -/
def pinsThen (s : State) : List (Nat × Nat) :=
  s.changes.foldl (fun l c => match c with
    | .request r => (match reqOf s r with
      | some q => (match q.job with
        | .table (.hotPin _ t rows) _ => addPins l t rows
        | .table (.hotUnpin _ t rows) _ => takePins l t rows
        | _ => l)
      | none => l)
    | _ => l) s.tabs.pins

def pinForm (s : State) (h : MsgHead) (table : Nat) (rows : List Nat) (add : Bool) : Bool :=
  formOk h false && decide (table ≤ 16) && decide (1 ≤ rows.length) && decide (rows.length ≤ 1000)
    && (match curVersion s table with | some v => rows.all (fun n => decide (n < v.rows)) | none => false)
    && (!add || decide ((addPins (pinsThen s) table rows).length ≤ 4096))

def execHotPin (h : MsgHead) (table : Nat) (rows : List Nat) (s : State) : Result :=
  .next (message s h opConfig .opened false (fun s c => tableGo s h c (.hotPin h table rows) (pinForm s h table rows true) none id))

def execHotUnpin (h : MsgHead) (table : Nat) (rows : List Nat) (s : State) : Result :=
  .next (message s h opConfig .opened false (fun s c => tableGo s h c (.hotUnpin h table rows) (pinForm s h table rows false) none id))

/-! ### At the boundary -/

/-- Every other member has committed its replacement (R204). -/
def peersCommitted (s : State) (r : ReqId) : Bool := (peersOf s).all (fun m => s.grove.commits.contains (m, r))

/-- A table subfunction takes effect; `false` when it goes on waiting, for the set or for its commit (R204). -/
def applyTable (s : State) (q : Req) (i : Instr) : State × Bool :=
  match i with
  | .tableUpdate _ t rows => if inSet s && !peersAccepted s q.id then (s, false) else (beginApply s q t rows, true)
  | .tableReplace _ _ _ _ _ =>
    (match s.tabs.replaces.find? (fun x => x.req == q.id) with
     | some x => (match x.ready with
       | some v => if inSet s && !peersCommitted s q.id then (s, false) else (swapTable s q v, true)
       | none => (s, true))
     | none => (s, true))
  | .hotPin _ t rows => (configDone (ensurePins { s with tabs := { s.tabs with pins := addPins s.tabs.pins t rows } }) q, true)
  | .hotUnpin _ t rows => (configDone (ensurePins { s with tabs := { s.tabs with pins := takePins s.tabs.pins t rows } }) q, true)
  | _ => (s, true)

/-- Versions no longer current and pinned by no request are freed, and their replicas cleared (R202). -/
def dropVersions (s : State) (gone : TableVer → Bool) : State :=
  let l := s.tabs.versions.filter gone
  let s := l.foldl (fun s v => (hotList s).foldl (fun s p =>
    if decide (v.base ≤ p.1) && decide (p.1 < v.base + tableBytes v.rows v.width v.code) then demote s p.1 else s) s) s
  let s := l.foldl (fun s v => freeRange s v.base (tableBytes v.rows v.width v.code)) s
  { s with tabs := { s.tabs with versions := s.tabs.versions.filter (fun v => !gone v) } }

def versionPinned (s : State) (v : TableVer) : Bool :=
  s.reqs.any (pinsTable v.table v.version) || s.tabs.applying.any (fun a => a.table == v.table && a.version == v.version)

def freeVersions (s : State) : State := dropVersions s (fun v => !v.current && !versionPinned s v)

/-- This member has done its part of a table change: accepted an update, committed a replacement (R204). -/
def tableDone (s : State) (r : ReqId) : Instr → Bool
  | .tableReplace _ _ _ _ _ => s.tabs.replaces.any (fun x => x.req == r && x.ready.isSome)
  | _ => true

/-- R204: the limit passed before every member accepted or committed: the failure is a peer's, or this member's own. -/
def execTableSetTimeout (r : ReqId) (s : State) : Result :=
  .next (match reqOf s r with
    | some q => (match q.job with
      | .table i _ => if inSet s && !s.tabs.applying.any (fun a => a.req == r) then
          endRequest s q stInvalid 0 (if tableDone s r i then fgPeer else 0) else s
      | _ => s)
    | none => s)

end Sys2Proof.Machine
end

