-- ==== Sys2Proof/Machine/Load.lean ====
section
/-!
DEFINITION. LOAD_MODEL (R52 to R56, R66 to R73, R341): acceptance, the transfer, the content checks, the swap and the freeing of the
image that it replaces.
-/
namespace Sys2Proof.Machine

/-! ### Contents of an image (R53 to R56, R175, R188, R337 to R357) -/

/-- Placements R54 allows a type; experts may lie in T3 on the 64T variant. -/
def placementOk (flash : Bool) (x : Section) : Bool :=
  match x.type with
  | 1 => x.placement == 3
  | 3 => x.placement == 0 || (flash && x.placement == 1)
  | 9 => x.placement == 2
  | 10 => x.placement == 3
  | 12 => x.placement == 3
  | _ => x.placement == 0

def sectionOk (flash : Bool) (m : ImageMeta) (x : Section) : Bool :=
  decide (1 ≤ x.type) && decide (x.type ≤ 12) && x.flags.toNat / 2 == 0 && x.reserved == 0#16
    && (x.type == 2 || x.type == 3 || x.type == 8 || x.type == 11 || x.locator == 0#32) && x.offset % tileBytes == 0
    && decide (tableEnd m.sections ≤ x.offset) && decide (x.offset + x.size ≤ m.size) && placementOk flash x
    && (decide (x.format ≤ 6) || x.format == 15) && (x.type != 11 || decide (x.size ≤ 268435456))

/-- The locators of a type are these, each once. -/
def locatorsAre (m : ImageMeta) (t : Nat) (l : List Nat) : Bool :=
  sortNat ((sectionsOfType m t).map (fun x => x.locator.toNat)) == sortNat l

def featureOk (m : ImageMeta) (f : FeatureEntry) : Bool :=
  f.rsvd == 0 && decide (f.table ≤ 15) && decide (f.kind ≤ 3) && decide (1 ≤ f.bag) && decide (f.bag ≤ 256) && (f.kind == 1 || f.bag == 1)
    && m.tables.any (fun t => t.table == f.table + 1 && t.width == f.width && t.rows == f.rows)

def tableSectionOk (m : ImageMeta) (t : TableSection) : Bool :=
  decide (t.table ≤ 16) && decide (32 ≤ t.width) && decide (t.width ≤ 32768) && t.width % 32 == 0 && decide (1 ≤ t.rows)
    && decide (t.rows ≤ 16777216) && (t.code == 4 || t.code == 8) && t.base % tileBytes == 0
    && (t.table != 0 || (t.width == m.params.hidden / max 1 m.slices && t.rows == m.params.vocab))

/-- R175, R177: the section of a table has the format of its code width and holds exactly its rows' tiles. -/
def tableBacked (m : ImageMeta) (t : TableSection) : Bool :=
  m.sections.any (fun x => (if t.table = 0 then x.type == 4 else x.type == 8 && x.locator.toNat + 1 == t.table)
    && x.format == (if t.code = 8 then 5 else 6) && x.size == tableBytes t.rows t.width t.code)

/-- R174: FEATURE_TABLE index i is table i + 1; every grammar index is below 64, and no two are the same. -/
def indexesOk (m : ImageMeta) : Bool :=
  let at_ := fun (t : Nat) => (sectionsOfType m t).map (fun x => x.locator.toNat)
  locatorsAre m 8 ((m.tables.filter (fun t => t.table != 0)).map (fun t => t.table - 1))
    && (at_ 11).all (fun n => decide (n < 64)) && (at_ 11).eraseDups.length == (at_ 11).length

/-- R53: every section's CRC. -/
def crcsMatch (m : ImageMeta) : Bool := m.sections.all (fun x => crc32 (sectionBytes m x) == x.crc)

/-- R52: the image is as long as its header says, and its footprints are those of its sections and the staging area (R59). -/
def extentOk (m : ImageMeta) : Bool :=
  m.size == tableEnd m.sections + m.data.length && m.t2 == placedBytes m 0 + stagingBytes m && m.t3 == placedBytes m 1

/-- Check 9 of R68, with the contents that the sections themselves must have (log 21). -/
def sectionsOk (s : State) (m : ImageMeta) : Bool :=
  decide (9 ≤ m.sections.length) && decide (m.sections.length ≤ 65880) && m.sections.all (sectionOk s.flash m)
    && [1, 4, 5, 6, 7, 9, 10, 12].all (fun t => (sectionsOfType m t).length == 1)
    && decide ((sectionsOfType m 8).length ≤ 16) && decide ((sectionsOfType m 11).length ≤ 64)
    && locatorsAre m 2 (List.range m.params.layers) && locatorsAre m 3 (expertLocators m.params)
    && vocabOk m.vocab m.params && templateOk m.template m.params.vocab && m.grammars.all (fun g => grammarOk g m.params.vocab)
    && m.grammars.length == (sectionsOfType m 11).length && m.tables.length == (sectionsOfType m 8).length + 1
    && (m.tables.map (·.table)).eraseDups.length == m.tables.length && m.tables.any (fun t => t.table == 0)
    && m.tables.all (tableSectionOk m) && m.tables.all (tableBacked m) && indexesOk m && extentOk m && recordsRead m
    && m.kappa.length == m.params.layers && m.kappa.all (fun k => [k.1, k.2].all (fun x => decide (-16 ≤ x) && decide (x ≤ 16))) && crcsMatch m && decide (m.features.length ≤ 16) && m.features.all (featureOk m)

/-- Check 10: R56. Of an image without MoE layers the limits on experts are not asked, nor the dense FFN's where no layer is dense (DESIGN
CHOICE, log 21: R56 exempts nothing in words). -/
def paramsFit (m : ImageMeta) : Bool :=
  let p := m.params
  let n := max 1 m.slices
  let ffn := fun (x : Nat) => decide (128 * n ≤ x) && decide (x ≤ 131072) && x % (128 * n) == 0
  let moe := !(moeLayers p).isEmpty
  decide (1 ≤ p.layers) && decide (p.layers ≤ 256) && decide (1 ≤ p.e) && decide (p.e ≤ p.r) && decide (p.r ≤ p.layers)
    && decide (512 ≤ p.hidden) && decide (p.hidden ≤ 32768) && p.hidden % (128 * n) == 0 && p.heads * p.headDim == p.hidden
    && (p.headDim == 64 || p.headDim == 128) && p.heads % n == 0 && decide (0 < p.kvHeads) && p.heads % max 1 p.kvHeads == 0 && p.kvHeads % n == 0
    && (p.firstMoe == 0 || ffn p.ffn)
    && (!moe || (ffn p.expertFfn && decide (2 ≤ p.routed) && decide (p.routed ≤ 256) && decide (1 ≤ p.active) && decide (p.active ≤ 8)
        && decide (p.active < p.routed) && decide (p.shared ≤ 2)))
    && decide (p.pooling ≤ 1) && decide (p.norm ≤ 1) && decide (p.act ≤ 2)
    && decide (64 ≤ p.dim) && decide (p.dim ≤ 4096) && p.dim % 8 == 0 && decide (p.dim ≤ p.hidden)
    && decide (256 ≤ p.vocab) && decide (p.vocab ≤ 262144) && decide (1024 ≤ p.context) && decide (p.context ≤ 131072)
    && decide (p.eos < p.vocab) && !p.rsvd && (sectionsOfType m 9).all (fun x => decide (x.size ≤ 48 * 1048576))
    && ((sectionsOfType m 3).any (fun x => x.placement == 1) == (p.coldSlots != 0))

/-- Checks 8 to 12 of R68 in order: the first that fails. -/
def contentCheck (s : State) (j : LoadJob) (m : ImageMeta) : Option Nat :=
  if !(m.magicOk && m.version == 1 && m.headerSize == 128 && !m.headerRsvd && m.t2 == j.body.t2 && m.t3 == j.body.t3
      && m.slices == memberCount s && m.slice == memberIndex s) then some 8
  else if !sectionsOk s m then some 9
  else if !paramsFit m then some 10
  else if m.digest != imageDigest m.sections m.data then some 11
  else if m.slices == 1 && m.fingerprint != fingerprintOf m.sections m.data m.params then some 12
  else none

/-! ### Acceptance (R67 to R69) -/

def t2ImageLimit : Nat := 1086 * gib

/-- Check 1. A store slot that holds no image is refused here (DESIGN CHOICE, log 21: R68 names no check for it). -/
def loadBodyOk (s : State) (h : MsgHead) (b : LoadModelBody) : Bool :=
  formOk h true && decide (b.source.toNat ≤ 2) && decide (b.mode.toNat ≤ 1) && decide (b.flags.toNat ≤ 1) && decide (b.storeSlot.toNat ≤ 1)
    && b.objects == (if b.source = 0#8 then 1 else 0)
    && (b.source == 0#8 || (AMap.get none s.images.stored (b.source.toNat - 1)).isSome)
    && (s.flash || (b.t3 == 0 && b.source == 0#8 && b.flags == 0#8))

/-- Check 5: against the space that no image, index or table holds; a drain counts the current image's. -/
def loadFits (s : State) (b : LoadModelBody) : Bool :=
  let drain := b.mode == 1#8
  let old2 := match s.images.current with | some i => if drain then i.info.t2 else 0 | none => 0
  let old3 := match s.images.current with | some i => if drain then i.info.t3 else 0 | none => 0
  decide (b.t2 ≤ t2ImageLimit) && decide (heldT2 s + b.t2 + t2Floor ≤ t2Open + old2)
    && decide (heldT3 s + b.t3 + storeClaim b ≤ t3Open s + old3)

/-- R506: beside a damaged current image, another is loaded only by draining. -/
def damagedHeld (s : State) : Bool := match s.images.current with | some i => !i.damaged.isEmpty | none => false

/-- Check 3's hint: the load in progress, or the requests pinned to the outgoing image. -/
def loadBusyHint (s : State) : Nat :=
  if (loading s).isSome then loadHint s
  else hintRange s (match s.images.outgoing with | some i => pinnedEnd s i.serial | none => 0)

def loadCheck (s : State) (h : MsgHead) (b : LoadModelBody) (x : Session) : Option Ending :=
  if !loadBodyOk s h b then some (failAt stInvalid 1)
  else if !isOwner x then some (failAt stDenied 2)
  else if (loading s).isSome || s.images.outgoing.isSome then some (busyAt 3 (loadBusyHint s))
  else if !readyBit s bT2 || (b.t3 != 0 && !readyBit s bT3) then some (failAt stNotReady 4)
  else if !loadFits s b || (b.mode == 0#8 && damagedHeld s) then some (failAt stInvalid 5)
  else if b.mode == 0#8 && !t2Fits s b.t2 then some (busyAt 6 (hintWhen s (fun t => t2Fits t b.t2)))
  else none

def loadGo (s : State) (h : MsgHead) (b : LoadModelBody) (c : Ctx) : State :=
  match loadCheck s h b c.sess with
  | some e => refuse s h c e
  | none =>
    let s := tellPeers s 4 ⟨h.func, h.rid⟩
    acceptReq s h c opLoadModel none none (.load ⟨b, false, 0, b.mode == 0#8 || s.images.current.isNone, none, false, []⟩)

def execLoadModel (h : MsgHead) (b : LoadModelBody) (s : State) : Result :=
  .next (message s h opLoadModel .opened false (fun s c => loadGo s h b c))

/-! ### Transfer and content (R68, R341) -/

/-- The load with this name, when it may receive content: in drain mode, once the old image is freed (R70). -/
def loadJob (s : State) (r : ReqId) : Option (Req × LoadJob) :=
  match reqOf s r with
  | some q => (match q.job with | .load j => if j.info.isNone && j.oldFreed then some (q, j) else none | _ => none)
  | none => none

/-- A load fails in its content phase; in a set, the peers learn of it (R66). -/
def failLoad (s : State) (q : Req) (check : Nat) : State := completeReq (tellPeers s 5 q.id) q (failAt stInvalid check)

/-- A chunk of an image from the host (R67, R68 check 7); the image store sends none. -/
def execImageChunkArrival (r : ReqId) (tagOk : Bool) (tiles : List TileImage) (s : State) : Result :=
  .next (match loadJob s r with
    | some (q, j) =>
      if j.body.source != 0#8 then s
      else if !tagOk then failLoad s q 7
      else setJob (putFresh s tiles) q (.load { j with chunks := j.chunks + 1 })
    | none => s)

/-- Text units for an image about to be swapped in: unit 1, and unit 0 too when no image holds it (R341). -/
def placeVocab (s : State) (m : ImageMeta) : State :=
  match s.images.current with
  | none => { s with images := { s.images with unit0 := s.images.next, unit1 := s.images.next } }
  | some i => if i.info.vocab = m.vocab then s else { s with images := { s.images with unit1 := s.images.next } }

/-- R67: what a load reads: the image that arrives, or that of the store slot it names. -/
def loadedImage (s : State) (b : LoadModelBody) (image : ImageMeta) : ImageMeta :=
  if b.source = 0#8 then image else (AMap.get none s.images.stored (b.source.toNat - 1)).getD image

/-- R66: this member has verified its slice, of this image with these MODEL_PARAMS (R65). -/
def tellVerified (s : State) (r : ReqId) (m : ImageMeta) : State :=
  (peersOf s).foldl (fun s p => sendTo s p (leBytes 1 6 ++ leBytes 1 r.func.toNat ++ leBytes 8 r.rid.toNat ++ leBytes 16 m.imageId.toNat
    ++ leBytes 16 m.fingerprint.toNat ++ sectionAt m 1 0)) s

def execLoadModelContentVerified (r : ReqId) (arrived : ImageMeta) (s : State) : Result :=
  .next (match loadJob s r with
    | some (q, j) =>
      let image := loadedImage s j.body arrived
      (match contentCheck s j image with
       | some n => failLoad s q n
       | none => addChange (tellVerified (setJob (placeVocab s image) q (.load { j with info := some image, swap := true })) q.id image) (.request r))
    | none => s)

/-- R66: 600 s after the first acceptance. A member whose own slice is not verified by then ends with detail 0 and without PEER, a verified
one with PEER (DESIGN CHOICE, log 21: the spec names neither as its own status). -/
def execLoadModelSetTimeout (r : ReqId) (s : State) : Result :=
  .next (match reqOf s r with
    | some q => (match q.job with
      | .load j => if inSet s then completeReq s q ⟨stInvalid, 0, if j.swap then fgPeer else 0, []⟩ else s
      | _ => s)
    | none => s)

/-! ### At the boundary (R69, R70, R200 to R202) -/

/-- Every other member of the set has verified its slice (R66). -/
def peersVerified (s : State) : Bool := (peersOf s).all (fun m => s.grove.verifies.any (fun v => v.1 == m))

/-- R65: they hold slices of the same image. -/
def peersAgree (s : State) (m : ImageMeta) : Bool := s.grove.verifies.all (fun v => v.2 == sliceInfo m)

/-- The tables of an image become its current versions (R174, R179). -/
def tablesOf (s : State) (m : ImageMeta) (serial : Nat) : List TableVer :=
  m.tables.map (fun t =>
    let st := rowStride t.width t.code
    ⟨t.table, nextVersion s t.table, t.base, t.rows, t.width, t.code, st, tableDigest s t.base t.rows st, 0, serial, true, 0⟩)

/-- The swap (R70): the old image becomes outgoing, and an image loaded with the STORE flag stands in the store from here on (DESIGN CHOICE,
log 21: R67 gives no moment). -/
def swapImage (s : State) (q : Req) (j : LoadJob) (m : ImageMeta) : State :=
  let n := s.images.next
  let stored := if j.body.flags = 0#8 then s.images.stored else AMap.put none s.images.stored j.body.storeSlot.toNat (some m)
  let s := { s with
    images := { s.images with current := some ⟨n, m, []⟩, outgoing := s.images.current, stored := stored, next := n + 1 }
    tabs := { s.tabs with versions := s.tabs.versions ++ tablesOf s m n, damaged := [] } }
  let s := (tablesOf s m n).foldl (fun s v => countVersion s v.table v.version) s
  let s := setReady (setReady (ensurePins s) bImage true) bText true
  completeReq s q ⟨stOk, 0, 0, [(0, 16, m.imageId.toNat), (16, 16, m.fingerprint.toNat)]⟩

/-- A LOAD_MODEL at its boundary; `false` when it waits for its set. Slices that do not agree fail check 12 of R68. -/
def applyLoad (s : State) (q : Req) (j : LoadJob) : State × Bool :=
  match j.info with
  | some m =>
    if inSet s && !peersVerified s then (s, false)
    else if inSet s && !peersAgree s m then (failLoad s q 12, true)
    else (swapImage s q j m, true)
  | none => (s, true)

def imagePinned (s : State) (n : Nat) : Bool := s.reqs.any (pinsImage n)

/-- The outgoing image is freed with its table versions when no request is pinned to it (R70, R341). -/
def freeOutgoing (s : State) : State :=
  match s.images.outgoing with
  | none => s
  | some o =>
    if imagePinned s o.serial then s
    else
      let cur := (currentSerial s).getD 0
      let s := dropVersions s (fun v => v.image == o.serial)
      { s with images := { s.images with outgoing := none, unit0 := if s.images.unit1 = cur then cur else s.images.unit0 } }

/-- In drain mode the current image is freed, and the transfer may begin (R70). -/
def freeDrained (s : State) : State :=
  match loading s, s.images.current with
  | some (q, j), some i =>
    if j.oldFreed || imagePinned s i.serial then s
    else
      let s := dropVersions s (fun v => v.image == i.serial)
      setReady (setJob { s with images := { s.images with current := none } } q (.load { j with oldFreed := true })) bImage false
  | _, _ => s

def freeImages (s : State) : State := freeDrained (freeOutgoing s)

end Sys2Proof.Machine
end

