-- ==== Sys2Proof/Machine/Index.lean ====
section
/-!
DEFINITION. Indexes: LOAD_INDEX (R246 to R249, R277, R278, R305, R402, R556), INGEST and INSERT with their items (R279, R280, R284 to
R288, R344, R403, R404, R439), and reads of host memory (R366, R367, R384).
-/
namespace Sys2Proof.Machine

/-! ### LOAD_INDEX -/

/-- A power of two from 2⁻¹⁶ to 2¹⁶. -/
def packScaleOk (w : W32) : Bool := fld w 0 23 == 0 && decide (111 ≤ fld w 23 9) && decide (fld w 23 9 ≤ 143)
/-- Positive, finite and normal. -/
def scaleOk (w : W32) : Bool := decide (1 ≤ fld w 23 9) && decide (fld w 23 9 ≤ 254)
def positiveFinite (w : W32) : Bool := fpFinite w && fpLt 0#32 w

/-- R246. -/
def indexValuesOk (s : State) (b : LoadIndexBody) : Bool :=
  decide (b.metric.toNat ≤ 2) && [8, 16, 32, 48, 64, 96].contains b.m && decide (64 ≤ b.dim) && decide (b.dim ≤ 4096) && b.dim % max 1 b.m == 0
    && decide (b.codeForm.toNat ≤ 1) && decide (1 ≤ b.nReg) && decide (b.nReg ≤ 4096) && decide (1 ≤ b.lam) && decide (b.lam ≤ 65536)
    && decide (b.nReg * b.lam ≤ 4194304) && [0, 1, 2, 4].contains b.attrs && (b.coarse == 0#8 || b.coarse == 3#8)
    && packScaleOk b.pi && scaleOk b.sigma && b.beta == fpDiv b.sigma b.pi
    && (if b.metric = 1#8 then positiveFinite b.rho else b.rho == 0#32)
    && (match s.images.current with | some i => i.info.fingerprint != b.fingerprint || i.info.params.dim == b.dim | none => true)

/-- R305: shard count and index; a flash index is never a set index. -/
def shardOk (s : State) (b : LoadIndexBody) : Bool :=
  if b.shardCount = 1 then b.shardIndex == 0
  else inSet s && b.shardCount == memberCount s && b.shardIndex == memberIndex s && !isFlash b

/-- The index whose snapshot T3 holds under a handle, and which is not loaded, or is lost (R506, R556). -/
def storedIndex (s : State) (h : Nat) : Option Index :=
  match heldIndex s h with
  | some i => if i.lost && i.snapshot.isSome then some i else none
  | none => s.idx.flashOnly.find? (fun i => i.handle == h)

/-- Replay of one change (R297, R307). -/
def replayOne (l : List IRec) : Replay → List IRec
  | .insert r => l ++ [r]
  | .tomb p => l.map (fun x => if x.pid == p then { x with tomb := true } else x)

/-- The latest snapshot with the journal replayed (R307). -/
def restoredIndex (i : Index) : Index :=
  { i with
    versions := match i.snapshot with
      | some (n, l) =>
        let old := versionOf i n
        [⟨n, [⟨0, i.journal.foldl replayOne l⟩], false, (old.map (·.made)).getD (Config.versionTime n), (old.map (·.wrote)).getD [], none⟩]
      | none => []
    filling := none, current := 0, merge := none, dropped := false, lost := false, retain := 0 }

/-- Check 1 of R556. -/
def indexFormOk (s : State) (h : MsgHead) (b : LoadIndexBody) : Bool :=
  formOk h true && decide (b.residency.toNat ≤ 1) && decide (b.flags.toNat ≤ 1) && indexValuesOk s b && (s.flash || (!isFlash b && !isDurable b))
    && shardOk s b && decide (s.idx.loaded.length < 64) && (tenOf s b.ownerTenant).isSome
    && (match b.action.toNat with
        | 0 => b.handle == 0 && b.objects == 1
        | 1 => b.objects == 0 && (storedIndex s b.handle).isSome
        | _ => false)

/-- An index being created: nothing is current yet. -/
def newIndex (s : State) (b : LoadIndexBody) : Index :=
  { handle := s.idx.next, body := b, fp := b.fingerprint, parts := ⟨[], [], [], [], [], [], []⟩, versions := [], store := [], filling := none, current := 0
    seqNo := 0, merge := none, threshold := 1048576, retain := 0, dropped := false, lost := false, keys := [], atRest := 0
    snapshot := none, journal := [] }

/-- The index a LOAD_INDEX makes, before it takes effect. -/
def loadingIndex (s : State) (b : LoadIndexBody) : Index :=
  if b.action = 0#8 then newIndex s b
  else match storedIndex s b.handle with
    | some i => restoredIndex i
    | none => newIndex s b

def indexCheck (s : State) (h : MsgHead) (b : LoadIndexBody) (x : Session) : Option Ending :=
  let i := loadingIndex s b
  if !indexFormOk s h b then some (failAt stInvalid 1)
  else if !isOwner x then some (failAt stDenied 2)
  else if !readyBit s bT2 || ((isDurable i.body || b.action == 1#8) && !readyBit s bT3) then some (failAt stNotReady 3)
  else if !t2FitsIdle s (indexT2 i) || !t3Fits s (indexT3 i) then some (failAt stInvalid 4)
  else if !t2Fits s (indexT2 i) then some (busyAt 5 (hintWhen s (fun t => t2Fits t (indexT2 i))))
  else none

def indexGo (s : State) (h : MsgHead) (b : LoadIndexBody) (c : Ctx) : State :=
  match indexCheck s h b c.sess with
  | some e => refuse s h c e
  | none =>
    let i := loadingIndex s b
    let s := { s with idx := { s.idx with
      loaded := s.idx.loaded.filter (fun x => x.handle != i.handle) ++ [i]
      next := if b.action = 0#8 then s.idx.next + 1 else s.idx.next } }
    acceptReq s h c opLoadIndex none none (.index b i.handle false)

def execLoadIndex (h : MsgHead) (b : LoadIndexBody) (s : State) : Result :=
  .next (message s h opLoadIndex .opened false (fun s c => indexGo s h b c))

/-- Subvectors of the codebooks: M subquantizers of C centroids of D / M values. -/
def codebookOk (b : LoadIndexBody) (l : List (List (List W32))) : Bool :=
  let c := if b.codeForm = 0#8 then 256 else 16
  l.length == b.m && l.all (fun x => x.length == c && x.all (fun y => y.length == b.dim / b.m))

/-- The W-tiles of `n` centroids: an element plane each, and an HB4 scale record (R112, R113). -/
def centroidTilesOk (b : LoadIndexBody) (n : Nat) (l : List WTile) : Bool :=
  l.length == coarseTiles b n && l.all (fun t => t.elems.length == 8192 && t.side.length == recordSize b.coarse.toNat false)

/-- Every component that R249 marks present, in its shape, and no other. -/
def componentsOk (b : LoadIndexBody) (p : IndexParts) : Bool :=
  let l2 := b.metric == 2#8
  let lists := b.nReg * b.lam
  centroidTilesOk b b.nReg p.regions && p.lists.length == b.nReg && p.lists.all (centroidTilesOk b b.lam)
    && p.regionNorms.length == (if l2 then b.nReg else 0) && p.listNorms.length == (if l2 then lists else 0)
    && p.centroids.length == (if l2 then lists else 0) && p.centroids.all (fun x => x.length == b.dim)
    && codebookOk b p.residual && codebookOk b p.flat

/-- The components of an index as its load writes them (R249). -/
def indexPartsOf (regions : RegionParts) (lists : ListParts) (residual flat : List (List (List W32))) : IndexParts :=
  ⟨regions.tiles, lists.tiles, regions.norms, lists.norms, lists.centroids, residual, flat⟩

def execLoadIndexWritten (r : ReqId) (regions : RegionParts) (lists : ListParts) (residual flat : List (List (List W32))) (s : State) : Result :=
  let parts := indexPartsOf regions lists residual flat
  .next (match reqOf s r with
    | some q => (match q.job, s.idx.loaded.find? (fun i => match q.job with | .index _ n _ => i.handle == n | _ => false) with
      | .index b n false, some i =>
        if b.action = 1#8 then addChange (setJob s q (.index b n true)) (.request r)
        else if !componentsOk b parts then endRequest s q stInvalid 1 0
        else addChange (setJob (putIndex s { i with parts := parts }) q (.index b n true)) (.request r)
      | _, _ => s)
    | none => s)

/-- Put a vault-drawn key behind a new handle (R362). -/
def drawKey (s : State) (p : Purpose) (glade tenant : Option Nat) : State × Nat := addKey (drawn s) (Config.freeKey s.freeCount) p glade tenant

/-- A 512-bit key of the vault's generator (R237, R362). -/
def drawXtsKey (s : State) (p : Purpose) (glade tenant : Option Nat) : State × Nat :=
  let (s1, n) := drawKey s p glade tenant
  (setHalf (drawn s1) n (Config.freeKey s1.freeCount), n)

/-- The embedding fingerprint differs from the current image's (R63). -/
def mismatch (s : State) (fp : W128) : Bool := match s.images.current with | some m => m.info.fingerprint != fp | none => false

/-- The snapshot of a version's state 0 in T3, of a durable index or when a MERGE asks for one (R295, R307). -/
def snapshotOf (flash asked : Bool) (i : Index) : Index :=
  if flash && (asked || isDurable i.body) then { i with snapshot := some (i.current, currentRecs i), journal := [] } else i

/-- The loaded index becomes current (R556): a created one in version 1, state 0. -/
def applyIndex (s : State) (q : Req) (b : LoadIndexBody) (n : Nat) : State :=
  match heldIndex s n with
  | none => completeReq s q (endWith stInvalid)
  | some i =>
    let (s, i) : State × Index :=
      if b.action = 1#8 then
        ({ s with idx := { s.idx with flashOnly := s.idx.flashOnly.filter (fun x => x.handle != n) } },
          { i with current := ((i.versions.getLast?).map (·.num)).getD 1 })
      else
        let (s, k) := drawXtsKey s .atRest (indexGlade s i) (some b.ownerTenant)
        (drawn s, snapshotOf s.flash false { i with
          versions := [⟨1, [⟨0, []⟩], false, Config.versionTime s.freeCount, [], none⟩], current := 1, atRest := k })
    completeReq (putIndex s i) q ⟨stOk, 0, if mismatch s i.fp then fgMismatch else 0,
      [(0, 4, n), (4, 4, i.current), (8, 16, i.fp.toNat)]⟩

/-! ### INGEST and INSERT: acceptance -/

/-- The tenant an item belongs to; 0xFFFF names the session's own. -/
def itemTenant (x : Session) (e : ItemEntry) : Nat := if e.tenant = 0xFFFF#16 then x.principal else e.tenant.toNat

/-- R286, R372: what an item's entry decides at once. -/
def entryStatus (s : State) (x : Session) (i : Index) (e : ItemEntry) : Option Nat :=
  if e.attrCount != i.body.attrs || decide (65535 < e.acl.toNat) || (isOper x && e.tenant == 0xFFFF#16) then some stInvalid
  else if isTenant x then (if itemTenant x e = x.principal then none else some stDenied)
  else match tenOf s e.tenant.toNat with
    | some t => if bitOf (operGlades s x) t.glade then none else some stDenied
    | none => some stDenied

def itemNew (s : State) (x : Session) (i : Index) (e : ItemEntry) : ItemState :=
  ⟨{ e with tenant := BitVec.ofNat 16 (itemTenant x e) }, entryStatus s x i e, none, [], [], false, none, false, 0, 0⟩

def chunkOf (b : IngestBody) : Nat := if b.chunk = 0 then 512 else b.chunk

/-- The passages of an item's text (R344). -/
def passagesOf (m : ImageMeta) (b : IngestBody) (text : List Byte) : List (List Nat) := chunkTokens m.vocab (chunkOf b) b.overlap (tokenize m.vocab text)

def ingestFormOk (s : State) (h : MsgHead) (b : IngestBody) (insert : Bool) : Bool :=
  let n := b.items.length
  formOk h true && decide (1 ≤ n) && decide (n ≤ if insert then 64 else 4096) && decide (16 * n ≤ b.reportLen) && (loadedIndex s b.handle).isSome
    && (if insert then b.chunk == 0 && b.overlap == 0 && (profileOf s b.profile).isSome
        else b.profile == 0 && decide (64 ≤ chunkOf b) && decide (chunkOf b ≤ 2048) && decide (b.overlap ≤ chunkOf b / 4))

def writeRight (s : State) (x : Session) (handle : Nat) : Bool := (tenRight s x 2 && granted s x handle) || operRight s x 2

/-- The Glade that the work belongs to: a tenant's own, or the index's. -/
def workGlade (s : State) (x : Session) (i : Index) : Option Nat := match sessionGlade s x with | some g => some g | none => indexGlade s i

/-- Checks 1 to 5 of R24. -/
def ingestChecks (s : State) (h : MsgHead) (b : IngestBody) (insert : Bool) (x : Session) : Except Ending (Index × Img × Nat) :=
  if !ingestFormOk s h b insert then .error (failAt stInvalid 1)
  else if !writeRight s x b.handle then .error (failAt stDenied 2)
  else if lostIndex s b.handle then .error (failAt stFault dtPoisoned)
  else match modelCheck s with
    | some e => .error e
    | none =>
      match loadedIndex s b.handle, s.images.current with
      | some i, some img =>
        if !coresReady s || !indexReady s i (setAllReady s) || (inSet s && !setAllReady s) || (isDurable i.body && !readyBit s bT3)
        then .error (failAt stNotReady 3)
        else if i.fp != img.info.fingerprint then .error (failAt stIndexMismatch 5)
        else match workGlade s x i with
          | some g => .ok (i, img, g)
          | none => .error (failAt stInvalid 1)
      | _, _ => .error (failAt stNotReady 3)

/-- What an INSERT asks of the Strainer (R439): embedding and placing every item, within the deadline less its reserve. -/
def insertAsk (s : State) (img : Img) (g n : Nat) (p : Profile) : Ask :=
  let m := img.info
  let time := (stageTime s m .ingest n).getD 0
  { glade := g, image := img.serial, retrieve := some p.deadline, stages := 50 + time, gen := none, pages := 0, pageB := 0, t2rate := 0, t3rate := 0
    homeRate := 0, grove := if inSet s then stageGrove m .ingest n time else 0, outRate := 0, slots := 0, ctxs := 0, hot := 0
    cores := [stageCores m .ingest n time], power := planPower s m [(.ingest, n)], reserve := reserveOf p.deadline, longest := longestUnit m }

/-- Check 6 of an INGEST: a resource its Glade's rate denies (R284). -/
def ingestDenied (s : State) (g : Nat) (i : Index) : Bool :=
  match gladeOf s g with
  | some x => let set := costedSettings x; denies set (isFlash i.body) || set.hostIn.rate == 0 || set.hostOut.rate == 0
  | none => true

/-- Checks 6 and 7. -/
def ingestStrain (s : State) (b : IngestBody) (insert : Bool) (i : Index) (img : Img) (g : Nat) : Option Ending :=
  if insert then
    match profileOf s b.profile with
    | some p => strain s (insertAsk s img g b.items.length p) (isFlash i.body) (stageTime s img.info .ingest b.items.length).isSome
    | none => some (failAt stInvalid 1)
  else if ingestDenied s g i then some (failAt stInvalid 6) else none

/-- The first ID of the next passage (R279). -/
def nextPid (i : Index) : Nat := i.body.shardIndex * 2 ^ 44 + i.seqNo

/-- A passage's fragment, whole: the bytes of its tokens (R281, R344). -/
def passageFragment (m : ImageMeta) (x : ItemState) (pid : Nat) (toks : List Nat) : Fragment :=
  let text := toks.flatMap (entryBytesOf m.vocab)
  ⟨pid, false, false, text.length, toks.length, x.entry.tenant.toNat, x.entry.acl.toNat, x.fileType, x.entry.stamp, featureStamp m, x.path,
    storedHashes m.features x.fileType x.path, text⟩

/-- The fragments of an item's passages. -/
def itemFragments (i : Index) (m : ImageMeta) (x : ItemState) (l : List (List Nat)) : List Fragment :=
  l.zipIdx.map (fun t => passageFragment m x (nextPid i + t.2) t.1)

/-- An item's passages placed in the store (R280), and the P-tiles that they need. -/
def itemPlacing (s : State) (i : Index) (m : ImageMeta) (x : ItemState) (l : List (List Nat)) : Placing × Nat :=
  let p := (itemFragments i m x l).foldl (placePassage (keyValue s) (AMap.get 0 i.keys x.entry.tenant.toNat)) ⟨i.store, i.filling, s.freeCount⟩
  (p, p.tiles.length + (if p.open_.isSome then 1 else 0) - i.store.length)

/-- The hint of items that end with ST_BUSY (R286): a merge's end, which no row of the plan gives, is put at the next boundary (log 18);
otherwise when the space of the first of them is released. -/
def itemsHint (s : State) (b : IngestBody) (image : Nat) (l : List ItemState) : Nat :=
  match heldIndex s b.handle, imageOf s image, l.find? (fun x => x.status == some stBusy) with
  | some i, some m, some x =>
    let l := passagesOf m.info b (x.text.getD [])
    let n := (itemPlacing s i m.info x l).2
    if i.merge.isSome then hintRange s 0
    else hintWhen s (fun t => t2Fits t (itemT2 i.body l.length + passageT2 i.body n) && t3Fits t (itemT3 i.body l.length + passageT3 i.body n))
  | _, _, _ => 4294967295

/-- Items that no event can decide any more: the request completes when all are decided (R284, R286). -/
def settleItems (s : State) (r : ReqId) : State :=
  match reqOf s r with
  | some q => (match q.job with
    | .items _ b img l => if l.all (fun i => i.status.isSome)
        then endItems s q l 0 0 (itemsHint s b img l)
        else dropItemKeys s l
    | _ => s)
  | none => s

def ingestGo (s : State) (h : MsgHead) (b : IngestBody) (insert : Bool) (c : Ctx) : State :=
  match ingestChecks s h b insert c.sess with
  | .error e => refuse s h c e
  | .ok (i, img, g) =>
    match ingestStrain s b insert i { img with info := planned s img.info } g with
    | some e => refuse s h c e
    | none =>
      let s := acceptReq s h c (if insert then opInsert else opIngest) (some g) (sessionTenant c.sess)
        (.items insert b img.serial (b.items.map (itemNew s c.sess i)))
      settleItems s ⟨h.func, h.rid⟩

def execIngest (h : MsgHead) (b : IngestBody) (s : State) : Result :=
  .next (message s h opIngest .opened false (fun s c => ingestGo s h b false c))
def execInsert (h : MsgHead) (b : IngestBody) (s : State) : Result :=
  .next (message s h opInsert .opened false (fun s c => ingestGo s h b true c))

/-! ### Reads of host memory (R366, R367, R384) -/

def itemsOf (q : Req) : List ItemState := match q.job with | .items _ _ _ l => l | _ => []
def putItems (s : State) (q : Req) (l : List ItemState) : State :=
  match q.job with | .items ins b p _ => settleItems (setJob s q (.items ins b p l)) q.id | _ => s

/-- An object entry for a verified object, and its ciphertext in staging tiles (R367). -/
def addObject (s : State) (q : Req) (o : ObjectEntry) : State :=
  let s := putFresh s o.tiles
  let x : ObjState := ⟨q.id, sessionKey s q.session, o.nonce, o.length, o.tiles.map (·.key), true⟩
  { s with keys := { s.keys with objects := AMap.put none s.keys.objects o.number (some x) } }

/-- The object data key of an item, unwrapped by the tenant KEK (R285): its handle is named in the event. -/
def addItemKey (s : State) (q : Req) (tenant : Nat) (handle : Nat) : State :=
  if handle = 0 || (AMap.get none s.keys.handles handle).isSome then s
  else
    let v : VKey := ⟨Config.freeKey s.freeCount, 0#256, .object, q.glade, some tenant, s.chip.step⟩
    drawn { s with keys := { s.keys with handles := AMap.put none s.keys.handles handle (some v) } }

/-- What the text of an item decides (R286, R335). -/
def readItem (insert : Bool) (i : ItemState) (end_ : ReadEnd) (text : List Byte) (keyOk : Bool) (fileType path : List Byte) (key : Nat) : ItemState :=
  if i.status.isSome || i.text.isSome then i
  else if end_ != .data || !keyOk || decide (32 < fileType.length) || decide (4095 < path.length) || decide (maxItem < text.length) || (insert && decide (65536 < text.length))
  then { i with status := some stInvalid }
  else { i with text := some (cutText text), fileType := fileType, path := path, truncated := decide (textLimit < text.length), key := key }

def readDone (s : State) (q : Req) (what : ReadFor) (end_ : ReadEnd) (text : List Byte) (keyOk : Bool) (fileType path : List Byte)
    (obj : Option ObjectEntry) : State :=
  let s := if [.error, .poisoned, .timeout].contains end_ then reportRead s q.id.func else s
  let s := if end_ = .data && q.id.func != sideFunc then
    chargeTokens s (setOfFunc q.id.func) .hostIn ((obj.map (·.length)).getD text.length) true else s
  let s1 := if end_ = .data then (match obj with | some o => addObject s q o | none => s) else s
  match what with
  | .object (some n) =>
    (match q.job with
     | .items ins b p l =>
       (match l[n]? with
        | some i =>
          let key := (obj.map (fun o => o.keyOf.toNat)).getD 0
          let i' := readItem ins i end_ text keyOk fileType path key
          let s2 := if i'.text.isSome && i.text.isNone then addItemKey s1 q i.entry.tenant.toNat key else s1
          settleItems (setJob s2 q (.items ins b p (l.set n i'))) q.id
        | none => s)
     | _ => s)
  | _ => match end_ with
    | .data => s1
    | .badTag => endRequest s q stInvalid 0 0
    | _ => endRequest s q stInvalid dtHostRead 0

def execHostMemoryReadCompletion (r : ReqId) (what : ReadFor) (end_ : ReadEnd) (text : List Byte) (keyOk : Bool) (fileType path : List Byte)
    (obj : Option ObjectEntry) (s : State) : Result :=
  .next (match reqOf s r with | some q => readDone s q what end_ text keyOk fileType path obj | none => s)

/-! ### ITEM_STAGED (R285 to R288) -/

/-- The distance of DTL2 before scaling (R156, R285). -/
def l2Acc (q cent : List W32) : W32 := (q.zip cent).foldl (fun acc p => let t := fpSub p.1 p.2; fpFma t t acc) 0#32

/-- The code of one subvector: the nearest centroid, the lower one on a tie; a NaN is never least. -/
def nearest (q : List W32) (cents : List (List W32)) : Nat :=
  (cents.zipIdx.foldl (fun (best : Option (W32 × Nat)) c =>
    let a := l2Acc q c.1
    if fpIsNan a then best
    else match best with
      | none => some (a, c.2)
      | some (b, _) => if fpLt a b then some (a, c.2) else best) none).elim 0 (·.2)

/-- The codes of a vector under a codebook. -/
def codesOf (b : LoadIndexBody) (book : List (List (List W32))) (v : List W32) : List Nat :=
  let n := b.dim / max 1 b.m
  book.zipIdx.map (fun c => nearest ((v.drop (n * c.2)).take n) c.1)

/-- The cosine factor g (R252, R285). -/
def cosFactor (rho : W32) (v : List W32) : Nat :=
  let norm := fpSqrt (foldSumSq v)
  if fpIsZero norm then 65535
  else (clampInt 1 65535 (fpToInt 32 (fpMul (fpDiv rho norm) (fpOfNat 32768)))).toNat

def vecFp (l : List Nat) : List W32 := l.map (fun w => BitVec.ofNat 32 (w * 65536))

/-- A staged Thicket record. -/
def stageRecord (i : Index) (x : ItemState) (pid : Nat) (v : List W32) : IRec :=
  let stored := v.map toBf16
  let p := vecFp stored
  ⟨pid, none, x.entry.tenant.toNat, x.entry.acl.toNat, x.entry.attrs.take i.body.attrs, codesOf i.body i.parts.flat p,
    if i.body.metric = 1#8 then cosFactor i.body.rho p else 0, stored, false⟩

/-- The tenant's passage key of an index, drawn at its first passage (R280). -/
def passageKey (s : State) (i : Index) (tenant : Nat) : State × Index :=
  if (AMap.get 0 i.keys tenant) != 0 then (s, i)
  else
    let (s, k) := drawKey s .passage (indexGlade s i) (some tenant)
    (s, { i with keys := AMap.put 0 i.keys tenant k })

def thicketLimit : Nat := 67108864
def recordLimit (b : LoadIndexBody) : Nat := if isFlash b then 40000000000 else 10000000000

/-- Records staged for an index and not applied. -/
def stagedCount (s : State) (h : Nat) : Nat := sumNat (((stagedItems s).filter (fun x => x.1.handle == h)).map (·.2))

/-- Sequence numbers of a shard: 44 bits, and shard 15 never issues the last (R279). -/
def seqLimit (b : LoadIndexBody) : Nat := if b.shardIndex = 15 then 2 ^ 44 - 1 else 2 ^ 44

/-- Space and limits for `n` passages more in `tiles` P-tiles (R278, R286, R308). -/
def itemFits (s : State) (i : Index) (n tiles : Nat) : Bool :=
  let recs := currentRecs i
  let staged := stagedCount s i.handle
  t2Fits s (itemT2 i.body n + passageT2 i.body tiles) && t3Fits s (itemT3 i.body n + passageT3 i.body tiles) && decide ((recs.filter inThicket).length + staged + n ≤ thicketLimit)
    && decide (recs.length + staged + n ≤ recordLimit i.body) && decide (i.seqNo + n ≤ seqLimit i.body)

/-- This and every later item that is not decided ends with ST_BUSY. -/
def busyFrom (l : List ItemState) (n : Nat) : List ItemState :=
  l.zipIdx.map (fun p => if decide (n ≤ p.2) && p.1.status.isNone && !p.1.accepted then { p.1 with status := some stBusy } else p.1)

/-- Items are placed in order: every earlier one has been staged or decided. -/
def earlierDone (l : List ItemState) (n : Nat) : Bool := (l.take n).all (fun x => x.status.isSome || x.staged.isSome)

/-- The open P-tile of an index is closed and written (R280). -/
def closeStore (s : State) (i : Index) : State × Index :=
  let p := closeTile (keyValue s) ⟨i.store, i.filling, s.freeCount⟩
  ({ s with freeCount := p.draws }, { i with store := p.tiles, filling := p.open_ })

/-- Stage an item (R285): its vectors, its passages in the store, its records; it is accepted for apply at once, or with its journal record on
a durable index (R287), and its acceptance closes the open P-tile. -/
def stageItem (s : State) (q : Req) (ins : Bool) (b : IngestBody) (img : Nat) (l : List ItemState) (n : Nat) (x : ItemState) (i : Index)
    (m : ImageMeta) (passages : List (List Nat)) : State :=
  let pid := nextPid i
  let recs := passages.zipIdx.map (fun v => stageRecord i x (pid + v.2) (embedVector m v.1))
  let now := !isDurable i.body
  let p := (itemPlacing s i m x passages).1
  let (s, i) := ({ s with freeCount := p.draws }, { i with seqNo := i.seqNo + recs.length, store := p.tiles, filling := p.open_ })
  let (s, i) := if now then closeStore s i else (s, i)
  let s := setJob (putIndex s i) q
    (.items ins b img (l.set n { x with staged := some recs, accepted := now, first := if recs.isEmpty then 0 else pid }))
  if now then addChange s (.item q.id n) else s

/-- An item whose turn it is: what it needs must fit; a passage record that leaves no room for text in a tile makes the item invalid (log 48). -/
def itemReady (s : State) (q : Req) (ins : Bool) (b : IngestBody) (img : Nat) (l : List ItemState) (n : Nat) (x : ItemState) (i : Index)
    (m : ImageMeta) (text : List Byte) : State :=
  let passages := passagesOf m b text
  let (s1, i1) := if passages.isEmpty then (s, i) else passageKey s i x.entry.tenant.toNat
  if !(itemFragments i1 m x passages).all recordFits then putItems s q (l.set n { x with status := some stInvalid })
  else if !itemFits s i passages.length (itemPlacing s1 i1 m x passages).2 then putItems s q (busyFrom l n)
  else stageItem s1 q ins b img l n x i1 m passages

/-- A unit of the committed plan that has not ended (R96). -/
def unitStands (s : State) (unit : Nat) : Bool := s.chip.units.any (fun u => u.desc.unitId == unit)

/-- The item's last passage is staged by the end of `unit`, the last that works for it; while that unit stands, nothing happens (log 12). -/
def execItemStaged (r : ReqId) (item unit : Nat) (s : State) : Result :=
  .next (if unitStands s unit then s else match reqOf s r with
    | some q => (match q.job with
      | .items ins b img l => (match l[item]?, heldIndex s b.handle, imageOf s img with
        | some x, some i, some m => (match x.text with
          | some text => if x.status.isSome || x.staged.isSome || !earlierDone l item then s else itemReady s q ins b img l item x i m.info text
          | none => s)
        | _, _, _ => s)
      | _ => s)
    | none => s)

/-- The journal record of an item or of a DELETE is programmed (R287, R289, R307). -/
def execJournalProgrammed (r : ReqId) (item : Nat) (s : State) : Result :=
  .next (match reqOf s r with
    | some q => (match q.job with
      | .items ins b img l => (match l[item]? with
        | some x =>
          if x.status.isNone && x.staged.isSome && !x.accepted then
            let s := match heldIndex s b.handle with
              | some i => let c := closeStore (pageOp s) i; putIndex c.1 c.2
              | none => s
            addChange (setJob s q (.items ins b img (l.set item { x with accepted := true }))) (.item r item)
          else s
        | none => s)
      | .delete b false => addChange (setJob s q (.delete b true)) (.request r)
      | _ => s)
    | none => s)

end Sys2Proof.Machine
end

