-- ==== Sys2Proof/Machine/Plan.lean ====
section
/-!
DEFINITION. What a step may run of the trunk: the steps of an iteration (R10), the depth of each text (R48), the experts that a step reads
(R58) and the rounds of its cold ones (R59).
-/
namespace Sys2Proof.Machine

/-! ### The steps of an iteration (R10) -/

/-- Does the next boundary begin an iteration? The step that ends is the last of its run. -/
def iterationEnds (s : State) : Bool := decide (s.sched.runOf ≤ s.sched.runAt + 1)

/-- The layers of step `at_` of a run of `of_` steps: contiguous ranges in order, as equal as may be (DESIGN CHOICE, log 18). -/
def layerRange (layers at_ of_ : Nat) : Nat × Nat := (at_ * layers / max 1 of_, (at_ + 1) * layers / max 1 of_)

/-- The run goes on, or a new one begins for the batch as it stands. -/
def nextStep (s : State) (begins : Bool) : State :=
  if begins then { s with sched := { s.sched with runAt := 0, runOf := iterationSteps s } }
  else { s with sched := { s.sched with runAt := s.sched.runAt + 1 } }

/-- The step's length by its plan: its part of the iteration's estimate, at most 20 ms (R8, R10). -/
def stepLength (s : State) (gap : Nat) : Nat := max gap (min 20000 (ceilDiv (batchTime s) (max 1 s.sched.runOf)))

/-! ### Texts in the trunk (R48) -/

/-- A text that runs through the trunk: its image, tokens, the positions that run now, and its exit's depth; `batch` when it runs with the
generation batch. -/
structure TrunkText where
  image : Nat
  toks  : List Nat
  first : Nat
  count : Nat
  depth : Nat
  batch : Bool
  deriving DecidableEq, Repr

/-- The texts of a retrieval or generation: its question until its search begins, its rerank pairs, its chunk or its last token. -/
def serveTexts (s : State) (v : Serve) : List TrunkText :=
  match imageOf s v.image with
  | none => []
  | some img =>
    let p := img.info.params
    let whole := fun (l : List Nat) (depth : Nat) => (⟨v.image, l, 0, l.length, depth, false⟩ : TrunkText)
    if v.seq = 2 then [⟨v.image, v.prompt, v.pos, v.chunks.headD 0, p.layers, true⟩]
    else if v.seq = 3 then [⟨v.image, v.prompt ++ v.gen, v.prompt.length + v.gen.length - 1, 1, p.layers, true⟩]
    else if v.kind = 1 || v.joinable || v.reranked then []
    else match v.question, heldIndex s v.handle with
      | some toks, some i =>
        if !v.searched then (if v.stage = 0 then [whole toks p.e] else [])
        else (match v.found with | some o => o.entries | none => []).filterMap (fun (e : Entry) =>
          (findPassage s (pinnedTiles i v) e.pid).map (fun (f : Fragment) => whole (pairTokens v.profile.pairLen toks (tokenize img.info.vocab f.text)) p.r))
      | _, _ => []

/-- The texts of a request; of items, the passages of those that have been read and are to be staged. -/
def requestTexts (s : State) (q : Req) : List TrunkText :=
  match q.job with
  | .serve v => serveTexts s v
  | .items _ b n l =>
    (match imageOf s n with
     | some img => (l.filter (fun x => x.status.isNone && x.staged.isNone)).flatMap (fun x =>
         (passagesOf img.info b (x.text.getD [])).map (fun t => ⟨n, t, 0, t.length, img.info.params.e, false⟩))
     | none => [])
  | _ => []

def stepTexts (s : State) : List TrunkText := s.reqs.flatMap (requestTexts s)

/-- The texts that a unit serves: its owner's, or those of the batch sequences that are its members. -/
def unitTexts (s : State) (d : UnitDesc) : List TrunkText :=
  (d.owner.toList ++ d.members).flatMap (fun r => match reqOf s r with | some q => requestTexts s q | none => [])

/-! ### Experts (R58, R59) -/

/-- The experts that a text's running positions select in a layer. -/
def textExperts (s : State) (t : TrunkText) (layer : Nat) : List Nat :=
  match imageOf s t.image with
  | some img =>
    if decide (layer < t.depth) && (moeLayers img.info.params).contains layer
    then (((expertsAt img.info t.toks layer).drop t.first).take t.count).flatMap id else []
  | none => []

/-- May a text be in this layer in this step? A batch text keeps to the step's range; its head, layer L, runs in the last step. -/
def layerOpen (s : State) (t : TrunkText) (layer : Nat) : Bool :=
  let r := layerRange t.depth s.sched.runAt s.sched.runOf
  if t.batch then
    (decide (r.1 ≤ layer) && decide (layer < r.2)) || (layer == t.depth && iterationEnds s)
  else decide (layer < t.depth)

/-- R10, R48, R58: a unit that works in a layer serves a text that may be there, and reads no expert that none of its texts selects. -/
def workOk (s : State) (d : UnitDesc) (w : UnitWork) : Bool :=
  let l := (unitTexts s d).filter (fun t => layerOpen s t w.layer)
  !l.isEmpty && w.experts.all (fun e => l.any (fun t => (textExperts s t w.layer).contains e))

/-- The step's cold experts of an image and a layer, each once, in rounds of the staging slots. -/
def layerRounds (s : State) (image layer : Nat) : List StageRound :=
  match imageOf s image with
  | none => []
  | some img =>
    let texts := (stepTexts s).filter (fun t => t.image == image && layerOpen s t layer)
    let chosen := (coldExperts img.info layer).filter (fun e => texts.any (fun t => (textExperts s t layer).contains e))
    (chunksOf (max 1 img.info.params.coldSlots) chosen).map (fun l => ⟨image, layer, l⟩)

/-- R59: the rounds of the step. Those of the step before are gone: no staged expert carries over. -/
def stepRounds (s : State) : List StageRound :=
  (imgList s).flatMap (fun i => (moeLayers i.info.params).flatMap (layerRounds s i.serial))

end Sys2Proof.Machine
end

