-- ==== Sys2Proof/Machine/Segments.lean ====
section
/-!
DEFINITION. The bytes that a version state stands for (R250 to R252, R257, R290): segments, envelopes, tombstone blocks, list directory
entries and table-set headers; and the passage store that a merge builds (R296).
-/
namespace Sys2Proof.Machine

/-! ### Segments (R252) -/

def listRecs (l : List IRec) (place : Option Nat) : List IRec := l.filter (fun r => r.place == place)

/-- The list word of a place. -/
def listWordOf (place : Option Nat) : Nat := place.getD 0x7FFFFF

/-- A column padded to a multiple of 16 bytes. -/
def column (size : Nat) (l : List Byte) : List Byte := padTo (roundUp size 16) l

/-- The bytes of a record's codes. -/
def recordCodes (b : LoadIndexBody) (codes : List Nat) : List Byte :=
  if b.codeForm = 0#8 then codes.map (BitVec.ofNat 8)
  else (chunksOf 2 codes).map (fun c => BitVec.ofNat 8 (c.headD 0 % 16 + 16 * (c.getD 1 0 % 16)))

/-- The payload of segment `ord` of a place, of at most n_max records. -/
def segmentBytes (b : LoadIndexBody) (place : Option Nat) (ord : Nat) (l : List IRec) : List Byte :=
  let n := nMaxOf b
  let codes := if b.codeForm = 0#8 then b.m else b.m / 2
  padTo 64 (leBytes 2 l.length ++ leBytes 2 0 ++ leBytes 4 (listWordOf place) ++ leBytes 4 ord)
    ++ column (8 * n) (l.flatMap (fun r => leBytes 8 (r.pid + r.tenant * 2 ^ 48)))
    ++ column (2 * n) (l.flatMap (fun r => leBytes 2 r.acl))
    ++ column (4 * b.attrs * n) ((List.range b.attrs).flatMap (fun a => padTo (4 * n) (l.flatMap (fun r => leBytes 4 (r.attrs.getD a 0#32).toNat))))
    ++ (if b.metric = 1#8 then column (2 * n) (l.flatMap (fun r => leBytes 2 r.g)) else [])
    ++ column (codes * n) (l.flatMap (fun r => recordCodes b r.codes))

/-- The segments of a place's records, n_max to a segment. -/
def segmentRuns (b : LoadIndexBody) (l : List IRec) : List (List IRec) := chunksOf (max 1 (nMaxOf b)) l

/-- The 32-byte tombstone block of a segment: bit j of record j. -/
def tombBlockBytes (l : List IRec) : List Byte :=
  leBytes 32 ((l.zipIdx.map (fun r => if r.1.tomb then 2 ^ r.2 else 0)).foldl (· + ·) 0)

/-! ### Envelopes and the list directory (R250, R251) -/

/-- R251: one bitmap of C bits for each subquantizer. -/
def envelopeBytes (b : LoadIndexBody) (l : List IRec) : List Byte :=
  let c := if b.codeForm = 0#8 then 256 else 16
  (List.range b.m).flatMap (fun m =>
    leBytes (c / 8) (((List.range c).map (fun j => if l.any (fun r => r.codes.getD m 0 == j) then 2 ^ j else 0)).foldl (· + ·) 0))

/-- The version that wrote a list's segments: its own, unless a merge has kept them (R253, R296). -/
def wroteOf (v : IdxVer) (list : Nat) : Nat := ((v.wrote.find? (fun w => w.1 == list)).map (·.2)).getD v.num

/-- A list's segments lie in consecutive tiles of their tier (R250): the address of segment `ord`. -/
def segmentAddress (i : Index) (v : IdxVer) (list ord : Nat) : Nat := Config.segmentBase i.handle (wroteOf v list) list + tileBytes * ord

/-- g_min and g_max: 0 for a metric other than cosine. -/
def gRange (b : LoadIndexBody) (l : List IRec) : Nat × Nat :=
  match b.metric == 1#8, l.map (·.g) with
  | true, g :: r => (r.foldl min g, r.foldl max g)
  | _, _ => (0, 0)

/-- R250: the entry of a list in a state; an empty list has 0 segments and no envelope. -/
def directoryEntry (i : Index) (v : IdxVer) (st : VState) (list : Nat) : List Byte :=
  let l := listRecs st.recs (some list)
  let g := gRange i.body l
  leBytes 8 (if l.isEmpty then 0 else segmentAddress i v list 0) ++ leBytes 4 (segmentRuns i.body l).length ++ leBytes 4 l.length
    ++ leBytes 4 (Config.tombBlock i.handle v.num list (l.map (·.tomb))) ++ leBytes 2 g.1 ++ leBytes 2 g.2
    ++ leBytes 8 (if l.isEmpty then 0 else Config.envelopeAt i.handle (wroteOf v list) list)

/-- R290: directory tile `n` of a state holds 512 entries. -/
def directoryTile (i : Index) (v : IdxVer) (st : VState) (n : Nat) : List Byte :=
  ((List.range 512).filter (fun k => decide (n * 512 + k < i.body.nReg * i.body.lam))).flatMap (fun k => directoryEntry i v st (n * 512 + k))

/-- R257: the table-set header of a place, with bias `bias` and tables in a slot at an offset. -/
def tableSetHeader (i : Index) (v : IdxVer) (st : VState) (place : Option Nat) (bias : Int) (slot offset : Nat) : List Byte :=
  let e := match place with | some l => directoryEntry i v st l | none => []
  padTo 64 (leBytes 4 (intBits 32 bias) ++ leBytes 4 (listWordOf place) ++ padTo 8 (e.drop 24) ++ padTo 4 ((e.drop 20).take 4)
    ++ leBytes 1 slot ++ leBytes 1 0 ++ leBytes 2 offset)

/-! ### The passage store of a merge (R296) -/

/-- Whether a P-tile begins with the rest of a passage of the tile before. -/
def startsContinued (s : State) (t : PTile) : Bool :=
  t.count == 0 || (((tilePayload s t).map fragmentsOf).getD []).head?.any (·.prev)

/-- Tiles joined by a continued passage, which stay together (log 48). -/
def tileGroups (s : State) (l : List PTile) : List (List PTile) :=
  l.foldr (fun t acc => match acc with
    | g :: r => (match g with | x :: _ => if startsContinued s x then (t :: g) :: r else [t] :: g :: r | [] => [t] :: r)
    | [] => [[t]]) []

/-- IDs of the passages that start in a tile, where they are live. -/
def startsIn (live : Nat → Bool) (t : PTile) : List Nat := ((List.range t.count).map (· + t.first)).filter live

/-- `n` of `d` is below a fraction. -/
def belowFrac (frac : W32) (n d : Nat) : Bool := numLt (numOfInt n) (numMul (numOfFp32 frac) (numOfInt d))

/-- One group of the store: dropped with no live passage, its live passages placed again when few are live or the residency changes, else
kept. -/
def mergeGroup (s : State) (store : List PTile) (frac : W32) (moved : Bool) (live : Nat → Bool) (p : Placing) (g : List PTile) : Placing :=
  let ids := g.flatMap (startsIn live)
  let total := (g.map (·.count)).foldl (· + ·) 0
  if ids.isEmpty then p
  else if moved || belowFrac frac ids.length total then
    (ids.filterMap (findPassage s store)).foldl (placePassage (keyValue s) ((g.head?.map (·.key)).getD 0)) p
  else
    let p := closeTile (keyValue s) p
    { p with tiles := p.tiles ++ g }

/-- R296 item 5: the P-tiles of the merged version, in ascending ID. -/
def mergeStore (s : State) (store : List PTile) (frac : W32) (moved : Bool) (live : Nat → Bool) : Placing :=
  closeTile (keyValue s) ((tileGroups s store).foldl (mergeGroup s store frac moved live) ⟨[], none, s.freeCount⟩)

end Sys2Proof.Machine
end

