-- ==== Sys2Proof/Machine/Lifecycle.lean ====
section
/-!
DEFINITION. The life of an index: items applied (R286 to R288, R290), DELETE (R289, R404, R405), MERGE (R295 to R299, R306, R406),
INDEX_DROP, INDEX_RETAIN and INDEX_MERGE_POLICY (R278, R294, R299, R411), and the freeing of states, versions and keys (R291, R294,
R380, R381).
-/
namespace Sys2Proof.Machine

/-! ### Version states (R290, R291) -/

/-- Number of a version's latest state when the boundary began; none for a version made at it. -/
def stateBefore (s0 : State) (h v : Nat) : Option Nat := (heldIndex s0 h).bind (fun i => (versionOf i v).map (fun x => (latestState x).num))

/-- The version with changed records: one new state a boundary. -/
def pushState (s0 : State) (h : Nat) (v : IdxVer) (recs : List IRec) : IdxVer :=
  let l := latestState v
  if stateBefore s0 h v.num = some l.num then { v with states := v.states ++ [⟨l.num + 1, recs⟩] }
  else { v with states := v.states.dropLast ++ [⟨l.num, recs⟩] }

def putVersion (i : Index) (v : IdxVer) : Index := { i with versions := i.versions.map (fun x => if x.num == v.num then v else x) }

/-- A running merge replays what is applied after its snapshot (R297), and a durable index's journal keeps it (R307). -/
def noteChange (i : Index) (l : List Replay) : Index :=
  { i with
    merge := i.merge.map (fun m => if m.snap.isSome then { m with log := m.log ++ l } else m)
    journal := if isDurable i.body then i.journal ++ l else i.journal }

/-! ### Items -/

/-- The records of an item enter the Thicket of the current version, in apply order. -/
def insertRecords (s0 : State) (i : Index) (recs : List IRec) : Index :=
  if recs.isEmpty then i
  else match versionOf i i.current with
    | none => i
    | some v => noteChange (putVersion i (pushState s0 i.handle v ((latestState v).recs ++ recs))) (recs.map .insert)

/-- An item at its boundary; `false` when an earlier item is still to be decided (R287). -/
def applyItem (s0 s : State) (r : ReqId) (n : Nat) : State × Bool :=
  match reqOf s r with
  | none => (s, true)
  | some q => match q.job with
    | .items ins b img l => (match l[n]?, heldIndex s b.handle with
      | some x, some i =>
        if x.status.isSome || !x.accepted then (s, true)
        else if (l.take n).any (fun y => y.status.isNone) then (s, false)
        else
          let st := if x.truncated then stTruncated else stOk
          let s := putIndex s (insertRecords s0 i (x.staged.getD []))
          (settleItems (setJob s q (.items ins b img (l.set n { x with status := some st }))) r, true)
      | _, _ => (s, true))
    | _ => (s, true)

/-! ### DELETE -/

/-- Owner, operator with the DELETE right in the index's Glade, tenant with the DELETE right and a grant (R372). -/
def deleteRight (s : State) (x : Session) (i : Index) : Bool :=
  isOwner x || (operRight s x 3 && operHasGlade s x (indexGlade s i)) || (tenRight s x 3 && granted s x i.handle)

def rangesOk (l : List (Nat × Nat)) : Bool :=
  decide (1 ≤ l.length) && decide (l.length ≤ 4096) && l.all (fun r => decide (r.1 ≤ r.2) && decide (r.2 < 2 ^ 48))

/-- IDs of a range that a shard holds: bits [47:44] name it (R279). -/
def onShard (shard : Nat) (r : Nat × Nat) : Nat := min (r.2 + 1) ((shard + 1) * 2 ^ 44) - max r.1 (shard * 2 ^ 44)

/-- Other members that hold IDs of the ranges. -/
def farShards (i : Index) (l : List (Nat × Nat)) : List Nat :=
  (List.range i.body.shardCount).filter (fun m => m != i.body.shardIndex && l.any (fun r => onShard m r != 0))

/-- The ranges go to the holder that their IDs name (R305). -/
def passRanges (s : State) (m : Nat) (r : ReqId) (b : DeleteBody) (tenant : Option Nat) : State :=
  sendTo s m (leBytes 1 7 ++ leBytes 1 r.func.toNat ++ leBytes 8 r.rid.toNat ++ leBytes 4 b.handle ++ leBytes 4 (tenant.getD (2 ^ 32 - 1))
    ++ (b.ranges.filter (fun x => onShard m x != 0)).flatMap (fun x => leBytes 8 x.1 ++ leBytes 8 x.2))

def deleteGo (s : State) (h : MsgHead) (b : DeleteBody) (c : Ctx) : State :=
  match loadedIndex s b.handle with
  | none => refuse s h c (endWith stInvalid)
  | some i =>
    if !formOk h false || !rangesOk b.ranges || decide (b.reportLen < 16 * b.ranges.length) then refuse s h c (endWith stInvalid)
    else if !deleteRight s c.sess i then refuse s h c (endWith stDenied)
    else if i.lost then refuse s h c (failAt stFault dtPoisoned)
    else
      let s := acceptReq s h c opDelete (indexGlade s i) (sessionTenant c.sess) (.delete b (!isDurable i.body))
      let s := (farShards i b.ranges).foldl (fun s m => passRanges s m ⟨h.func, h.rid⟩ b (sessionTenant c.sess)) s
      if isDurable i.body then s else addChange s (.request ⟨h.func, h.rid⟩)

def execDelete (h : MsgHead) (b : DeleteBody) (s : State) : Result := .next (message s h opDelete .opened false (fun s c => deleteGo s h b c))

def inRange (r : Nat × Nat) (x : IRec) : Bool := decide (r.1 ≤ x.pid) && decide (x.pid ≤ r.2)

/-- May the request touch the record? A tenant's touches its own only. -/
def mayTouch (tenant : Option Nat) (x : IRec) : Bool := match tenant with | some t => x.tenant == t | none => true

/-- Records marked, and the counts of one range: deleted now, deleted before, found in no record. -/
def deleteRange (tenant : Option Nat) (shard : Nat) (r : Nat × Nat) (l : List IRec) : List IRec × (Nat × Nat × Nat) :=
  let hit := l.filter (fun x => inRange r x && mayTouch tenant x)
  let now := (hit.filter (fun x => !x.tomb)).length
  (l.map (fun x => if inRange r x && mayTouch tenant x then { x with tomb := true } else x),
    (now, hit.length - now, onShard shard r - hit.length))

def deleteRanges (tenant : Option Nat) (shard : Nat) : List (Nat × Nat) → List IRec → List IRec × List (Nat × Nat × Nat)
  | [], l => (l, [])
  | r :: rs, l =>
    let (l1, n) := deleteRange tenant shard r l
    let (l2, ns) := deleteRanges tenant shard rs l1
    (l2, n :: ns)

/-- What the holders of other shards count for one range (R305): values the model leaves free, within the IDs they hold (log 22). -/
def farCounts (s : State) (i : Index) (r : Nat × Nat) : Nat × Nat × Nat :=
  let n := sumNat ((farShards i [r]).map (fun m => onShard m r))
  let a := (Config.freeWord s.freeCount).toNat % (n + 1)
  let b := (Config.freeWord (s.freeCount + 1)).toNat % (n + 1 - a)
  (a, b, n - a - b)

/-- Tombstone bits of a place's records, segment by segment. -/
def tombsAt (l : List IRec) (p : Option Nat) : List Bool := (l.filter (fun x => x.place == p)).map (·.tomb)

def placesOf (l : List IRec) : List (Option Nat) := (l.map (·.place)).eraseDups

/-- Tombstone blocks that the held states of a version use: states share the blocks of a list that no delete has touched between them. -/
def poolUsed (b : LoadIndexBody) (v : IdxVer) : Nat :=
  sumNat ((placesOf (latestState v).recs).map (fun p =>
    let l := (v.states.map (fun st => tombsAt st.recs p)).filter (fun t => !t.isEmpty)
    sumNat ((l.eraseDups).map (fun t => segmentsOf b t.length))))

/-- R290: the pool has two blocks a segment; a DELETE needs fresh blocks for every list it touches. -/
def poolFits (b : LoadIndexBody) (v : IdxVer) (next : List IRec) : Bool :=
  let cur := (latestState v).recs
  let segs := fun p => segmentsOf b (tombsAt cur p).length
  let touched := (placesOf cur).filter (fun p => tombsAt cur p != tombsAt next p)
  decide (poolUsed b v + sumNat (touched.map segs) ≤ 2 * sumNat ((placesOf cur).map segs))

/-- The ranges over every held version; `none` when a pool lacks blocks. -/
def deleteAll (s0 : State) (i : Index) (tenant : Option Nat) (l : List (Nat × Nat)) : Option Index :=
  let go := fun (v : IdxVer) => (v, (deleteRanges tenant i.body.shardIndex l (latestState v).recs).1)
  let vs := i.versions.map go
  if vs.all (fun p => p.2 == (latestState p.1).recs || poolFits i.body p.1 p.2) then
    some { i with versions := vs.map (fun p => if p.2 = (latestState p.1).recs then p.1 else pushState s0 i.handle p.1 p.2) }
  else none

/-- Records a DELETE marks in the current version. -/
def newTombs (tenant : Option Nat) (l : List (Nat × Nat)) (recs : List IRec) : List Replay :=
  (recs.filter (fun x => !x.tomb && mayTouch tenant x && l.any (fun r => inRange r x))).map (fun x => .tomb x.pid)

/-- A DELETE at its boundary (R289); `false` while its set or the pool makes it wait. -/
def applyDelete (s0 s : State) (q : Req) (b : DeleteBody) : State × Bool :=
  match heldIndex s b.handle with
  | none => (completeReq s q (endWith stInvalid), true)
  | some i =>
    let far := farShards i b.ranges
    if far.any (fun m => !s.grove.accepts.contains (m, q.id)) then (s, false)
    else match deleteAll s0 i q.tenant b.ranges with
      | none => (s, false)
      | some j =>
        let cur := currentRecs i
        let own := (deleteRanges q.tenant i.body.shardIndex b.ranges cur).2
        let all := (b.ranges.zip own).map (fun p =>
          let f := farCounts s i p.1
          (p.2.1 + f.1, p.2.2.1 + f.2.1, p.2.2.2 + f.2.2))
        let report := all.flatMap (fun c => leBytes 4 c.1 ++ leBytes 4 c.2.1 ++ leBytes 8 c.2.2)
        let s1 := putIndex (if far.isEmpty then s else drawn (drawn s)) (noteChange j (newTombs q.tenant b.ranges cur))
        (completeReq (putOutput s1 q.id report) q ⟨stOk, 0, fgReport,
          [(0, 8, s.chip.step), (8, 8, sumNat (all.map (·.1))), (16, 8, sumNat (all.map (·.2.1))), (24, 8, sumNat (all.map (·.2.2)))]⟩, true)

/-- A peer's DELETE at its boundary (R305, R306): its ranges over every version held here; `false` while the pool makes it wait. -/
def applyFarDelete (s0 s : State) (handle : Nat) (tenant : Option Nat) (ranges : List (Nat × Nat)) : State × Bool :=
  match heldIndex s handle with
  | none => (s, true)
  | some i => match deleteAll s0 i tenant ranges with
    | none => (s, false)
    | some j => (putIndex s (noteChange j (newTombs tenant ranges (currentRecs i))), true)

/-! ### MERGE -/

/-- A fraction, with its default for 0. -/
def fracOr (w d : W32) : W32 := if w = 0#32 then d else w
def eighth : W32 := 0x3E000000#32
def half : W32 := 0x3F000000#32

/-- `n` of `d` is above a fraction. -/
def above (frac : W32) (n d : Nat) : Bool := numLt (numMul (numOfFp32 frac) (numOfInt d)) (numOfInt n)

def fracOk (w : W32) : Bool := !fpIsNan w && !fpLt w 0#32 && !fpLt fp32One w

/-- The residency a merge builds: 0 unchanged, 1 sharded, 2 flash. -/
def targetFlash (b : LoadIndexBody) (target : Nat) : Bool := target == 2 || (target == 0 && isFlash b)

/-- Upper bounds in T2 and T3: the lists it may rewrite, its P-tile rewrites, its passage map (R308). -/
def mergeClaim (i : Index) (target : Nat) : Nat × Nat :=
  let l := currentRecs i
  let th := (l.filter inThicket).length
  let lists := tileBytes * (listTiles i.body l + segmentsOf i.body th + min th (i.body.nReg * i.body.lam))
  let log := if target = 0 then 0 else 2 * i.body.dim * th
  let thicket := tileBytes * thicketTiles i.body l
  let n := passageTiles i
  let map := 16 * n
  if targetFlash i.body target then (thicket + map, lists + log + tileBytes * n) else (thicket + map + lists + log + tileBytes * n, 0)

/-- Owner, or operator with the INDEX right in the index's Glade (R372). -/
def indexRight (s : State) (x : Session) (i : Index) : Bool := isOwner x || (operRight s x 0 && operHasGlade s x (indexGlade s i))

/-- The Glade of the index is denied a resource the merge needs (R425). -/
def mergeDenied (s : State) (i : Index) (target : Nat) : Bool :=
  match (indexGlade s i).bind (gladeOf s) with
  | some g => denies (costedSettings g) (isFlash i.body || target == 2)
  | none => false

def mergeFormOk (s : State) (h : MsgHead) (b : MergeBody) : Bool :=
  formOk h false && decide (b.target.toNat ≤ 2) && decide (b.flags.toNat ≤ 1) && fracOk b.tombFrac && fracOk b.liveFrac
    && (b.target != 2#8 || (s.flash && !inSet s))

/-- Check 3's hint: to the earliest budgeted end at which a version that is neither current nor retained has no request left (log 18). -/
def mergeHint (s : State) (i : Index) : Nat :=
  let ends := (i.versions.filter (fun v => v.num != i.current && !v.retained)).map (fun v =>
    pinsEnd s (fun x => x.handle == i.handle && x.version == v.num))
  hintRange s (match ends with | [] => 0 | x :: r => r.foldl min x)

/-- R295, in order. -/
def mergeCheck (s : State) (h : MsgHead) (b : MergeBody) (x : Session) : Option Ending :=
  match loadedIndex s b.handle with
  | none => some (failAt stInvalid 1)
  | some i =>
    let t := b.target.toNat
    let claim := mergeClaim i t
    if !mergeFormOk s h b then some (failAt stInvalid 1)
    else if !indexRight s x i then some (failAt stDenied 2)
    else if i.lost then some (failAt stFault dtPoisoned)
    else if i.merge.isSome || decide (3 ≤ i.versions.length) then some (busyAt 3 (mergeHint s i))
    else if !coresReady s || ((isFlash i.body || isDurable i.body || t == 2) && !readyBit s bT3) || (i.body.shardCount != 1 && !(inSet s && setAllReady s))
    then some (failAt stNotReady 4)
    else if !t2Fits s claim.1 || !t3Fits s claim.2 || mergeDenied s i t then some (failAt stInvalid 5)
    else none

def newMerge (i : Index) (req : Option ReqId) (target : Nat) (snapshot : Bool) (tomb live : W32) : Merge :=
  let claim := mergeClaim i target
  ⟨req, target, snapshot, fracOr tomb eighth, fracOr live half, claim.1, claim.2, none, [], false, [], [], 0, 0, 0⟩

def mergeGo (s : State) (h : MsgHead) (b : MergeBody) (c : Ctx) : State :=
  match mergeCheck s h b c.sess, loadedIndex s b.handle with
  | some e, _ => refuse s h c e
  | none, none => refuse s h c (failAt stInvalid 1)
  | none, some i =>
    let r : ReqId := ⟨h.func, h.rid⟩
    let s := putIndex s { i with merge := some (newMerge i (some r) b.target.toNat (bitOf b.flags 0) b.tombFrac b.liveFrac) }
    addChange (acceptReq s h c opMerge (indexGlade s i) none (.merge b.handle)) (.snapshot b.handle)

def execMerge (h : MsgHead) (b : MergeBody) (s : State) : Result := .next (message s h opMerge .opened false (fun s c => mergeGo s h b c))

/-- The snapshot (R296). -/
def applySnapshot (s : State) (h : Nat) : State :=
  match heldIndex s h with
  | some i => putIndex s { i with merge := i.merge.map (fun m => { m with snap := some (currentRecs i) }) }
  | none => s

/-- A Thicket record assigned to a list: its residual codes (R296, steps 1 and 2). -/
def assignRecord (i : Index) (l : Nat) (x : IRec) : IRec :=
  let y := List.zipWith fpSub (vecFp x.vec) (listCentroid i l)
  let y := if i.body.residual16 then vecFp (y.map toBf16) else y
  { x with place := some l, codes := codesOf i.body i.parts.residual y, vec := [] }

/-- Insert by ascending passage ID. -/
def insertPid (x : IRec) : List IRec → List IRec
  | [] => [x]
  | y :: r => if x.pid ≤ y.pid then x :: y :: r else y :: insertPid x r

/-- One list of version v + 1: rewritten when it gains records, is tombstoned above the threshold, or changes residency (R296, steps 3
and 4). -/
def mergeList (frac : W32) (moved : Bool) (old gained : List IRec) : List IRec × Bool :=
  if !gained.isEmpty || above frac (old.filter (·.tomb)).length old.length || (moved && !old.isEmpty) then
    (old.filter (fun x => !x.tomb) ++ gained.foldr insertPid [], true)
  else (old, false)

/-- The merge changes the residency. -/
def mergeMoves (i : Index) (m : Merge) : Bool := m.target != 0 && targetFlash i.body m.target != isFlash i.body

/-- The records of version v + 1, the lists rewritten, and the records moved: a function of the snapshot and the settings (R296). -/
def buildMerge (i : Index) (m : Merge) (snap : List IRec) : List IRec × List Nat × Nat :=
  let moved := mergeMoves i m
  let live := snap.filter (fun x => inThicket x && !x.tomb)
  let place := fun (x : IRec) => assignedList i (vecFp x.vec)
  let gained := live.filterMap (fun x => (place x).map (fun l => assignRecord i l x))
  let left := live.filter (fun x => (place x).isNone)
  let lists := sortNat ((snap ++ gained).filterMap (·.place)).eraseDups
  let built := lists.map (fun l => mergeList m.tombFrac moved (snap.filter (fun x => x.place == some l)) (gained.filter (fun x => x.place == some l)))
  (built.flatMap (·.1) ++ left, ((lists.zip built).filter (fun x => x.2.2)).map (·.1), gained.length)

/-- The name under which members tell each other of a merge of an index (log 20). -/
def mergeName (h : Nat) : ReqId := ⟨0xFE#8, BitVec.ofNat 64 h⟩

/-- Version v + 1 is committed, made at `made`, once the last unit of the merge has ended and the replay has reached v's latest state: it has
gone over every change since the snapshot (R297; log 12). -/
def execMergeCommit (handle unit replayed : Nat) (made : Int) (s : State) : Result :=
  .next (match heldIndex s handle with
    | some i => (match i.merge with
      | some m => (match m.snap with
        | some snap =>
          if m.committed || unitStands s unit || replayed != m.log.length then s
          else
            let (l, fresh, moved) := buildMerge i m snap
            let m := { m with committed := true, built := l, fresh := fresh, lists := fresh.length, moved := moved, made := made }
            let s := putIndex s { i with merge := some m }
            addChange (if i.body.shardCount = 1 then s else tellPeers s 8 (mergeName handle)) (.swap handle)
        | none => s)
      | none => s)
    | none => s)

def peersMerged (s : State) (i : Index) : Bool :=
  i.body.shardCount == 1 || (peersOf s).all (fun m => s.grove.accepts.contains (m, mergeName i.handle))

/-- IDs of the passages staged for an index whose items are still to be applied. -/
def pendingPids (s : State) (h : Nat) : List Nat :=
  s.reqs.flatMap (fun q => match q.job with
    | .items _ b _ l => if b.handle = h then (l.filter (fun x => x.status.isNone)).flatMap (fun x => (x.staged.getD []).map (·.pid)) else []
    | _ => [])

/-- A passage that a merge keeps: no tombstone in the snapshot, and a record in version v + 1 or still to be applied. -/
def livePassage (m : Merge) (recs : List IRec) (pending : List Nat) (pid : Nat) : Bool :=
  !(m.snap.getD []).any (fun r => r.pid == pid && r.tomb) && (recs.any (fun r => r.pid == pid) || pending.contains pid)

/-- R297: tiles that v's latest state holds and v + 1 does not, and tiles written for v + 1: the segments of the lists rewritten, the Thicket
segments, and P-tiles. -/
def mergeCounts (i : Index) (m : Merge) (store : List PTile) : Nat × Nat :=
  let segs := fun (l : List IRec) => sumNat (m.fresh.map (fun n => segmentsOf i.body (listCount l n))) + thicketTiles i.body l
  (segs (currentRecs i) + (i.store.filter (fun t => !store.contains t)).length, segs m.built + (store.filter (fun t => !i.store.contains t)).length)

/-- The index after the swap (R297): v keeps its passage map, v + 1 has that of step 5 of R296. -/
def swapIndex (s : State) (i : Index) (m : Merge) : Placing × Index :=
  let n := i.current + 1
  let recs := m.log.foldl replayOne m.built
  let p := mergeStore s i.store m.liveFrac (mergeMoves i m) (livePassage m recs (pendingPids s i.handle))
  let body := { i.body with residency := if targetFlash i.body m.target then 1#8 else 0#8 }
  let wrote := match versionOf i i.current with
    | some v => ((recs.filterMap (·.place)).eraseDups).map (fun l => (l, if m.fresh.contains l then n else wroteOf v l))
    | none => []
  let old := i.versions.map (fun v => if v.num == i.current then { v with retained := i.retain != 0, tiles := some i.store } else v)
  (p, snapshotOf s.flash m.snapshot { i with
    body := body, versions := old ++ [⟨n, [⟨0, recs⟩], false, m.made, wrote, none⟩], store := p.tiles, current := n
    merge := none, retain := 0 })

/-- The swap (R297, R306, R307); `false` while a holder of the set has not committed. -/
def applySwap (s : State) (h : Nat) : State × Bool :=
  match heldIndex s h with
  | none => (s, true)
  | some i => match i.merge with
    | none => (s, true)
    | some m =>
      if !m.committed then (s, true)
      else if !peersMerged s i then (s, false)
      else
        let (p, j) := swapIndex s i m
        let count := mergeCounts i m j.store
        let s := putIndex { s with freeCount := p.draws } j
        let s := { s with grove := { s.grove with accepts := s.grove.accepts.filter (fun a => a.2 != mergeName h) } }
        (match m.req.bind (reqOf s) with
         | some q => completeReq s q ⟨stOk, 0, 0, [(0, 4, j.current), (4, 4, m.lists), (8, 8, m.moved), (16, 8, count.1), (24, 8, count.2)]⟩
         | none => logAdd s { logNone with code := 1, glade := (indexGlade s i).getD 0xFF, detail := BitVec.ofNat 128 h }, true)

/-- R306: 86,400 s after the first acceptance. -/
def execMergeSetTimeout (handle : Nat) (s : State) : Result :=
  .next (match heldIndex s handle with
    | some i => (match i.merge with
      | some m =>
        if i.body.shardCount = 1 then s
        else match m.req.bind (reqOf s) with
          | some q => endRequest s q stInvalid 0 (if m.committed then fgPeer else 0)
          | none => dropMerge s handle
      | none => s)
    | none => s)

/-- Reclaimable records (R299). -/
def reclaimable (l : List IRec) : Nat :=
  let lists := (l.filterMap (·.place)).eraseDups
  (l.filter (fun x => x.tomb && inThicket x)).length
    + sumNat (lists.map (fun n =>
        let r := l.filter (fun x => x.place == some n)
        let t := (r.filter (·.tomb)).length
        if above eighth t r.length then t else 0))

/-- A merge of Wenik's own starts (R299). -/
def autoDue (s : State) (i : Index) : Bool :=
  let l := currentRecs i
  let claim := mergeClaim i 0
  i.merge.isNone && !i.dropped && !i.lost && i.current != 0 && decide (i.versions.length < 3) && i.threshold != 0
    && (decide (i.threshold ≤ (l.filter inThicket).length) || (!l.isEmpty && decide (l.length ≤ 10 * reclaimable l)))
    && !mergeDenied s i 0 && t2Fits s claim.1 && t3Fits s claim.2

def autoMerges (s : State) : State :=
  s.idx.loaded.foldl (fun s i => match heldIndex s i.handle with
    | some i => if autoDue s i then
        addChange (putIndex s { i with merge := some (newMerge i none 0 false 0#32 0#32) }) (.snapshot i.handle) else s
    | none => s) s

/-! ### INDEX_DROP, INDEX_RETAIN, INDEX_MERGE_POLICY -/

def execIndexDrop (h : MsgHead) (handle : Nat) (s : State) : Result :=
  .next (ownerConfig s h (.indexDrop h handle) false false (fun s => (loadedIndex s handle).isSome))

/-- A subfunction of the owner or of an operator with the INDEX right (R372). -/
def indexConfig (s : State) (h : MsgHead) (handle : Nat) (i : Instr) (valid : Bool) : State :=
  message s h opConfig .opened false (fun s c =>
    let role := match loadedIndex s handle with | some x => indexRight s c.sess x | none => isOwner c.sess || operRight s c.sess 0
    configGo s h c i (formOk h false) role (valid && (loadedIndex s handle).isSome))

def execIndexRetain (h : MsgHead) (handle seconds : Nat) (s : State) : Result :=
  .next (indexConfig s h handle (.indexRetain h handle seconds) (decide (seconds ≤ 86400)))

def execIndexMergePolicy (h : MsgHead) (handle threshold : Nat) (s : State) : Result :=
  .next (indexConfig s h handle (.indexMergePolicy h handle threshold)
    (threshold == 0 || (decide (65536 ≤ threshold) && decide (threshold ≤ thicketLimit))))

def onIndex (q : Req) (h : Nat) : Bool :=
  match q.job with
  | .items _ b _ _ => b.handle == h
  | .delete b _ => b.handle == h
  | .merge n => n == h
  | _ => false

def removeGrants (s : State) (h : Nat) : State :=
  setStore s (fun x => { x with tens := x.tens.map (fun p => (p.1, p.2.map (fun t => { t with grants := t.grants.filter (· != h) }))) })

/-- INDEX_DROP at its boundary (R278). -/
def applyDrop (s : State) (q : Req) (h : Nat) : State :=
  let s := (s.reqs.filter (fun x => onIndex x h)).foldl (fun s x => match reqOf s x.id with
    | some x => endRequest s x stCancelled 0 0
    | none => s) s
  let s := removeGrants (dropMerge s h) h
  let s := match heldIndex s h with | some i => putIndex s { i with dropped := true } | none => s
  configDone (bumpStore { s with idx := { s.idx with flashOnly := s.idx.flashOnly.filter (fun i => i.handle != h) } } 0x0040) q

def applyRetain (s : State) (q : Req) (h seconds : Nat) : State :=
  match heldIndex s h with
  | some i => configDone (putIndex s { i with retain := seconds }) q
  | none => completeReq s q (endWith stInvalid)

def applyPolicyOf (s : State) (q : Req) (h threshold : Nat) : State :=
  match heldIndex s h with
  | some i => configDone (putIndex s { i with threshold := threshold }) q
  | none => completeReq s q (endWith stInvalid)

/-- The retention time of a version has ended (R294). -/
def execIndexRetainExpiry (handle version : Nat) (s : State) : Result :=
  .next (match heldIndex s handle with
    | some i => putIndex s { i with versions := i.versions.map (fun v => if v.num == version then { v with retained := false } else v) }
    | none => s)

/-! ### Freed at a boundary (R291, R294, R380, R381) -/

def pinsVersion (h v : Nat) (q : Req) : Bool := match q.job with | .serve x => x.kind != 1 && x.handle == h && x.version == v | _ => false
def pinsState (h v n : Nat) (q : Req) : Bool :=
  match q.job with | .serve x => x.statePin && x.kind != 1 && x.handle == h && x.version == v && x.vstate == n | _ => false

/-- The search of a QUERY, or the packing of an ASK, has ended: its state pin goes. -/
def dropPins (s : State) : State :=
  { s with reqs := s.reqs.map (fun q => match q.job with
      | .serve v =>
        let done := if v.kind = 0 then (match v.found with | some o => searchEnds v o | none => false) else v.joinable || v.ending.isSome
        if v.statePin && done then { q with job := .serve { v with statePin := false } } else q
      | _ => q) }

/-- Does a search of another member pin the version, or the state, here (R306)? -/
def farPinsVersion (h v : Nat) (r : Reserved) : Bool := r.handle == h && r.version == v
def farPinsState (h v n : Nat) (r : Reserved) : Bool := farPinsVersion h v r && r.vstate == n

def freeStates (s : State) (i : Index) (v : IdxVer) : IdxVer :=
  let last := (latestState v).num
  { v with states := v.states.filter (fun st => st.num == last || s.reqs.any (pinsState i.handle v.num st.num)
      || s.grove.reserves.any (farPinsState i.handle v.num st.num)) }

/-- Versions that are still held, each with its held states. -/
def heldVersions (s : State) (i : Index) : List IdxVer :=
  (i.versions.filter (fun v => (v.num == i.current && !i.dropped) || v.retained || s.reqs.any (pinsVersion i.handle v.num)
      || s.grove.reserves.any (farPinsVersion i.handle v.num))).map (freeStates s i)

/-- R286: the P-tiles of an item that is not applied are freed: those of the store in which no passage of a held state or of a staged item
starts or goes on. -/
def freeTiles (s : State) (i : Index) : Index :=
  let kept := (i.versions.flatMap (fun v => v.states.flatMap (fun st => st.recs.map (·.pid)))) ++ pendingPids s i.handle
  let holds := fun (first count : Nat) => kept.any (fun p => decide (first ≤ p) && decide (p < first + max 1 count))
  { i with store := i.store.filter (fun t => holds t.first t.count), filling := i.filling.filter (fun t => holds t.first t.count) }

/-- The last version of a dropped index has been freed: its keys are zeroed and it is gone (R381). -/
def forgetIndex (s : State) (i : Index) : State :=
  let s := (i.keys.map (·.2) ++ [i.atRest]).foldl dropKey s
  { s with idx := { s.idx with loaded := s.idx.loaded.filter (fun x => x.handle != i.handle) } }

def freeIndexes (s : State) : State :=
  let s := dropPins s
  s.idx.loaded.foldl (fun s i => match heldIndex s i.handle with
    | some i =>
      if i.current = 0 then s
      else
        let l := heldVersions s i
        if i.dropped && l.isEmpty then forgetIndex s i else putIndex s (freeTiles s { i with versions := l })
    | none => s) s

/-- A running unit of the tenant's Glade may hold its handles. -/
def tenantBusy (s : State) (t : Nat) : Bool :=
  let gs := s.keys.handles.filterMap (fun p => match p.2 with | some v => if v.tenant = some t then v.glade else none | none => none)
  s.chip.units.any (fun u => u.running && gs.contains u.desc.glade)

/-- The keys of unbound tenants, once no running unit holds them (R380); tenants without records stop retiring. -/
def freeTenants (s : State) : State :=
  let (wait, go) := s.prot.dying.partition (tenantBusy s)
  let s := { s with
    keys := { s.keys with handles := s.keys.handles.filter (fun p => match p.2 with
      | some v => !(match v.tenant with | some t => go.contains t && v.purpose != .atRest | none => false)
      | none => false) }
    idx := { s.idx with loaded := s.idx.loaded.map (fun i => { i with keys := i.keys.filter (fun k => !go.contains k.1) }) }
    prot := { s.prot with dying := wait } }
  setStore s (fun x => { x with retiring := x.retiring.filter (fun r => hasRecords s r.1) })

end Sys2Proof.Machine
end

