-- ==== Sys2Proof/Machine/Status.lean ====
section
/-!
DEFINITION. STATUS (R412) with its records: module, sequences (R315), site map, tables, indexes, margin (R485, R486), certificates and
sessions; and LOG_READ (R413, R507).
-/
namespace Sys2Proof.Machine

/-! ### Power figures that the margin record shows (R469, R485, R486) -/

/-- Millivolts of a voltage in steps of 6.25 mV above 600 mV. -/
def stepMv (n : Nat) : Nat := 600 + 25 * n / 4

/-- The highest usable operating point, in MHz; the lowest point when none is. -/
def topPoint (s : State) : Nat :=
  match (s.power.points.zipIdx.filter (fun p => p.1.usable)).getLast? with | some p => pointMhz p.2 | none => 400

/-- Least `r` with `r⁴` not above `n`. -/
def fourthRoot (n : Nat) : Nat := isqrt (isqrt n)

/-- R485: fourth roots of operating hours, scaled by 2²⁰, with the voltage steps needed at the top point. -/
def forecastPoints (s : State) : List (Int × Int) :=
  s.power.records.map (fun r => ((fourthRoot (r.time * 2 ^ 80 / 3600) : Nat), ((r.volts.getD 32 0 : Nat) : Int)))

def sumInt (l : List Int) : Int := l.foldl (· + ·) 0

/-- R485: hours until the fitted voltage with its allowance reaches 0.900 V (48 steps), from now. -/
def forecast (s : State) : Nat :=
  let l := forecastPoints s
  if l.length < 8 then 0xFFFFFFFF
  else if !((s.power.points.getLast?).map (·.usable)).getD false then 0
  else
    let n : Int := l.length
    let sx := sumInt (l.map (·.1))
    let sy := sumInt (l.map (·.2))
    let num := n * sumInt (l.map (fun p => p.1 * p.2)) - sx * sy
    let den := n * sumInt (l.map (fun p => p.1 * p.1)) - sx * sx
    if num ≤ 0 || den ≤ 0 then 200000
    else
      let x := (46 * n * den - (sy * den - num * sx)) / (n * num)
      if x ≤ 0 then 0 else min 200000 (x.toNat ^ 4 / 2 ^ 80 - opSeconds s / 3600)

/-- The worst slack of a site as last sampled, in ps; 189 when no sample is held. -/
def slackOf (s : State) (p : Nat) : Nat := AMap.get 189 s.power.worst p

/-! ### Sites (R412 selector 2) -/

/-- The logical core that a site holds. -/
def coreAt (s : State) (p : Nat) : Option Nat := (List.range 512).find? (fun c => siteOf s c == some p)

/-- State of a site: 0 active, 1 spare unused, 2 fenced, 3 absent core. -/
def siteState (s : State) (p : Nat) : Nat :=
  if s.chip.homes.any (fun h => h.2 == some none && homeSite h.1 == p) then 3
  else if s.chip.fenced.contains p || s.chip.knownBad.contains p then 2
  else if (coreAt s p).isSome then 0
  else 1

/-- The power state of a core site (R102): its logical core's, or for a fenced, failed or spare site its own. -/
def sitePower (s : State) (p : Nat) : SitePower :=
  match coreAt s p with
  | some c => if s.chip.fenced.contains p then (coreOf s (512 + p)).power else (coreOf s c).power
  | none => (coreOf s (512 + p)).power

def siteRecord (s : State) (p : Nat) : List Byte :=
  leBytes 2 p ++ leBytes 2 ((coreAt s p).getD 0xFFFF) ++ leBytes 1 (siteState s p) ++ leBytes 3 0

/-! ### Records -/

def imageIds (o : Option Img) : List Byte :=
  match o with | some i => leBytes 16 i.info.imageId.toNat ++ leBytes 16 i.info.fingerprint.toNat | none => leBytes 32 0

/-- The last two bytes of selector 0: unprotected stacks (R242 item 5), and in bits 12 and 13 a damaged current and outgoing image (R506);
the place is the model's (log 23). -/
def damageMask (s : State) : Nat :=
  let image := fun (o : Option Img) => match o with | some i => !i.damaged.isEmpty | none => false
  sumNat ((s.media.unprotected.filter (fun k => decide (k < 12))).map (2 ^ ·)) + (if image s.images.current then 2 ^ 12 else 0)
    + (if image s.images.outgoing then 2 ^ 13 else 0)

/-- A mask of regulator sets. -/
def gladeMask (s : State) (f : Nat → GladeState → Bool) : Nat :=
  sumNat ((List.range 9).map (fun g => match gladeOf s g with | some x => if f g x then 2 ^ g else 0 | none => 0))

/-- Selector 0: the fields in their listed order, then the sets with a pending reduction (R443), the Glades short of cores (R429) and the
damage of stacks and images; the places are the model's (log 23). -/
def moduleRecord (s : State) : List Byte :=
  leBytes 1 (if s.flash then 1 else 0) ++ leBytes 16 s.serial.toNat ++ leBytes 4 Config.wenikVersion.toNat ++ leBytes 8 s.chip.step
    ++ leBytes 8 s.kt.ready.toNat ++ leBytes 1 (if s.sched.yalelo then 1 else 0) ++ imageIds s.images.current ++ imageIds s.images.outgoing
    ++ leBytes 2 (Config.certificate 0).length ++ leBytes 2 (Config.certificate 1).length ++ leBytes 8 (kvFree s)
    ++ leBytes 8 (t3Open s - heldT3 s) 
    ++ leBytes 2 (gladeMask s (fun _ x => x.pending.isSome)) ++ leBytes 2 (gladeMask s (fun _ x => decide (gladeCores s x < x.set.cores)))
    ++ leBytes 2 (damageMask s)

/-- R315. -/
def seqRecord (s : State) (q : Req) (v : Serve) : List Byte :=
  leBytes 8 q.id.rid.toNat ++ leBytes 1 v.seq ++ leBytes 1 (q.glade.getD 0) ++ leBytes 2 (q.tenant.getD 0) ++ leBytes 4 v.pos
    ++ leBytes 4 v.prompt.length ++ leBytes 4 v.gen.length ++ leBytes 4 v.maxNew ++ leBytes 2 v.pages ++ leBytes 2 v.params.grammar.toNat
    ++ leBytes 4 v.gstate ++ leBytes 1 (if some v.image = currentSerial s then 0 else 1)
    ++ leBytes 1 ((if v.kind = 2 then 1 else 0) + (if seedGiven v.params then 2 else 0) + (if penalizePrompt v.params then 4 else 0))
    ++ leBytes 2 v.chunks.length ++ leBytes 4 v.segs ++ leBytes 4 v.longest ++ leBytes 8 v.seed.toNat ++ leBytes 8 0

/-- The table descriptor's first 32 bytes (R179). -/
def descHead (t : TableVer) : List Byte :=
  leBytes 1 t.table ++ leBytes 1 t.code ++ leBytes 1 0 ++ leBytes 1 (tilesPerRow t.stride) ++ leBytes 4 t.version ++ leBytes 8 t.base
    ++ leBytes 4 t.rows ++ leBytes 2 t.width ++ leBytes 2 (rowsInTile t.stride) ++ leBytes 4 t.stride ++ leBytes 4 0

def tableRecord (t : TableVer) : List Byte := descHead t ++ leBytes 16 t.digest.toNat ++ leBytes 8 t.updated

def retiredOf (s : State) (i : Index) : Nat :=
  match s.prot.store with
  | some x => (x.retiring.filter (fun (t, _) => i.versions.any (fun v => v.states.any (fun st => st.recs.any (fun r => r.tenant == t))))).length
  | none => 0

def indexRecord (s : State) (i : Index) : List Byte :=
  let l := currentRecs i
  leBytes 4 i.handle ++ leBytes 1 i.body.residency.toNat ++ leBytes 1 (if i.lost then 1 else 0) ++ leBytes 2 i.versions.length
    ++ leBytes 4 (sumNat (i.versions.map (·.states.length))) ++ leBytes 8 l.length ++ leBytes 8 (l.filter inThicket).length
    ++ leBytes 8 (l.filter (·.tomb)).length ++ leBytes 1 (if i.merge.isSome then 1 else 0) ++ leBytes 3 0 ++ leBytes 4 (retiredOf s i)
    ++ leBytes 20 0

def sessionRecord (s : State) (x : Session) : List Byte :=
  leBytes 4 x.id ++ leBytes 1 x.role ++ leBytes 1 x.func.toNat ++ leBytes 2 x.principal ++ leBytes 8 x.step
    ++ leBytes 4 (s.reqs.filter (fun q => q.session == x.id)).length ++ leBytes 12 0

def marginFlags (s : State) : Nat :=
  let p := s.power
  let f := forecast s
  (if p.cut.isSome then 1 else 0) + (if f < 8760 then 2 else 0) + (if ((p.points.getLast?).map (·.usable)).getD false then 0 else 4)
    + (if p.overLimit then 8 else 0) + (if p.warning then 16 else 0) + (if s.kt.fallback then 32 else 0)

/-- The site with the worst slack. -/
def worstSite (s : State) : Nat × Nat :=
  s.power.worst.foldl (fun a b => if b.2 < a.2 then b else a) (0xFFFF, 189)

/-- R486. -/
def marginRecord (s : State) : List Byte :=
  let p := s.power
  leBytes 4 p.sust ++ leBytes 4 p.peak ++ leBytes 4 ((p.cut.map (·.1)).getD 0) ++ leBytes 4 ((p.cut.map (·.2)).getD 0)
    ++ leBytes 4 (baseline s p.ports + reservedPower s) ++ leBytes 2 p.costing ++ leBytes 2 p.point ++ leBytes 2 p.floor ++ leBytes 2 (topPoint s)
    ++ leBytes 2 (intBits 16 p.junction) ++ leBytes 2 (intBits 16 p.stack) ++ leBytes 8 (opSeconds s / 3600) ++ leBytes 8 p.lastPlan
    ++ leBytes 8 p.nextPlan ++ leBytes 4 (forecast s) ++ leBytes 2 (worstSite s).1 ++ leBytes 2 (worstSite s).2 ++ leBytes 4 (marginFlags s)
    ++ leBytes 2 33 ++ leBytes 2 528 ++ leBytes 56 0
    ++ p.points.zipIdx.flatMap (fun x => leBytes 2 (pointMhz x.2) ++ leBytes 2 (stepMv x.1.volt)
        ++ leBytes 1 ((if x.1.usable then 1 else 0) + (if x.1.raised then 2 else 0)) ++ leBytes 1 x.1.steps ++ leBytes 2 0)
    ++ (List.range 528).flatMap (fun n => leBytes 2 n ++ leBytes 2 (slackOf s n)
        ++ leBytes 2 (if siteState s n = 2 then 0 else stepMv ((p.points.getLast?).map (·.volt) |>.getD 0)) ++ leBytes 1 (siteState s n) ++ leBytes 1 0)

/-! ### STATUS -/

/-- Insert by ascending request ID. -/
def insertSeq (x : Req × Serve) : List (Req × Serve) → List (Req × Serve)
  | [] => [x]
  | y :: r => if reqLe x.1.id y.1.id then x :: y :: r else y :: insertSeq x r

/-- May the role see this sequence? -/
def seesReq (s : State) (x : Session) (q : Req) : Bool :=
  isOwner x || (isOper x && operHasGlade s x q.glade)
    || (isTenant x && s.prot.sessions.any (fun y => y.id == q.session && y.role == 2 && y.principal == x.principal))

def sequencesOf (s : State) (x : Session) (first : Nat) : List (Req × Serve) :=
  (s.reqs.filterMap (fun q => match q.job with
    | .serve v => if v.seq != 0 && decide (first ≤ q.id.rid.toNat) && seesReq s x q then some (q, v) else none
    | _ => none)).foldr insertSeq []

def seesSession (s : State) (x y : Session) : Bool :=
  isOwner x || (y.role == x.role && y.principal == x.principal)
    || (isOper x && decide (1 ≤ y.func.toNat) && decide (y.func.toNat ≤ 8) && bitOf (operGlades s x) (y.func.toNat - 1))

/-- The record size and the records a role may see; `none` when it may not read the selector. -/
def statusRecords (s : State) (x : Session) (selector arg : Nat) : Option (Nat × List (List Byte)) :=
  let staff := isOwner x || isOper x
  match selector with
  | 0 => some (128, [moduleRecord s])
  | 1 => some (64, (sequencesOf s x arg).map (fun p => seqRecord s p.1 p.2))
  | 2 => if staff then some (8, (List.range 528).map (siteRecord s)) else none
  | 3 => if staff then some (56, s.tabs.versions.map tableRecord) else none
  | 4 => if staff then some (64, ((s.idx.loaded.filter (fun i => (arg == 0 || i.handle == arg) && (isOwner x || operHasGlade s x (indexGlade s i)))).map
      (indexRecord s))) else none
  | 5 => if isOwner x || operRight s x 4 then some (4616, [marginRecord s]) else none
  | 6 => some ((Config.certificate arg).length, [Config.certificate arg])
  | _ => some (32, (s.prot.sessions.filter (seesSession s x)).map (sessionRecord s))

def statusGo (s : State) (h : MsgHead) (selector outLen arg : Nat) (c : Ctx) : State :=
  if !formOk h false || decide (7 < selector) || (selector == 6 && decide (1 < arg)) || decide (outLen < 16) then refuse s h c (endWith stInvalid)
  else match statusRecords s c.sess selector arg with
    | none => refuse s h c (endWith stDenied)
    | some (size, l) =>
      let n := min l.length (if size = 0 then 0 else (outLen - 16) / size)
      let head := leBytes 4 n ++ leBytes 4 l.length ++ leBytes 4 size ++ leBytes 4 0
      refuse (putOutput s ⟨h.func, h.rid⟩ (head ++ (l.take n).flatMap id)) h c ⟨stOk, 0, 0, [(0, 4, n), (12, 4, 16 + n * size)]⟩

def execStatus (h : MsgHead) (selector outLen arg : Nat) (s : State) : Result :=
  .next (message s h opStatus .opened true (fun s c => statusGo s h selector outLen arg c))

/-! ### LOG_READ -/

def logBytes (r : LogRec) : List Byte :=
  leBytes 8 r.seq ++ leBytes 8 r.time ++ leBytes 2 r.kind ++ leBytes 2 r.code ++ leBytes 1 r.func ++ leBytes 1 r.glade ++ leBytes 2 0
    ++ leBytes 8 r.rid.toNat ++ leBytes 8 r.unit ++ leBytes 2 r.core ++ leBytes 2 r.site ++ leBytes 2 r.index ++ leBytes 1 r.engine
    ++ leBytes 1 0 ++ leBytes 16 r.detail.toNat

/-- Owner: all; operator with the LOG right: its Glades (R372). -/
def seesLog (s : State) (x : Session) (r : LogRec) : Bool := isOwner x || operHasGlade s x (some r.glade)

def dumpBase : Nat := 2 ^ 63
/-- Records of the crash-dump area (R507). -/
def dumpRecords : Nat := 8388608

/-- Records asked for and those lost. -/
def logPick (s : State) (x : Session) (first n : Nat) : List (List Byte) × Nat :=
  if dumpBase ≤ first then
    (match s.kt.crash with
     | some c => if isOwner x then ((List.range (min n (dumpRecords - (first - dumpBase)))).map (fun i =>
         leBytes 64 (Config.dumpRecord c.1 (first - dumpBase + i)).toNat), 0) else ([], 0)
     | none => ([], 0))
  else
    let oldest := (s.log.recs.head?.map (·.seq)).getD s.log.next
    ((((s.log.recs.filter (fun r => decide (first ≤ r.seq) && seesLog s x r)).take n).map logBytes), oldest - first)

def logGo (s : State) (h : MsgHead) (first max outLen : Nat) (c : Ctx) : State :=
  if !formOk h false then refuse s h c (endWith stInvalid)
  else if !(isOwner c.sess || operRight s c.sess 4) then refuse s h c (endWith stDenied)
  else
    let (l, lost) := logPick s c.sess first (min max (outLen / 64))
    refuse (putOutput s ⟨h.func, h.rid⟩ (l.flatMap id)) h c ⟨stOk, 0, 0, [(0, 4, l.length), (4, 8, lost), (12, 4, 64 * l.length)]⟩

def execLogRead (h : MsgHead) (first max outLen : Nat) (s : State) : Result :=
  .next (message s h opLogRead .opened true (fun s c => logGo s h first max outLen c))

end Sys2Proof.Machine
end

