-- ==== Sys2Proof/Machine/Grove.lean ====
section
/-!
DEFINITION. The Grove: ports (R446 to R449, R464), frames (R447, R448, R455, R27), forming and dissolving a set (R450 to R454), members
out (R463, R464), and link units (R458 to R460).
-/
namespace Sys2Proof.Machine

/-! ### Ports (R448, R449, R464, R465) -/

/-- A change of STATE of a port: a kind 5 record, and GROVE bit p of KT_READY (R416). -/
def setPortState (s : State) (p n : Nat) : State :=
  if (portAt s p).state = n then s
  else
    let s := logAdd (setPort s p { portAt s p with state := n }) { logNone with kind := 5, code := n, detail := BitVec.ofNat 128 p }
    setReady s (bGrove p) (n == 2 || n == 3)

/-- Resend every unacknowledged frame of a port. -/
def resendAll (s : State) (p : Nat) : State :=
  let x := portAt s p
  { setPort s p { x with resent := min 4294967295 (x.resent + x.unacked.length) } with host := s.host ++ x.unacked.map (fun f => .frame p f.2) }

/-- The port retrains. -/
def retrain (s : State) (p : Nat) : State :=
  let x := portAt s p
  setPortState (setPort s p { x with retrains := min 65535 (x.retrains + 1), fails := 0, width := 0 }) p 1

/-- The peers of the layout whose every port is neither up nor training: they are out of reach (R464). -/
def bundleLost (s : State) (m : Nat) : Bool :=
  match layoutOf s with
  | some (n, me) => !(List.range 8).any (fun p => (layoutPeer n me p).1 == m && (portUp s p || (portAt s p).state == 1))
  | none => false

/-- Whether a link unit involves a member (R463). -/
def linkInvolves (u : LinkState) (m : Nat) : Bool :=
  match u.kind with
  | .send => u.desc.root.toNat % 16 == m || u.desc.root.toNat / 16 == m
  | _ => true

/-- Units that wait on these ones, directly or through others, are abandoned (R463). -/
def abandon : Nat → State → List Nat → State
  | 0, s, _ => s
  | _, s, [] => s
  | k + 1, s, l =>
    let gone := s.chip.units.filter (fun u => l.contains u.desc.unitId && !u.running)
    let links := s.chip.links.filter (fun u => l.contains u.desc.unitId)
    let s := { s with chip := { s.chip with
      units := s.chip.units.filter (fun u => !(l.contains u.desc.unitId && !u.running))
      links := s.chip.links.filter (fun u => !l.contains u.desc.unitId) } }
    abandon k s (gone.flatMap (fun u => u.desc.succs) ++ links.flatMap (fun u => u.desc.succs))

def abandonFuel (s : State) : Nat := s.chip.units.length + s.chip.links.length + 1

/-- A port is lost: its traffic moves to the rest of its bundle (R464). -/
def losePort (s : State) (p : Nat) : State :=
  let s := setPortState (setPort s p { portAt s p with width := 0, lost := true }) p 4
  { s with grove := { s.grove with recheck := true } }

/-- A member is declared out (R463, R464): its ports are lost, and every link unit that involves it ends without result. -/
def memberGone (s : State) (m : Nat) : State :=
  match layoutOf s with
  | none => s
  | some (n, me) =>
    if m = me || decide (n ≤ m) || s.grove.out.contains m then s
    else
      let s := { s with grove := { s.grove with out := s.grove.out ++ [m] } }
      let s := (List.range 8).foldl (fun s p => if (layoutPeer n me p).1 = m && ((portAt s p).state = 1 || portUp s p) then losePort s p else s) s
      let links := (s.chip.links.filter (fun u => linkInvolves u m)).map (·.desc.unitId)
      abandon (abandonFuel s) s links

/-- The member is declared out; the leader announces it (R463). -/
def execMemberOut (member : Nat) (s : State) : Result :=
  .next (if !presentMember s member then s
    else
      let t := memberGone s member
      if leaderOf s = memberIndex s && t.grove.out != s.grove.out then
        (peersOf s).foldl (fun t m => if m = member then t else sendTo t m (leBytes 1 18 ++ leBytes 1 member)) t
      else t)

/-- A lane fails: a port at 8 lanes goes on at 4, any other is lost (R464). -/
def laneFail (s : State) (p lane : Nat) : State :=
  let x := portAt s p
  if !portUp s p || bitOf x.laneFail lane then s
  else
    let x := { x with laneFail := putBit x.laneFail lane true, lane := true }
    if x.width = 8 then
      let x := { x with width := 4, retrains := min 65535 (x.retrains + 1) }
      resendAll (setPortState (setPort s p x) p 3) p
    else
      let s := losePort (setPort s p x) p
      match layoutOf s with
      | some (n, me) => if bundleLost s (layoutPeer n me p).1 then memberGone s (layoutPeer n me p).1 else s
      | none => s

def execGroveLaneFail (port : BitVec 3) (lane : BitVec 3) (s : State) : Result := .next (laneFail s port.toNat lane.toNat)

/-! ### Forming a set (R452, R453) -/

/-- The payload of SET_FORM as its digest covers it, with the member's own index left out (log 25). -/
def setPayload (b : SetBody) : List Byte :=
  leBytes 4 b.setId ++ leBytes 1 b.n ++ leBytes 3 0 ++ b.members.flatMap (fun m => leBytes 16 m.1.toNat ++ leBytes 16 m.2.toNat)

def setDigest (b : SetBody) : BitVec 256 := BitVec.ofNat 256 (leNat (sha256 (setPayload b)))

def allPortsUp (s : State) : Bool := (List.range 8).all (portUp s)

/-- Every member has matched and every port of the layout is up: the set forms at the next boundary. -/
def formedNow (s : State) : Bool :=
  match s.grove.forming with
  | some f => allPortsUp s && (List.range f.body.n).all (fun m => m == f.body.index || f.match_.contains m)
  | none => false

def tryForm (s : State) : State :=
  match s.grove.forming with
  | some f => if formedNow s && !s.changes.contains (.request f.req) then addChange s (.request f.req) else s
  | none => s

/-- A fault of the formation found here. -/
def formFault (s : State) (detail : Nat) : State :=
  match s.grove.forming with
  | some f => if f.fault.isSome then s else { s with grove := { s.grove with forming := some { f with fault := some detail } } }
  | none => s

def setFormOk (s : State) (b : SetBody) : Bool :=
  decide (1 ≤ b.setId) && decide (b.setId < 2 ^ 32) && [2, 4, 8, 16].contains b.n && decide (b.index < b.n) && b.members.length == b.n
    && ((b.members[b.index]?).map (·.1)) == some s.serial

def storedSet (s : State) : Option SetBody := s.prot.store.bind (·.set)

/-- R453, in order. -/
def setFormCheck (s : State) (h : MsgHead) (b : SetBody) (x : Session) : Option Ending :=
  if !formOk h false || !setFormOk s b then some (endWith stInvalid)
  else if !isOwner x then some (endWith stDenied)
  else if (storedSet s).isSome || s.grove.forming.isSome || s.images.current.isSome || !s.idx.loaded.isEmpty then some (endWith stInvalid)
  else if !readyBit s bHostlink || !readyBit s bMesh || !(List.range 8).all (fun p => readyBit s (bGrove p)) then some (endWith stNotReady)
  else none

/-- The ports train again, with the keys of the set (R449). -/
def setFormGo (s : State) (h : MsgHead) (b : SetBody) (c : Ctx) : State :=
  match setFormCheck s h b c.sess with
  | some e => refuse s h c e
  | none =>
    let r : ReqId := ⟨h.func, h.rid⟩
    let s := acceptReq s h c opConfig none none (.setForm b)
    let s := setGroveState { s with grove := { s.grove with forming := some ⟨r, b, [], none⟩ } } 1
    (List.range 8).foldl retrain s

def execSetForm (h : MsgHead) (b : SetBody) (s : State) : Result :=
  .next (message s h opConfig .opened false (fun s c => setFormGo s h b c))

/-- R453: 60 s after the first acceptance. -/
def execSetFormTimeout (s : State) : Result :=
  .next (match s.grove.forming with
    | some f =>
      let s1 := setGroveState { tellPeers s 9 f.req with grove := { (tellPeers s 9 f.req).grove with forming := none } } 4
      completeId s1 f.req (match f.fault with | some d => ⟨stInvalid, d, 0, []⟩ | none => ⟨stInvalid, 0, fgPeer, []⟩)
    | none => s)

/-- The digest and version that this member reports (R453). -/
def tellDigest (s : State) (f : Forming) : State :=
  ((List.range f.body.n).filter (· != f.body.index)).foldl (fun s m =>
    sendTo s m (leBytes 1 1 ++ leBytes 32 (setDigest f.body).toNat ++ leBytes 4 Config.wenikVersion.toNat)) s

/-- A port has trained (R449): authenticated and cabled as the layout says, it is up with a new link key for each direction. -/
def portTrained (s : State) (p : Nat) (authOk : Bool) (peer peerPort : Nat) : State :=
  let x := portAt s p
  if x.state != 1 || !bitOf s.grove.porten p || s.tap.cut then s
  else if !authOk then formFault (setPortState (setPort s p { x with auth := true }) p 0) dtAuthentication
  else if (match layoutOf s with | some (n, me) => layoutPeer n me p != (peer, peerPort) | none => false) then
    formFault (setPortState (setPort s p { x with miscable := true }) p 5) dtMiscabling
  else
    let s := [x.key, x.rxKey].foldl (fun s k => if k = 0 then s else dropKey s k) s
    let (s, k) := addKey (drawn s) (Config.freeLinkKey s.freeCount) .link none none
    let (s, k1) := addKey (drawn s) (Config.freeLinkKey s.freeCount) .link none none
    let narrow := x.laneFail != 0#8
    let s := setPort s p { x with peer := peer, peerPort := peerPort, width := if narrow then 4 else 8, key := k, rxKey := k1 }
    let s := resendAll (setPortState s p (if narrow then 3 else 2)) p
    match s.grove.forming with
    | some f => tryForm (if allPortsUp s then tellDigest s f else s)
    | none => s

def execGrovePortTrained (port : BitVec 3) (authOk : Bool) (peer peerPort : Nat) (s : State) : Result :=
  .next (portTrained s port.toNat authOk peer peerPort)

/-- The set's first step boundary (R453). -/
def applySetForm (s : State) (q : Req) (b : SetBody) : State :=
  if !formedNow s then s
  else
    let s := setStore s (fun t => { t with set := some b })
    let s := setGroveState { s with grove := { s.grove with
      forming := none, present := BitVec.ofNat 16 (2 ^ b.n - 1), ready := 0#16, step := 0, out := [], accepts := [], commits := [], verifies := [], failed := [] } } 2
    configDone (bumpStore s 0x0050) q

/-- SET_DISSOLVE (R452, R454). -/
def execSetDissolve (h : MsgHead) (setId : Nat) (s : State) : Result :=
  .next (message s h opConfig .opened false (fun s c =>
    let valid := match storedSet s with | some b => b.setId == setId | none => false
    let s1 := configGo s h c (.setDissolve h setId) (formOk h false) (isOwner c.sess) valid
    if s1.changes.contains (.request ⟨h.func, h.rid⟩) then tellPeers s1 3 ⟨h.func, h.rid⟩ else s1))

/-- Requests that the set serves: those on the sliced model (R456). -/
def needsSet (q : Req) : Bool := match q.job with | .serve _ => true | .items _ _ _ _ => true | _ => false

def applyDissolve (s : State) (q : Req) : State :=
  let s := (s.reqs.filter needsSet).foldl (fun s x => match reqOf s x.id with
    | some x => endRequest s x stCancelled 0 0
    | none => s) s
  let s := dropVersions { s with images := { s.images with current := none, outgoing := none } } (fun _ => true)
  let s := setStore (setReady s bImage false) (fun t => { t with set := none })
  let s := setGroveState { s with grove := { s.grove with present := 0#16, ready := 0#16, out := [], accepts := [], commits := [], verifies := [], reserves := [], entries := [], told := [] } } 0
  configDone (bumpStore s 0x0051) q

/-! ### Frames received (R447, R448) -/

/-- A frame that arrives on a port that is up: its tag, its sequence number, its acknowledgement, and then its effect, once and in
order. A NAK names the frame that is asked for. -/
def received (s : State) (p : Nat) (seq : W64) (tagOk : Bool) (f : State → State) : State :=
  let x := portAt s p
  if !portUp s p then s
  else if !tagOk then
    if 7 ≤ x.fails then retrain s p
    else { setPort s p { x with fails := x.fails + 1 } with host := s.host ++ [.frame p (leBytes 1 7 ++ leBytes 8 seq.toNat)] }
  else if seq.toNat = x.rxSeq + 1 then
    f { setPort s p { x with rxSeq := x.rxSeq + 1, fails := 0 } with host := s.host ++ [.frame p (leBytes 1 6 ++ leBytes 8 seq.toNat)] }
  else if seq.toNat ≤ x.rxSeq then { s with host := s.host ++ [.frame p (leBytes 1 6 ++ leBytes 8 seq.toNat)] }
  else { s with host := s.host ++ [.frame p (leBytes 1 7 ++ leBytes 8 (x.rxSeq + 1))] }

/-- Bytes arrive in a tile: through FILLING to FULL (R214, R459). -/
def fillTile (s : State) (key : Nat) (bytes : List Byte) : State :=
  if !tilePopulated s key then s
  else
    let d := setFld (setDState (tileDesc s key) tileFull) 32 15 (min bytes.length tileBytes)
    putTileImage s ⟨key, d, bytes⟩

def execDataFrame (port : BitVec 3) (seq : W64) (tagOk : Bool) (dest : Nat) (bytes : List Byte) (s : State) : Result :=
  .next (received s port.toNat seq tagOk (fun s => goAll (fillTile s dest bytes) 0))

/-- The proposal or the commit of a set step boundary (R455). -/
def execBoundaryFrame (port : BitVec 3) (seq : W64) (tagOk : Bool) (step : Nat) (_commit : Bool) (s : State) : Result :=
  .next (received s port.toNat seq tagOk (fun s => { s with grove := { s.grove with proposed := some step } }))

/-- R27: a holder grants a reservation when it holds the index and can serve it. -/
def grantable (s : State) (handle : Nat) : Bool :=
  match loadedIndex s handle with | some i => !i.lost && i.body.shardCount != 1 && coresReady s && s.kt.shut.isNone | none => false

/-- What a peer's search asks of this holder: its own records of the lists, by its own plan (R26, R27). -/
def farAsk (s : State) (i : Index) (g lists budget : Nat) : Ask :=
  let m := s.images.current.map (·.info)
  let time := max 1 budget
  { glade := g, image := (currentSerial s).getD 0, retrieve := none, stages := 0, gen := none, pages := 0, pageB := 0
    t2rate := ceilDiv (searchSegments i (currentRecs i) lists * tileBytes) time, t3rate := 0, homeRate := 0
    grove := 0, outRate := 0, slots := searchSlots i.body lists
    ctxs := ((m.bind (fun m => planRow m .searchSharded lists)).map (·.contexts)).getD 0, hot := 0
    cores := [(m.map (fun m => stageCores m .searchSharded lists time)).getD 0], power := 0, reserve := 0, longest := 0 }

/-- R26, R27, R306: the reservation, when it fits the division of the index's Glade beside what it holds, with the version and the state that
the search pins here. -/
def farReservation (s : State) (from_ : Nat) (r : ReqId) (handle : Nat) (search : FarSearch) : Option Reserved :=
  (loadedIndex s handle).bind (fun i => (indexGlade s i).bind (fun g => (gladeOf s g).bind (fun x =>
    let a := farAsk s i g search.lists search.budget
    if grantable s handle && divisionFits s a (costedSettings x) (gladeServes s g) (reservedFor s g) then
      (versionOf i i.current).map (fun v =>
        ⟨from_, r, handle, v.num, (latestState v).num, search.lists, a.t2rate, a.slots, a.ctxs, maxNat a.cores, false⟩) else none)))

def execReserveFrame (port : BitVec 3) (seq : W64) (tagOk : Bool) (from_ : Nat) (r : ReqId) (handle : Nat)
    (search : FarSearch) (s : State) : Result :=
  .next (received s port.toNat seq tagOk (fun s =>
    let x := farReservation s from_ r handle search
    let ok := x.isSome
    let s := { s with grove := { s.grove with reserves := s.grove.reserves ++ x.toList } }
    sendTo s from_ (leBytes 1 3 ++ leBytes 8 r.rid.toNat ++ leBytes 1 (if ok then 1 else 0))))

/-- The answer to a RESERVE: the request goes on when every holder has granted; one refusal ends it with ST_BUSY (R27). -/
def granted27 (s : State) (from_ : Nat) (r : ReqId) (ok : Bool) : State :=
  match reqOf s r with
  | some q => (match q.job with
    | .serve v =>
      if !v.awaits.contains from_ then s
      else if ok then setJob s q (.serve { v with awaits := v.awaits.filter (· != from_) })
      else tellPeers (completeReq s q (busyAt 7 (hintRange s 0))) 9 r
    | _ => s)
  | none => s

def execGrantFrame (port : BitVec 3) (seq : W64) (tagOk : Bool) (from_ : Nat) (r : ReqId) (granted : Bool) (s : State) : Result :=
  .next (received s port.toNat seq tagOk (fun s => granted27 s from_ r granted))

/-- A member's digest, version and ports (R453). -/
def gotDigest (s : State) (m : Nat) (payload : BitVec 256) (wenik : Nat) (portsUp : Bool) : State :=
  match s.grove.forming with
  | none => s
  | some f =>
    if payload != setDigest f.body then formFault s dtDigest
    else if wenik != Config.wenikVersion.toNat then formFault s dtVersion
    else if !portsUp then s
    else tryForm { s with grove := { s.grove with forming := some { f with match_ := setHas f.match_ m } } }

/-- A peer cannot carry out a change (R66, R204, R306, R453). -/
def peerFails (s : State) (m : Nat) (r : ReqId) : State :=
  let s := { s with grove := { s.grove with
    failed := setHas s.grove.failed (m, r)
    reserves := s.grove.reserves.filter (fun x => !(x.member == m && x.req == r)) } }
  match reqOf s r with
  | some q => (match q.job with
    | .table _ _ => endRequest s q stInvalid 0 fgPeer
    | .setForm _ => endRequest s q stInvalid 0 fgPeer
    | .load _ => completeReq s q ⟨stInvalid, 0, fgPeer, []⟩
    | _ => s)
  | none =>
    if r.func = 0xFE#8 then
      (match heldIndex s r.rid.toNat with
       | some i => (match i.merge with
         | some g => (match g.req.bind (reqOf s) with | some q => endRequest s q stInvalid 0 fgPeer | none => dropMerge s r.rid.toNat)
         | none => s)
       | none => s)
    else s

/-- A peer's DELETE names IDs held here (R305, R306): accepted, told, and applied at the next boundary. -/
def gotDelete (s : State) (m : Nat) (r : ReqId) (handle : Nat) (tenant : Option Nat) (ranges : List (Nat × Nat)) : State :=
  match loadedIndex s handle with
  | none => s
  | some i =>
    if i.lost then s
    else addChange (sendTo s m (leBytes 1 3 ++ leBytes 1 r.func.toNat ++ leBytes 8 r.rid.toNat)) (.farDelete m r handle tenant ranges)

/-- A sequence of another member: its entry and its pages here (R332). -/
def gotEntry (s : State) (m : Nat) (r : ReqId) (pages : Nat) : State :=
  let size := (s.images.current.map (fun i => pageBytesOf i.info)).getD 0
  { s with grove := { s.grove with entries := s.grove.entries ++ [⟨m, r, pages * size, []⟩] } }

def gotToken (s : State) (m : Nat) (r : ReqId) (t : Nat) : State :=
  { s with grove := { s.grove with entries := s.grove.entries.map (fun x => if x.member == m && x.req == r then { x with tokens := x.tokens ++ [t] } else x) } }

def gotControl (s : State) : ControlInfo → State
  | .digest m p w up => gotDigest s m p w up
  | .ready m on => { s with grove := { s.grove with ready := putBit s.grove.ready m on } }
  | .verified m (some x) => { s with grove := { s.grove with verifies := setHas (s.grove.verifies.filter (fun v => v.1 != m)) (m, x) } }
  | .verified _ none => match loading s with
      | some (q, _) => completeReq s q ⟨stInvalid, 0, fgPeer, []⟩
      | none => s
  | .committed m r => { s with grove := { s.grove with commits := setHas s.grove.commits (m, r) } }
  | .accepted m r => { s with grove := { s.grove with accepts := setHas s.grove.accepts (m, r) } }
  | .failed m r => peerFails s m r
  | .entry m r n => gotEntry s m r n
  | .left m r => { s with grove := { s.grove with entries := s.grove.entries.filter (fun x => !(x.member == m && x.req == r)) } }
  | .token m r t => gotToken s m r t
  | .deletes m r h t l => gotDelete s m r h t l
  | .released m r => { s with grove := { s.grove with
      reserves := s.grove.reserves.map (fun x => if x.member == m && x.req == r then { x with spent := true } else x) } }

def execControlFrame (port : BitVec 3) (seq : W64) (tagOk : Bool) (info : ControlInfo) (s : State) : Result :=
  .next (received s port.toNat seq tagOk (fun s => gotControl s info))

def execHeartbeatFrame (port : BitVec 3) (seq : W64) (tagOk : Bool) (s : State) : Result :=
  .next (received s port.toNat seq tagOk id)

/-- An acknowledgement frees the frames up to its number (R448). -/
def execAckFrame (port : BitVec 3) (upTo : W64) (s : State) : Result :=
  let x := portAt s port.toNat
  .next (if portUp s port.toNat then setPort s port.toNat { x with unacked := x.unacked.filter (fun f => decide (upTo.toNat < f.1)), fails := 0 } else s)

/-- A NAK: the frame is resent, and after 8 failures in a row the port retrains (R448). -/
def execNakFrame (port : BitVec 3) (seq : W64) (s : State) : Result :=
  let p := port.toNat
  let x := portAt s p
  .next (if !portUp s p then s
    else match x.unacked.find? (fun f => f.1 == seq.toNat) with
      | none => s
      | some f =>
        let x := { x with resent := min 4294967295 (x.resent + 1) }
        if 7 ≤ x.fails then retrain (setPort s p { x with retry := true }) p
        else { setPort s p { x with fails := x.fails + 1 } with host := s.host ++ [.frame p f.2] })

/-- A HEARTBEAT goes out on every idle port that is up (R447, R463). -/
def execHeartbeatSend (s : State) : Result :=
  .next ((List.range 8).foldl (fun s p => if portUp s p && (portAt s p).unacked.isEmpty then sendPort s p [] else s) s)

/-- Is the request's index a set index? -/
def onSetIndex (s : State) (v : Serve) : Bool := v.kind != 1 && (match heldIndex s v.handle with | some i => i.body.shardCount != 1 | none => false)

/-- At the first boundary after a search ends, its slots, contexts and rates are released, here and, as the holders learn, there (R26, R27);
each stage's core time goes with the stage. -/
def releaseEnded (s : State) : State :=
  let ended := (s.reqs.filterMap (fun q => match q.job with
      | .serve v => if v.searched && v.slots != 0 && onSetIndex s v then some q.id else none
      | _ => none))
  let s := ended.foldl (fun s r => tellPeers s 14 r) s
  { s with
    reqs := s.reqs.map (fun q => match q.job with | .serve v => { q with job := .serve (releaseStages v) } | _ => q)
    grove := { s.grove with reserves := s.grove.reserves.filter (fun x => !x.spent) } }

/-- R332: every member holds an entry for every sequence of the set; the home tells of its own, and of those that have left. -/
def shareEntries (s : State) : State :=
  if !inSet s then s
  else
    let own := s.reqs.filterMap (fun q => match q.job with | .serve v => if v.kind != 0 then some (q.id, v.pages) else none | _ => none)
    let gone := s.grove.told.filter (fun r => !own.any (fun x => x.1 == r))
    let fresh := own.filter (fun x => !s.grove.told.contains x.1)
    let s := gone.foldl (fun s r => tellPeers s 17 r) s
    let s := fresh.foldl (fun s x => (peersOf s).foldl (fun s m =>
      sendTo s m (leBytes 1 16 ++ leBytes 1 x.1.func.toNat ++ leBytes 8 x.1.rid.toNat ++ leBytes 2 x.2)) s) s
    { s with grove := { s.grove with told := own.map (·.1) } }

/-! ### Link units (R458 to R460) -/

/-- Glades and rows a link unit's traffic counts against (R459). -/
def linkGlades (s : State) (d : LinkDesc) : List Nat :=
  (match d.owner with | some r => [r] | none => d.members).filterMap (fun r => (reqOf s r).bind (·.glade))

/-- Draw `n` bytes from the Grove regulators of the Glades, in proportion to rows; `none` when some transfer is held. -/
def linkDraw (s : State) (d : LinkDesc) (n : Nat) : Option State :=
  let gs := linkGlades s d
  (gs.eraseDups).foldl (fun (o : Option State) g => o.bind (fun s =>
    drawTokens s g .grove (n * (gs.filter (· == g)).length / max 1 gs.length) true ⟨g, 2, 512, d.unitId, 0⟩)) (some s)

def tileRange (a n : Nat) : List Nat := (List.range (ceilDiv n tileBytes)).map (· + a / tileBytes)

def sourceFull (s : State) (d : LinkDesc) (n : Nat) : Bool := (tileRange d.source n).all (fun t => dState (tileDesc s t) == tileFull)

/-- Write the result into the destination tiles. -/
def putLink (s : State) (d : LinkDesc) (bytes : List Byte) : State :=
  (chunksOf tileBytes bytes).zipIdx.foldl (fun s c => fillTile s (d.dest / tileBytes + c.2) c.1) s

def wordsOf (l : List Byte) : List W32 := (chunksOf 4 l).map (fun c => BitVec.ofNat 32 (leNat c))

/-- Every member's part, in member order, with this member's own; `none` while one is missing. -/
def allParts {α : Type} (n me : Nat) (own : α) (peers : List (Nat × α)) : Option (List α) :=
  (List.range n).mapM (fun m => if m = me then some own else (peers.find? (fun p => p.1 == m)).map (·.2))

/-- A link unit that has started and has all its data: the bytes this member sends, and its result here. -/
def linkRun (s : State) (kind : LinkKind) (d : LinkDesc) (sent : Nat) (src : Nat) (out : Option (List Byte)) : State :=
  match s.chip.links.find? (fun u => u.desc.unitId == d.unitId && u.kind == kind) with
  | none => s
  | some u =>
    if u.left != 0 || u.desc != d || !sourceFull s d src then s
    else match linkDraw s d sent with
      | none => s
      | some s =>
        let s := match out with | some l => putLink s d l | none => s
        let s := { s with chip := { s.chip with links := s.chip.links.filter (fun x => x.desc.unitId != d.unitId) } }
        goAll (releaseSuccs s d.succs) 0

def linkBytesOk (d : LinkDesc) (n : Nat) : Bool := d.bytes % (64 * n) == 0

def execAllreduce (d : LinkDesc) (peers : List (Nat × List W32)) (s : State) : Result :=
  .next (match layoutOf s with
    | some (n, me) =>
      let own := wordsOf (devBytes s d.source d.bytes)
      (match allParts n me own peers with
       | some l => if linkBytesOk d n && d.format == 9#8 && l.all (fun v => v.length == d.bytes / 4)
           then linkRun s .allreduce d (2 * d.bytes * (n - 1) / n) d.bytes (some ((treeSum n l).flatMap (fun w => leBytes 4 w.toNat))) else s
       | none => s)
    | none => s)

def execAllgather (d : LinkDesc) (peers : List (Nat × List Byte)) (s : State) : Result :=
  .next (match layoutOf s with
    | some (n, me) => (match allParts n me (devBytes s d.source (d.bytes / n)) peers with
      | some l => if linkBytesOk d n && l.all (fun v => v.length == d.bytes / n)
          then linkRun s .allgather d (d.bytes * (n - 1) / n) (d.bytes / n) (some (l.flatMap id)) else s
      | none => s)
    | none => s)

def execGather (d : LinkDesc) (peers : List (Nat × List Byte)) (s : State) : Result :=
  .next (match layoutOf s with
    | some (n, me) =>
      if d.root.toNat = me then
        (match allParts n me (devBytes s d.source (d.bytes / n)) peers with
         | some l => linkRun s .gather d 0 (d.bytes / n) (some (l.flatMap id))
         | none => s)
      else linkRun s .gather d (d.bytes / n) (d.bytes / n) none
    | none => s)

def execBroadcast (d : LinkDesc) (data : List Byte) (s : State) : Result :=
  .next (match layoutOf s with
    | some (_, me) =>
      if d.root.toNat = me then linkRun s .broadcast d d.bytes d.bytes none
      else if data.length = d.bytes then linkRun s .broadcast d 0 0 (some data) else s
    | none => s)

def execSend (d : LinkDesc) (data : List Byte) (s : State) : Result :=
  .next (match layoutOf s with
    | some (_, me) =>
      if d.root.toNat % 16 = me then linkRun s .send d d.bytes d.bytes none
      else if d.root.toNat / 16 = me then (if data.length = d.bytes then linkRun s .send d 0 0 (some data) else s)
      else linkRun s .send d 0 0 none
    | none => s)

/-- R459: the first overrun is run once more; the second ends the owner requests. -/
def execLinkUnitOverrun (unitId : Nat) (s : State) : Result :=
  .next (match s.chip.links.find? (fun u => u.desc.unitId == unitId) with
    | none => s
    | some u =>
      if !u.overran then
        { s with chip := { s.chip with links := s.chip.links.map (fun x => if x.desc.unitId == unitId then { x with overran := true } else x) } }
      else
        let owners := match u.desc.owner with | some r => [r] | none => u.desc.members
        failSuspects (abandon (abandonFuel s) s [unitId]) owners dtLinkUnit)

end Sys2Proof.Machine
end

