-- ==== Sys2Proof/Machine/Understory.lean ====
section
/-!
DEFINITION. The Understory units of the flash channels: scans opened, fed, drained and closed by packets (R300 to R302), and channels out
of service (R304).
-/
namespace Sys2Proof.Machine

/-! ### Channels (R304) -/

def channels : Nat := 256

/-- Lost for good until its tiles have moved: out of service, not moved, with a second such channel in its parity group (log 27). -/
def channelLost (s : State) (c : Nat) : Bool :=
  let down := fun (x : Nat) => (AMap.get none s.under.out x).isSome && !s.under.moved.contains x
  down c && (List.range 16).any (fun i => 16 * (c / 16) + i != c && down (16 * (c / 16) + i))

/-- The unit that serves a channel's packets: its own, or the covering one; none when the group of eight has none in service. -/
def unitFor (s : State) (c : Nat) : Option Nat :=
  if !s.flash || decide (channels ≤ c) then none
  else match AMap.get none s.under.out c with
    | none => some c
    | some x => if x < channels then some x else none

/-- R304: the in-service unit with the lowest number among the eight; 256 when there is none. -/
def coverOf (s : State) (c : Nat) : Nat :=
  (((List.range 8).map (· + 8 * (c / 8))).find? (fun x => x != c && (AMap.get none s.under.out x).isNone)).getD channels

/-- A channel out of service takes its cover at the boundary; the channels that it covered find another. -/
def applyChannelOut (s : State) (c : Nat) : State :=
  let s := { s with under := { s.under with out := AMap.put none s.under.out c (some channels) } }
  { s with under := { s.under with out := s.under.out.map (fun p => (p.1, match p.2 with
      | some x => some (if x = c || x = channels then coverOf s p.1 else x)
      | none => none)) } }

def applyMoveEnd (s : State) (c : Nat) : State := { s with under := { s.under with moved := setHas s.under.moved c } }

def execFlashChannelOutOfService (channel : Nat) (s : State) : Result :=
  .next (if !s.flash || decide (channels ≤ channel) || (AMap.get none s.under.out channel).isSome || s.changes.contains (.channelOut channel) then s
    else addChange (t3Event s 2 channel) (.channelOut channel))

def execT3MoveEnd (channel : Nat) (s : State) : Result :=
  .next (if (AMap.get none s.under.out channel).isNone || s.under.moved.contains channel || s.changes.contains (.moveEnd channel) then s
    else addChange (t3Event s 3 channel) (.moveEnd channel))

/-! ### Scans -/

def findScan (s : State) (c : Nat) (tag : W64) : Option UScan := s.under.scans.find? (fun x => x.channel == c && x.tag == tag.toNat)

def dropScan (s : State) (c tag : Nat) : State :=
  { s with under := { s.under with scans := s.under.scans.filter (fun x => !(x.channel == c && x.tag == tag)) } }

def putScan (s : State) (x : UScan) : State :=
  { s with under := { s.under with scans := s.under.scans.map (fun y => if y.channel == x.channel && y.tag == x.tag then x else y) } }

/-- Scans that a unit holds, its own and those it covers. -/
def unitScans (s : State) (u : Nat) : List UScan := s.under.scans.filter (fun x => unitFor s x.channel == some u)

/-- Pages of one table set. -/
def tablePages (d : ScanDesc) : Nat := ceilDiv (2 * d.m * setC d) 4096

def pagesUsed (s : State) (u : Nat) : Nat := sumNat ((unitScans s u).map (fun x => x.tables.length * tablePages x.desc))

/-- The 8,192-byte bitmap of the admitted ACL classes. -/
def aclBytes (l : List Nat) : List Byte := (List.range 8192).map (fun i => BitVec.ofNat 8 (sumNat ((l.filter (fun c => c / 8 == i)).map (fun c => 2 ^ (c % 8)))))

def openDesc (o : ScanOpen) : ScanDesc :=
  ⟨o.handle, o.version, o.m, o.code, o.metric, o.attrs, o.nMax, 0, o.filter.tenant.toNat, o.filter.preds, o.filter.acl.map aclBytes⟩

/-- A table set as the unit scores with it. -/
def viewOf (t : TableSet) : SetView :=
  ⟨t.bias, t.listWord.toNat, t.gMin, t.gMax, t.tables, if t.hasEnv then some t.env else none⟩

/-- The 32-byte tombstone block of a segment. -/
def tombBytes (l : List Nat) : List Byte := (List.range 32).map (fun i => BitVec.ofNat 8 (sumNat ((l.filter (fun j => j / 8 == i)).map (fun j => 2 ^ (j % 8)))))

/-- The Glade that pays for a scan: that of its index. -/
def scanGlade (s : State) (h : Nat) : Option Nat := (heldIndex s h).bind (indexGlade s)

/-- Draw on a regulator of the scan's Glade; work of no Glade draws nothing (R431). -/
def scanDraw (s : State) (x : UScan) (r : Resource) (n which : Nat) : Option State :=
  match scanGlade s x.desc.handle with
  | some g => drawTokens s g r n true ⟨g, resNumber r, 512 + x.channel, x.tag, which⟩
  | none => some s

def scanHold (s : State) (x : UScan) (r : Resource) (which : Nat) : State :=
  match scanGlade s x.desc.handle with
  | some g => holdTicket s ⟨g, resNumber r, 512 + x.channel, x.tag, which⟩
  | none => s

/-- Pages read for one tile: its own, or its partners' when its channel is covered and its tiles have not moved (R304). -/
def pageReads (s : State) (c : Nat) : Nat := if (AMap.get none s.under.out c).isSome && !s.under.moved.contains c then 15 else 1

/-- The bytes of a page as the unit decrypts them: the index's own when OPEN named its at-rest key, others under any other key (R300). -/
def unitView (s : State) (x : UScan) (tile : Nat) : List Host.Cell :=
  let own := (heldIndex s (fld (tileDesc s (t3Base + tile)) 128 32)).map (·.atRest)
  if own == some x.key.toNat then s.media.bytes
  else match own.bind (AMap.get none s.keys.handles ·), AMap.get none s.keys.handles x.key.toNat with
    | some k, some k' => writeBytes s.media.bytes ((t3Base + tile) * tileBytes)
        (xtsDecrypt (keyBytes k'.key) (keyBytes k'.half) (Config.t3Tweak tile).toNat (t3Page s tile k))
    | _, _ => clearBytes s.media.bytes ((t3Base + tile) * tileBytes) tileBytes

/-- What becomes of the first piece of a scan's work. -/
inductive UStep where
  | wait (s : State) | stop (s : State) | go (s : State) (coll : Collector)

/-- TAG_MISMATCH at a unit: recorded as a stop, and the scan ends without a candidate tile (R94, R253; log 27). -/
def mismatchStop (s : State) (x : UScan) : State :=
  logAdd s { logNone with kind := 1, code := 0x14, glade := (scanGlade s x.desc.handle).getD 0xFF, detail := BitVec.ofNat 128 x.channel }

/-- One segment (R302): the bound before the read, the read, the checks of R253, then every record. -/
def scanOne (s : State) (x : UScan) (t : TableSet) (r : SegmentRef) : UStep :=
  let v := viewOf t
  let key := t3Base + r.tile
  let base := key * tileBytes
  if skips x.coll (setBound x.desc v) then .go s { x.coll with skipped := x.coll.skipped + 1 }
  else if t3Channel r.tile != x.channel then .stop (mismatchStop s x)
  else if channelLost s x.channel || dState (tileDesc s key) == tilePoisoned then
    .stop (doubleFault s noUnit key)
  else if dState (tileDesc s key) != tileFull then .wait s
  else match scanDraw s x .t3 (tileBytes * pageReads s x.channel) 0 with
    | none => .wait (scanHold s x .t3 0)
    | some s =>
      let m := unitView s x r.tile
      let s := pageOp s
      if !tagOk x.desc (tileDesc s key) v.word (segCount m base) (segWord m base) then .stop (mismatchStop s x)
      else .go s (scanSegment v m base (tombBytes r.tombs) x.coll)

/-- R302: the candidate tile, untyped, with the summary and k entries. -/
def candidateTile (s : State) (x : UScan) (dest : Nat) : State :=
  let d := tileDesc s dest
  let len := 64 + 16 * x.coll.k
  let d := setDState (setFld (setFld d 2 4 0) 32 15 len) tileFull
  setTile (setDevBytes s (writeBytes s.media.bytes (dest * tileBytes) (drainBytes x.coll ++ List.replicate (tileBytes - len) 0#8))) dest d

/-- A drain: it waits for an EMPTY tile and for its tokens. -/
def drainOne (s : State) (x : UScan) (dest : Nat) : UStep :=
  if t2Tiles ≤ dest then .stop s
  else if dState (tileDesc s dest) != tileEmpty then .wait s
  else match scanDraw s x .t2 (64 + 16 * x.coll.k) 1 with
    | none => .wait (scanHold s x .t2 1)
    | some s => .go (candidateTile s x dest) x.coll

def scanStep (s : State) (x : UScan) : UTodo → UStep
  | .seg t r => match x.tables[t]? with | some v => scanOne s x v r | none => .stop s
  | .drain d => drainOne s x d

/-- The work of one scan as far as it goes. -/
def runScan : List UTodo → State → UScan → State
  | [], s, x => putScan s { x with todo := [] }
  | w :: l, s, x =>
    match scanStep s x w with
    | .wait s => putScan s { x with todo := w :: l }
    | .stop s => dropScan s x.channel x.tag
    | .go s c => runScan l s { x with coll := c }

/-- Every scan of a unit in service goes on. -/
def runScans (s : State) : State :=
  s.under.scans.foldl (fun s x => if (unitFor s x.channel).isSome then runScan x.todo s x else s) s

/-- New work for a scan. -/
def addWork (s : State) (c : Nat) (tag : W64) (l : List UTodo) : State :=
  match findScan s c tag with
  | some x => if (unitFor s c).isSome then runScan (x.todo ++ l) s x else putScan s { x with todo := x.todo ++ l }
  | none => s

/-- Values a scan descriptor may have (R246, R259, R261, R300). -/
def openOk (o : ScanOpen) : Bool :=
  let d := openDesc o
  (d.m == 8 || d.m == 16 || d.m == 32 || d.m == 48 || d.m == 64 || d.m == 96) && decide (d.code ≤ 1) && decide (d.metric ≤ 2)
    && (d.attrs == 0 || d.attrs == 1 || d.attrs == 2 || d.attrs == 4) && decide (1 ≤ o.k) && decide (o.k ≤ 256)
    && decide (d.tenant < 4096) && decide (d.preds.length ≤ 4) && d.preds.all (fun p => decide (p.attr < d.attrs))

/-- OPEN; a unit holds 64 scans. An OPEN for an open query starts it again, as its replay on a covering unit does. -/
def execUnderstoryOpen (channel : Byte) (o : ScanOpen) (s : State) : Result :=
  .next (match unitFor s channel.toNat with
    | none => s
    | some u =>
      let s := dropScan s channel.toNat o.tag.toNat
      if !openOk o || decide (64 ≤ (unitScans s u).length) then s
      else
        let d := openDesc o
        { s with under := { s.under with scans := s.under.scans ++
            [⟨channel.toNat, o.tag.toNat, d, o.key, ⟨true, o.k, [], 0, 0, 0, 0, 0, d⟩, [], []⟩] } })

/-- TABLES; a unit has 1,024 table pages. -/
def execUnderstoryTables (channel : Byte) (tag : W64) (t : TableSet) (s : State) : Result :=
  .next (match unitFor s channel.toNat, findScan s channel.toNat tag with
    | some u, some x =>
      if pagesUsed s u + tablePages x.desc ≤ 1024 then putScan s { x with tables := x.tables ++ [t] } else s
    | _, _ => s)

def execUnderstorySegments (channel : Byte) (tag : W64) (table : Nat) (segs : List SegmentRef) (s : State) : Result :=
  .next (addWork s channel.toNat tag (segs.map (.seg table)))

/-- DRAIN; a work unit that waits for the candidate tile goes on. -/
def execUnderstoryDrain (channel : Byte) (tag : W64) (dest : Nat) (s : State) : Result :=
  .next (goAll (addWork s channel.toNat tag [.drain dest]) 0)

def execUnderstoryClose (channel : Byte) (tag : W64) (s : State) : Result := .next (dropScan s channel.toNat tag.toNat)

end Sys2Proof.Machine
end

