-- ==== Sys2Proof/Machine/Power.lean ====
section
/-!
DEFINITION. Power, clocks and ageing: the limit and its costing point (R471 to R474), the operating point of a step (R473), regulators
(R430, R445), deep idle (R476 to R479), the thermal warning (R475), the Kettle's clock and hours (R480, R481), and the ageing monitors
(R482 to R484).
-/
namespace Sys2Proof.Machine

/-! ### The limit in force (R471, R472, R474) -/

def vfAt (s : State) (n : Nat) : VfPoint := s.power.points.getD n ⟨0, false, false, 0⟩

/-- Operating points that are usable, ascending, in MHz. -/
def usablePoints (s : State) : List Nat := ((List.range 33).filter (fun n => (vfAt s n).usable)).map pointMhz

/-- Full-load power at a point: every present core under the image's most power-hungry unit class, the baseline of RUN, and every regulator
set's rates at their energy per byte (R472). -/
def fullLoad (s : State) (mhz : Nat) : Nat :=
  baseline s s.power.ports + (match s.images.current with
    | none => 0
    | some i =>
      let e := fun (k : Nat) (f : RegSet → Bucket) => i.info.energy.getD k 0 * sumNat (s.regs.map (fun r => match r.2 with | some r => (f r).rate | none => 0))
      ceilDiv (powerAt i.info.maxPower mhz * presentCores s * 1000
        + e 0 (·.t2) + e 1 (·.t3) + e 2 (·.grove) + e 3 (·.hostOut) + e 3 (·.hostIn)) 1000000)

/-- The costing point under a limit; the lowest point when none fits. -/
def costingUnder (s : State) (limit : Nat) : Nat := (((usablePoints s).filter (fun p => decide (fullLoad s p ≤ limit))).getLast?).getD (pointMhz 0)

/-- SUSTAINED as admission sees it: a pending cut counts (R474 item 2). -/
def limitNow (s : State) : Nat := match s.power.cut with | some c => c.1 | none => s.power.sust

def recost (s : State) : State := { s with power := { s.power with costing := costingUnder s (limitNow s) } }

/-- Baseline and reservations together. -/
def powerHeld (s : State) : Nat := baseline s s.power.ports + reservedPower s

/-- An accepted PW_COMMIT at its boundary: in force, or a pending cut (R474). -/
def applyPower (s : State) (sust peak : Nat) : State :=
  recost (if powerHeld s ≤ sust then { s with power := { s.power with sust := sust, peak := peak, cut := none } }
    else { s with power := { s.power with cut := some (sust, peak) } })

/-- A pending cut is applied at the first boundary at which the reserved power fits under it. -/
def applyCut (s : State) : State :=
  match s.power.cut with
  | some (a, b) => if powerHeld s ≤ a then recost { s with power := { s.power with sust := a, peak := b, cut := none } } else s
  | none => s

/-- Ports that the baseline counts: a raise at the boundary, a fall once no admitted request is left (R478). -/
def applyPorts (s : State) : State :=
  let n := portsEnabled s
  if s.power.ports < n || !s.reqs.any (fun q => match q.job with | .serve _ => true | _ => false) then
    { s with power := { s.power with ports := n } } else s

/-- The operating point of a step from its plan's power at each point (R473). -/
def choosePoint (s : State) (plan : List (Nat × Nat)) : State :=
  let floor := floorOfPower s
  let cost := fun (p : Nat) => ((plan.find? (fun x => x.1 == p)).map (·.2)).getD 0
  let fit := (usablePoints s).filter (fun p => decide (floor ≤ p) && decide (baseline s s.power.ports + cost p ≤ min s.power.sust s.power.peak))
  let point := if s.power.warning then floor else (fit.getLast?).getD floor
  { s with power := { s.power with floor := floor, point := point } }

/-! ### REGULATOR_REFILL, HOST_LINK_DOWNTRAIN (R430, R445) -/

def refillBucket (b : Bucket) : Bucket :=
  let (dRes, dFree) := bucketDepths b
  { b with res := min (dRes : Int) (b.res + b.rRes), free := min (dFree : Int) (b.free + (b.rate - b.rRes : Nat)) }

def refillSet (r : RegSet) : RegSet :=
  ⟨refillBucket r.t2, refillBucket r.t3, refillBucket r.grove, refillBucket r.hostOut, refillBucket r.hostIn⟩

/-- One microsecond: time goes on, the buckets refill, held transfers start. -/
def execRegulatorRefill (s : State) : Result :=
  .next (
    let s := { s with time := s.time + 1 }
    if !alive s then s
    else finishAll (goAll (runScans { s with regs := s.regs.map (fun p => (p.1, p.2.map refillSet)) }) 0))

/-- The rates that admitted requests of a Glade, and peers' searches of its indexes, hold become its reserved parts; each part is clipped to
its new depth (R430). -/
def reserveRates (s : State) : State :=
  (List.range 9).foldl (fun s g => match AMap.get none s.regs g with
    | none => s
    | some r =>
      let l := gladeServes s g
      let put := fun (b : Bucket) (n : Nat) =>
        let b1 : Bucket := { b with rRes := min n b.rate }
        let (dRes, dFree) := bucketDepths b1
        ({ b1 with res := min (dRes : Int) b1.res, free := min (dFree : Int) b1.free } : Bucket)
      { s with regs := AMap.put none s.regs g (some { r with
          t2 := put r.t2 (sumNat (l.map (·.t2rate)) + sumNat ((reservedFor s g).map (·.t2rate)))
          t3 := put r.t3 (sumNat (l.map (·.t3rate))), grove := put r.grove (sumNat (l.map (·.grove)))
          hostOut := put r.hostOut (sumNat (l.map (·.outRate))) }) }) s

def sumRates (s : State) (f : GladeSettings → RateDepth) : Nat :=
  sumNat (s.glades.sets.map (fun p => match p.2 with | some g => (f g.set).rate | none => 0))

/-- Every set's host rates by one factor, rounded down, when they exceed the capacity offered. -/
def applyHostScale (s : State) : State :=
  let cap := s.glades.hostCap
  let out := sumRates s (·.hostOut)
  let inn := sumRates s (·.hostIn)
  let scale := fun (r : RateDepth) (sum : Nat) => if sum ≤ cap then r else (⟨r.rate * cap / sum, r.depth⟩ : RateDepth)
  s.glades.sets.foldl (fun s p => match p.2 with
    | some g =>
      let set := { g.set with hostOut := scale g.set.hostOut out, hostIn := scale g.set.hostIn inn }
      if set = g.set then s else gladeChanged (putBuckets (putGlade s p.1 (some { g with set := set })) set) p.1
    | none => s) s

def execHostLinkDowntrain (hostRate : Nat) (s : State) : Result :=
  .next (if !readyBit s bHostlink || decide (s.glades.hostCap ≤ hostRate) then s
    else
      let s := { s with glades := { s.glades with hostCap := hostRate } }
      if hostRate < sumRates s (·.hostOut) || hostRate < sumRates s (·.hostIn) then addChange s .hostScale else s)

/-! ### DEEP_IDLE_ENTRY (R477) -/

/-- Nothing in flight, nothing pending, no background work, every site power-gated, and in no formed set. -/
def idleNow (s : State) : Bool :=
  s.kt.life == .running && s.reqs.isEmpty && s.changes.isEmpty && s.chip.units.isEmpty && s.chip.links.isEmpty && s.chip.clearings.isEmpty
    && s.chip.cores.all (fun c => c.2.power == .powerGated) && s.idx.loaded.all (fun i => i.merge.isNone) && s.tabs.applying.isEmpty
    && s.tabs.replaces.isEmpty && s.tabs.hot.all (fun h => match h.2 with | some e => e.lock.isEmpty | none => true)
    && s.media.channels.all (fun c => c.2 != .rebuilding) && s.under.out.all (fun c => s.under.moved.contains c.1)
    && s.grove.state != 1 && s.grove.state != 2 && s.grove.state != 3 && s.bi.testing.isNone && s.kt.shut.isNone && s.rc.block.isNone

def execDeepIdleEntry (s : State) : Result := .next (if idleNow s then { s with power := { s.power with deep := true } } else s)

/-! ### Temperatures (R475) -/

/-- A log record of the module's own condition, of kind 6 (log 28). -/
def moduleEvent (s : State) (code detail : Nat) : State := logAdd s { logNone with kind := 6, code := code, detail := BitVec.ofNat 128 detail }

def raiseAlert (s : State) : State := { s with side := { s.side with alert := true } }

def execThermalWarningSet (junction stack : Int) (s : State) : Result :=
  .next (
    let s := { s with power := { s.power with junction := junction, stack := stack } }
    if s.power.warning || (decide (junction < 1000) && decide (stack < 900)) then s
    else raiseAlert (moduleEvent { s with power := { s.power with warning := true } } 0x100 0))

def execThermalWarningClear (junction stack : Int) (s : State) : Result :=
  .next (
    let s := { s with power := { s.power with junction := junction, stack := stack } }
    if decide (junction ≤ 950) && decide (stack ≤ 850) then { s with power := { s.power with warning := false } } else s)

/-! ### The Kettle's clock (R480, R481) -/

def kettlePowered (s : State) : Bool := s.kt.life != .off

/-- Ticks of the 32,768 Hz crystal. -/
def kettleTicks (s : State) : Nat := s.kt.ticks + s.time * 32768 / 1000000

def execCrystalFallback (s : State) : Result :=
  .next (if !kettlePowered s || s.kt.fallback then s else moduleEvent { s with kt := { s.kt with fallback := true } } 0x101 0)

/-- Operating hours to the shadow and, in steps of 8 hours, to OTP. -/
def shadowHours (s : State) : State :=
  { s with kt := { s.kt with shadowHours := opSeconds s / 3600, otpHours := max s.kt.otpHours (opSeconds s / 3600 / 8 * 8) } }

def execOperatingHoursShadow (s : State) : Result := .next (if alive s then shadowHours s else s)

/-! ### Monitors (R482, R483) -/

def lowSlack : Nat := 12

/-- Core groups with a monitor below 12 ps. -/
def skippingGroups (worst : AMap Nat) : List Nat := (List.range 8).filter (fun g => worst.any (fun w => groupOfSite w.1 == g && decide (w.2 < lowSlack)))

def execMonitorSample (slacks : List (Nat × Nat)) (s : State) : Result :=
  .next (if !alive s then s
    else
      let worst := (slacks.filter (fun x => decide (x.1 < 528) && decide (x.2 ≤ 189))).foldl (fun w x => AMap.put 189 w x.1 x.2) s.power.worst
      { s with power := { s.power with worst := worst, skipping := skippingGroups worst } })

/-- A site is fenced: its decision is made, and its logical core moves at the next boundary. -/
def fenceSite (s : State) (site : Nat) : State :=
  let s := addDecision { s with chip := { s.chip with fenced := setHas s.chip.fenced site } } 1 0 site
  match coreAt s site with
  | some c => { s with chip := { s.chip with moves := setHas s.chip.moves c } }
  | none => s

/-- Skipping has persisted for 1 ms: the unit of the site stops and its Clearing runs (log 29). -/
def execSkipPersist (site : Nat) (s : State) : Result :=
  .next (if !alive s || decide (528 ≤ site) || s.chip.fenced.contains site || decide (lowSlack ≤ slackOf s site) then s
    else match coreAt s site with
      | some c => if (coreOf s c).run.isSome then stopUnit s c ⟨0, 0, engD, 0⟩ else setCore (fenceSite s site) c coreOff
      | none => fenceSite s site)

/-! ### REPLAN (R484) -/

/-- A re-plan that is due wakes the module to run; it takes effect at the next boundary. -/
def execReplan (needed : List (Nat × Nat)) (worstSite worstSlack : Nat) (s : State) : Result :=
  .next (if s.kt.life != .running then s else addChange (wake s) (.replan needed worstSite worstSlack))

def setPoint (s : State) (n : Nat) (p : VfPoint) : State := { s with power := { s.power with points := s.power.points.set n p } }

/-- One point: raised by up to two steps, or unusable. -/
def replanPoint (s : State) (n steps : Nat) : State :=
  let p := vfAt s n
  let volt := min 48 (p.volt + steps)
  if steps = 0 then setPoint s n { p with raised := false }
  else if steps ≤ 2 && decide (p.volt + steps ≤ 48) then setPoint s n { p with volt := volt, raised := true, steps := p.steps + steps }
  else setPoint s n { p with volt := volt, usable := false, raised := true, steps := p.steps + (volt - p.volt) }

/-- A running request keeps a point that is no longer usable as its costing point. -/
def overLimit (s : State) : Bool :=
  s.reqs.any (fun q => match q.job with | .serve v => !(usablePoints s).contains v.point | _ => false)

/-- The flag follows the requests that keep an unusable point; its rise is logged. -/
def setOver (s : State) : State :=
  let now := overLimit s
  let s1 := { s with power := { s.power with overLimit := now } }
  if now && !s.power.overLimit then moduleEvent s1 0x102 0 else s1

def applyReplan (s : State) (needed : List (Nat × Nat)) (site slack : Nat) : State :=
  let steps := fun (n : Nat) => ((needed.find? (fun x => x.1 == n)).map (·.2)).getD 0
  let s := (List.range 33).foldl (fun s n => replanPoint s n (steps n)) s
  let t := opSeconds s
  let recs := s.power.records ++ [⟨t, s.power.points.map (·.volt), site, slack⟩]
  let s := { s with power := { s.power with records := recs.drop (recs.length - 64), lastPlan := t, nextPlan := t + 86400 } }
  recost (setOver s)

end Sys2Proof.Machine
end

