-- ==== Sys2Proof/Machine/Boundary.lean ====
section
/-!
DEFINITION. The step boundary (R8 to R12, R319, R558): what leaves and joins, the changes in acceptance order, the site map (R80, R81),
shares (R427, R429), the plan that is committed, and what is freed.
-/
namespace Sys2Proof.Machine

/-! ### Time -/

/-- `n` microseconds pass: the regulators refill as often (R430). -/
def advance (s : State) (n : Nat) : State :=
  let fill := fun (b : Bucket) =>
    let (dRes, dFree) := bucketDepths b
    ({ b with res := min (dRes : Int) (b.res + n * b.rRes), free := min (dFree : Int) (b.free + (n * (b.rate - b.rRes) : Nat)) } : Bucket)
  if n = 0 then s
  else { s with
    time := s.time + n
    regs := s.regs.map (fun p => (p.1, p.2.map (fun r => ⟨fill r.t2, fill r.t3, fill r.grove, fill r.hostOut, fill r.hostIn⟩))) }

/-- R8, R479: the least time between two boundaries. -/
def boundaryGap (s : State) : Nat := if s.power.deep then 20000 else 250

/-! ### Sequences (R10, R314, R319 to R321) -/

/-- Apply a change to every retrieval and generation. -/
def mapServes (s : State) (f : Serve → Serve) : State :=
  { s with reqs := s.reqs.map (fun q => match q.job with | .serve v => { q with job := .serve (f v) } | _ => q) }

/-- Every retrieval and generation in order; `f` may end it. -/
def eachServe (s : State) (f : State → Req → Serve → State) : State :=
  s.reqs.foldl (fun s q => match reqOf s q.id with
    | some q => (match q.job with | .serve v => f s q v | _ => s)
    | none => s) s

/-- Item 1: ENDED sequences leave. -/
def leaveAll (s : State) : State := eachServe s (fun s q v => match v.ending with | some e => leaveSeq s q v e | none => s)

/-- Sequences that an earlier boundary inside the run has doomed end here, and with them the CANCEL that asked for it (R10, R46). -/
def endDoomed (s : State) : State :=
  eachServe s (fun s q v => match v.doomed with
    | some d =>
      let s := endServe s q (discardToken v) d.status d.detail d.flags
      (match d.cancel with
       | some c => completeId s c ⟨stOk, 0, fgTargetRunning, []⟩
       | none => s)
    | none => s)

/-- The iteration that has ended: its chunk has run, or its position is written; the first token sampled leads to DECODE. -/
def iterate (v : Serve) : Serve :=
  if v.seq = 2 then
    (match v.chunks with
     | [] => if v.fresh then { v with seq := 3 } else v
     | [c] => if v.fresh then { v with seq := 3, pos := v.pos + c, chunks := [] } else v
     | c :: r => { v with pos := v.pos + c, chunks := r })
  else if v.seq = 3 && v.fresh then { v with pos := v.pos + 1 }
  else v

/-- Item 2: a sequence whose prompt is complete and whose reservations on other members are granted enters PREFILL; the fault reserve is
then that of its TTFT deadline, and after each token that of its interval deadline (R26, R436; log 15). -/
def join (v : Serve) : Serve :=
  if v.seq = 1 && v.joinable && v.awaits.isEmpty && v.ending.isNone then { v with seq := 2, reserve := reserveOf v.ttft } else v

/-- Item 4: the segments of the step just ended. -/
def writeSegments (s : State) : State :=
  eachServe s (fun s q v =>
    let v := { v with fresh := false }
    if v.released.isEmpty then setJob s q (.serve v)
    else
      let (s1, v1) := putSegment s q v false v.released
      setJob s1 q (.serve { v1 with released := [] }))

/-! ### Changes (R9, R11) -/

/-- FIRMWARE_UPDATE: the package stands in the slot not in force, which is in force for the next start (R499). -/
def applyFirmware (s : State) : State := { s with kt := { s.kt with journal := { s.kt.journal with slot := 1 - s.kt.journal.slot } } }

/-- PROTECTION_EXPORT: its output and its length, which the model leaves free (log 13). -/
def applyExport (s : State) (q : Req) (c : Instr) : State :=
  let n := (Config.freeWord s.freeCount).toNat % 2 ^ 32
  completeReq (applyProtection (drawn s) q c) q ⟨stOk, 0, 0, [(0, 8, generationOf s), (8, 4, n)]⟩

/-- A CONFIG subfunction at its boundary; `false` when it goes on waiting for its set. -/
def applyConfig (s : State) (q : Req) (c : Instr) : State × Bool :=
  if !configStillOk s c then (completeReq s q (endWith stInvalid), true)
  else match c with
    | .recoveryMode _ mode => (configDone { s with sched := { s.sched with yalelo := mode == 1#8 } } q, true)
    | .firmwareUpdate _ _ => (configDone (applyFirmware s) q, true)
    | .protectionExport _ _ => (applyExport s q c, true)
    | .setDissolve _ _ => if inSet s && !peersAccepted s q.id then (s, false) else (applyDissolve s q, true)
    | .protectionRestore _ _ g => (applyRestore s q g, true)
    | .indexDrop _ h => (applyDrop s q h, true)
    | .indexRetain _ h n => (applyRetain s q h n, true)
    | .indexMergePolicy _ h n => (applyPolicyOf s q h n, true)
    | _ => (configDone (applyProtection s q c) q, true)

/-- A request's change; `s0` is the state in which the boundary began. -/
def applyReq (s0 s : State) (q : Req) : State × Bool :=
  match q.job with
  | .proof n => (openSession s q n, true)
  | .closing n abort => (applyClose s q n abort, true)
  | .config c => applyConfig s q c
  | .table c _ => applyTable s q c
  | .cancel t => applyCancel s q t
  | .load j => applyLoad s q j
  | .index b n _ => (applyIndex s q b n, true)
  | .delete b _ => applyDelete s0 s q b
  | .setForm b => (applySetForm s q b, true)
  | _ => (s, true)

/-- A queue pair takes its new values (R388); records held for it are still written, into its new queue (R394; log 7). -/
def applyPair (s : State) (n : Nat) : State :=
  let p := pairAt s n
  match p.commit with
  | some c =>
    let s := setPair s n { p with
      force := c, commit := none, head := 0, tail := 0, cqHead := 0, cqTail := 0, phase := true, unraised := 0 }
    if c.en && readyBit s bHostlink then drainHeld p.held.length s n else s
  | none => s

def applyExpire (s : State) (id reason : Nat) : State :=
  match s.prot.sessions.find? (fun x => x.id == id) with
  | some x => closeByChange s x reason none
  | none => s

/-- The outcomes whose records a pair of a reset queue still holds go to the log (R20). -/
def logHeld (s : State) : State :=
  s.caddy.pairs.foldl (fun s p => p.2.held.foldl (fun s c =>
    if c.status = stFault then s else logOutcome s ⟨BitVec.ofNat 8 (funcOfPair p.1), c.rid⟩ none c.status c.detail) s) s

/-- R511: every request taken through the host link ends with ST_FAULT, in the log only; its sessions close; the CD_ registers are cleared. -/
def applyLinkReset (s : State) : State :=
  let out := s.host
  let s := logHeld s
  let s := (s.reqs.filter (fun q => q.pair != sidePair)).foldl (fun s q => match reqOf s q.id with
    | some q => endRequest s q stFault dtLinkReset 0
    | none => s) s
  let s := (s.prot.sessions.filter (fun x => x.func != sideFunc)).foldl (fun s x => closeSession s x none) s
  let funcs := s.caddy.funcs.map (fun p => (p.1, { funcReset with enabled := p.2.enabled }))
  { s with
    host := out
    bi := { s.bi with done := false, pass := false, refused := false, tsite := s.bi.testing.getD 0 }
    prot := { s.prot with challenges := s.prot.challenges.filter (fun c => c.func == sideFunc) }
    caddy := ⟨[], funcs.filter (fun p => p.2 != funcReset), [], 0⟩ }

/-- A staged register field (R18): GL_CTRL with its ports, BI_CTRL. -/
def applyReg (s : State) (offset : Nat) (value : W64) : State :=
  if offset = 0x0618 then
    if s.grove.state = 1 || s.grove.state = 2 || s.grove.state = 3 then s
    else
      let old := s.grove.porten
      let new := BitVec.ofNat 8 (fld value 0 8)
      let s := { s with grove := { s.grove with porten := new, loop := bitOf value 8 } }
      (List.range 8).foldl (fun s p =>
        if bitOf old p && !bitOf new p then setPortState (setPort s p { portAt s p with width := 0 }) p 0
        else if !bitOf old p && bitOf new p then setPortState s p 1 else s) s
  else if offset = 0x0500 then { s with bi := { s.bi with pinDrain := fld value 0 20, auto := bitOf value 20 } }
  else s

/-! ### The site map (R80, R81, R429, R529) -/

/-- Distance in group number. -/
def groupGap (a b : Nat) : Nat := (a - b) + (b - a)

/-- The lowest-numbered spare of the nearest group, the lower group on a tie. -/
def nearestSpare (l : List Nat) (g : Nat) : Option Nat :=
  match l with
  | [] => none
  | x :: r => some (r.foldl (fun a b =>
      let da := groupGap (groupOfSite a) g
      let db := groupGap (groupOfSite b) g
      if db < da || (db == da && (decide (groupOfSite b < groupOfSite a) || (groupOfSite a == groupOfSite b && decide (b < a)))) then b else a) x)

/-- A logical core's place: a site, or absent; nothing of its contents moves with it (R102). -/
def putHome (s : State) (c : Nat) (h : Option Nat) : State :=
  let s := if siteOf s c = h then s else setCore s c coreOff
  { s with chip := { s.chip with homes := AMap.put none s.chip.homes c (if h = some (homeSite c) then none else some h) } }

/-- The logical core of a fenced site moves to a spare, or becomes absent. -/
def moveCore (s : State) (c : Nat) : State := putHome s c (nearestSpare (unusedSpares s) (c / 64))

/-- Every pending move. -/
def moveCores (s : State) : State :=
  let l := sortNat s.chip.moves
  l.foldl moveCore { s with chip := { s.chip with moves := [] } }

def absentCores (s : State) : List Nat :=
  (s.chip.homes.filter (fun h => h.2 == some none)).map (·.1)

/-- The absent core that a spare takes: of its group first, then of the nearest one, the lowest number first. -/
def absentFor (s : State) (p : Nat) : Option Nat :=
  match absentCores s with
  | [] => none
  | x :: r => some (r.foldl (fun a b =>
      let da := groupGap (a / 64) (groupOfSite p)
      let db := groupGap (b / 64) (groupOfSite p)
      if db < da || (db == da && decide (b < a)) then b else a) x)

/-- Absent cores take spares while two are left afterwards. -/
def fillAbsent : Nat → State → State
  | 0, s => s
  | n + 1, s =>
    match sortNat (unusedSpares s) with
    | p :: r => if 2 ≤ r.length then (match absentFor s p with | some c => fillAbsent n (putHome s c (some p)) | none => s) else s
    | [] => s

/-- R503: with fewer than two unused spares, cores of the common pool are held back, then those of the largest range, until there are two
quarantine cores. -/
def holdBack (s : State) : State :=
  let need := 2 - (unusedSpares s).length
  let pool := (List.range 512).filter (fun c => (rangeOwner s c).isNone && (siteOf s c).isSome)
  let big := ((s.glades.sets.filterMap (fun p => p.2)).foldl (fun (a : Nat × Nat) g => if a.2 < g.count then (g.first, g.count) else a) (0, 0))
  let rest := ((List.range big.2).map (· + big.1)).filter (fun c => (siteOf s c).isSome)
  { s with chip := { s.chip with heldBack := (pool ++ rest).take need } }

/-- R429: for each absent core of a range, the lowest core of the common pool. -/
def coverAbsent (s : State) : State :=
  ((List.range 8).foldl (fun (p : State × List Nat) g => match gladeOf p.1 g with
    | some x =>
      let gone := ((List.range x.count).filter (fun i => (siteOf s (x.first + i)).isNone)).length
      (putGlade p.1 g (some { x with extra := p.2.take gone }), p.2.drop gone)
    | none => p)
    (s, (List.range 512).filter (fun c => (siteOf s c).isSome
      && !s.glades.sets.any (fun p => match p.2 with | some x => decide (x.first ≤ c) && decide (c < x.first + x.count) | none => false)))).1

/-- R529: a site that passed its test is unfenced; its logical core returns when no unit runs on the spare that holds it; `false` till then. -/
def applyUnfence (s : State) (site : Nat) : State × Bool :=
  let s := dropDecision { s with chip := { s.chip with fenced := s.chip.fenced.filter (· != site) } } 1 site
  match s.chip.homes.find? (fun h => homeSite h.1 == site) with
  | none => (s, true)
  | some h =>
    if (coreOf s h.1).run.isSome then (s, false)
    else if s.chip.clearings.any (fun x => x.quarantine == some site) then (s, false)
    else if s.chip.homes.any (fun y => y.2 == some (some site)) then (s, true)
    else (putHome s h.1 (some site), true)

/-! ### Every change in acceptance order -/

/-- One change; `false` when it waits for a later boundary. -/
def applyChange (s0 s : State) : Change → State × Bool
  | .request r => (match reqOf s r with | some q => applyReq s0 s q | none => (s, true))
  | .item r n => applyItem s0 s r n
  | .snapshot h => (applySnapshot s h, true)
  | .swap h => applySwap s h
  | .pair n => (applyPair s n, true)
  | .power a b => (applyPower s a b, true)
  | .expire id reason => (applyExpire s id reason, true)
  | .linkReset => (applyLinkReset s, true)
  | .channelOut c => (applyChannelOut s c, true)
  | .moveEnd c => (applyMoveEnd s c, true)
  | .unfence p => applyUnfence s p
  | .hostScale => (applyHostScale s, true)
  | .replan l p n => (applyReplan s l p n, true)
  | .reg o v => (applyReg s o v, true)
  | .farDelete _ _ h t l => applyFarDelete s0 s h t l

/-- The change's own request is gone. -/
def changeGone (s : State) : Change → Bool
  | .request r => (reqOf s r).isNone
  | .item r _ => (reqOf s r).isNone
  | _ => false

def applyAll (s : State) : State :=
  s.changes.foldl (fun t c =>
    if changeGone t c then t
    else
      let (t1, done) := applyChange s t c
      if done || changeGone t1 c then t1 else { t1 with changes := t1.changes ++ [c] }) { s with changes := [] }

/-! ### The set (R455, R456, R464) -/

/-- Requests that the set serves end, with PEER. -/
def failSet (s : State) : State :=
  (s.reqs.filter needsSet).foldl (fun s q => match reqOf s q.id with
    | some q => endRequest s q stFault dtMemberOut fgPeer
    | none => s) s

/-- Members declared out leave at the set step boundary. -/
def membersOut (s : State) : State :=
  let l := s.grove.out.filter (presentMember s)
  if l.isEmpty then s
  else
    let s := failSet s
    let clear := fun (w : W16) => l.foldl (fun w m => putBit w m false) w
    setGroveState { s with grove := { s.grove with
      present := clear s.grove.present, ready := clear s.grove.ready
      reserves := s.grove.reserves.filter (fun r => !l.contains r.member)
      entries := s.grove.entries.filter (fun x => !l.contains x.member) } } 3

/-- A port toward the member is up. -/
def reaches (s : State) (m : Nat) : Bool :=
  match layoutOf s with
  | some (n, me) => (List.range 8).any (fun p => portUp s p && (layoutPeer n me p).1 == nextHop n me m)
  | none => false

/-- Members that are ready and reached again rejoin. -/
def membersBack (s : State) : State :=
  let l := (peersOf s).filter (fun m => !presentMember s m && readyMember s m && reaches s m)
  let s := if l.isEmpty then s else { s with grove := { s.grove with
    present := l.foldl (fun w m => putBit w m true) s.grove.present, out := s.grove.out.filter (fun m => !l.contains m) } }
  if (List.range (memberCount s)).all (presentMember s) then setGroveState s 2 else s

/-- This member's own READY bit, told to the others when it changes. -/
def ownReady (s : State) : State :=
  let me := memberIndex s
  let now := readyBit s bImage
  if readyMember s me = now then s
  else tellPeers { s with grove := { s.grove with ready := putBit s.grove.ready me now } } (if now then 11 else 12) ⟨0xFD#8, 0#64⟩

/-- The set's part of the boundary; the leader announces it. -/
def setBoundary (s : State) : State :=
  if !inSet s then s
  else
    let n := match s.grove.proposed with | some n => n | none => s.grove.step + 1
    let s := membersBack (ownReady (membersOut { s with grove := { s.grove with step := n, proposed := none } }))
    if leaderOf s = memberIndex s then (peersOf s).foldl (fun s m => sendTo s m (leBytes 1 10 ++ leBytes 8 s.grove.step)) s else s

/-- The admitted requests, in order of admission, whose Grove rate no longer fits beside the earlier ones' in their Glade (R464). -/
def unfitServes (s : State) : List ReqId :=
  (s.reqs.foldl (fun (p : AMap Nat × List ReqId) q => match q.job, q.glade.bind (gladeOf s), q.glade with
    | .serve v, some g, some n =>
      let used := AMap.get 0 p.1 n + v.grove
      if v.grove != 0 && decide (groveCapacity s g.set.grove.rate < used) then (p.1, p.2 ++ [q.id]) else (AMap.put 0 p.1 n used, p.2)
    | _, _, _ => p) ([], [])).2

/-- R464: after a lost port, requests that no longer fit the Grove rates end. -/
def endUnfit (s : State) : State :=
  if !s.grove.recheck then s
  else
    let l := unfitServes s
    let s := { s with grove := { s.grove with recheck := false } }
    l.foldl (fun s r => match reqOf s r with
      | some q => (match q.job with | .serve _ => endRequest s q stFault dtGroveCapacity 0 | _ => s)
      | none => s) s

/-! ### The plan -/

/-- Whether plans may hold work: a mesh, and every core group (R494, R558). -/
def mayWork (s : State) : Bool := readyBit s bMesh && (List.range 8).all (fun g => readyBit s (bCg g)) && s.kt.life == .running

/-- The place of a unit in the order of admission: its owner's, or the boundary's for a batch unit (R96). -/
def admitOrder (s : State) (d : UnitDesc) : Nat :=
  match d.owner.bind (reqOf s) with | some q => q.entered | none => s.sched.admits

/-- R97: units of ended requests that have not started leave the plan; what waits for them goes on (log 45). -/
def dropEnded (s : State) : State :=
  let gone := s.chip.units.filter (fun u => !u.running && !ownerStands s u.desc)
  freeGroups (gone.foldl (fun s u => releaseSuccs s u.desc.succs) { s with chip := { s.chip with
    units := s.chip.units.filter (fun u => u.running || ownerStands s u.desc) } })

/-- Second program buffers of running cores (R85). -/
def loadAheads (s : State) : State := (s.chip.cores.map (·.1)).foldl loadAhead s

/-- R201: no unit holds requests pinned to different versions of one table. -/
def sameTables (s : State) (d : UnitDesc) : Bool :=
  let pins := (d.owner.toList ++ d.members).flatMap (fun r => match reqOf s r with
    | some q => (match q.job with | .serve v => v.tables | _ => [])
    | none => [])
  pins.all (fun a => pins.all (fun b => a.1 != b.1 || a.2 == b.2))

/-- The units that a plan may hold: members on the same table versions (R201), and no layer or expert that its texts do not need (R10, R48,
R58). -/
def unitOk (s : State) (p : BoundaryPlan) (d : UnitDesc) : Bool :=
  sameTables s d && (p.work.filter (fun w => w.unit == d.unitId)).all (workOk s d)

/-- The plan's units, at most 65,536, link units and groups, and the tiles written for them (R96); the step's length and its cold experts
(R8, R59). -/
def commitPlan (s : State) (p : BoundaryPlan) : State :=
  let s := p.tiles.foldl putTileImage s
  let s := { s with sched := { s.sched with length := stepLength s (boundaryGap s), staging := stepRounds s } }
  if !mayWork s then s
  else
    let s := if p.units.isEmpty && p.links.isEmpty then s else wake s
    { s with chip := { s.chip with
      units := s.chip.units ++ ((p.units.filter (unitOk s p)).take 65536).map (fun d => ⟨d, d.preds, false, admitOrder s d⟩)
      groups := s.chip.groups ++ p.groups.map (fun g => ⟨g, 0, []⟩)
      links := s.chip.links ++ p.links.map (fun l => ⟨l.1, l.2, l.2.preds, false⟩) } }

/-! ### The boundary -/

/-- A boundary commits while controllers run, and until the secrets of a shutdown are being cleared (R516, R558); in a set, when the
leader has proposed it, which is this member itself or is heard in a BOUNDARY frame (R455). -/
def boundaryRuns (s : State) : Bool :=
  readyBit s bCtrl && (alive s || s.kt.life == .starting) && (!inSet s || leaderOf s == memberIndex s || s.grove.proposed.isSome)

/-- What is freed when nothing is pinned to it any longer, and work that Wenik starts of its own. -/
def freeAll (s : State) : State :=
  autoMerges (ensurePins (reclaim (freeImages (freeVersions (freeIndexes (freeTenants (closeDrained s)))))))

/-- Sequences at a boundary that begins an iteration, before the changes. -/
def seqsBefore (s : State) (begins : Bool) : State := if begins then mapServes (endDoomed (leaveAll s)) iterate else s

/-- Sequences after the changes: joins, then the segments of the step just ended. -/
def seqsAfter (s : State) (begins : Bool) : State := if begins then writeSegments (mapServes s join) else s

/-- The site map and the shares for the next step. -/
def sitesAfter (s : State) : State := coverAbsent (holdBack (assignShares (fillAbsent 512 (moveCores s))))

/-- Power for the next step. -/
def powerAfter (s : State) (p : BoundaryPlan) : State := choosePoint (setOver (recost (applyCut (applyPorts s)))) p.power

def boundary (s : State) (p : BoundaryPlan) : State :=
  let begins := iterationEnds s
  let s := advance s (s.sched.start + boundaryGap s - s.time)
  let s := { s with
    chip := { s.chip with step := s.chip.step + 1 }
    sched := { s.sched with start := s.time, lag := [] }
    tabs := { s.tabs with stepRows := 0 }
    media := { s.media with spareCost := s.media.spareInUse } }
  let s := dropLeaving (releaseEnded (seqsBefore s begins))
  let s := applyAll { s with sched := { s.sched with inside := !begins } }
  let s := endUnfit (setBoundary s)
  let s := nextStep (seqsAfter { s with sched := { s.sched with inside := false } } begins) begins
  let s := shareEntries (applyPending (sitesAfter (freeAll s)))
  -- reservations of requests that ended at this boundary are released at it (R26, R45)
  let s := dropEnded { s with sched := { s.sched with lag := [], admits := s.sched.admits + 1 } }
  finishAll (goAll (loadAheads (runScans (reserveRates (powerAfter (commitPlan s p) p)))) 0)

def execStepBoundary (plan : BoundaryPlan) (s : State) : Result := .next (if boundaryRuns s then boundary s plan else s)

end Sys2Proof.Machine
end

