-- ==== Sys2Proof/Machine/Start.lean ====
section
/-!
DEFINITION. Starts: the reset sources (R466, R475, R487), what each kind of reset keeps (R488), the steps of bring-up (R492 to R495), the
boot journal (R496, R497), failed starts and recovery mode (R498, R499), the watches (R500), module recovery (R507 to R510) and link
resets (R511).
-/
namespace Sys2Proof.Machine

/-! ### The Kettle's memory (R481, R496) -/

def startLogSize : Nat := 768

/-- A start-log record, which is also a kind 6 record of the error log (R496): code is the step. -/
def bootRecord (s : State) (step outcome comp alt : Nat) : State :=
  let l := s.kt.journal.log ++ [(⟨s.kt.journal.startNo, step, outcome, comp, alt, s.time / 1000⟩ : StartRec)]
  logAdd { s with kt := { s.kt with journal := { s.kt.journal with log := l.drop (l.length - startLogSize) } } }
    { logNone with kind := 6, code := step, detail := BitVec.ofNat 128 (outcome + 65536 * comp) }

/-- Times count from 0 again: the Kettle's ticks and the operating seconds are carried over. -/
def foldClock (s : State) : State := { s with kt := { s.kt with ticks := kettleTicks s, opBase := opSeconds s }, pins := { s.pins with flash := none }, time := 0 }

def setFails (s : State) (n : Nat) : State := { s with kt := { s.kt with journal := { s.kt.journal with fails := min 255 n } } }

def decided (s : State) (kind : Nat) : List Nat := (s.kt.journal.decisions.filter (fun d => d.kind == kind)).map (·.comp)

/-! ### What a reset clears (R488) -/

/-- Everything that only the running module holds, under any start: cores, the plan, registers of functions that restart. -/
def stopWork (s : State) : State :=
  { s with
    chip := { s.chip with cores := [], units := [], groups := [], links := [], clearings := [] }
    holds := []
    media := { s.media with waits := [] }
    sched := { s.sched with start := 0, length := 0, runAt := 0, runOf := 1, staging := [], lag := [], inside := false }
    power := { s.power with disagree := false, deep := false, skipping := [] }
    grove := { s.grove with
      step := 0, present := 0#16, ready := 0#16, state := 0, ports := [], forming := none, accepts := [], commits := [], verifies := [], failed := []
      reserves := [], entries := [], told := [], proposed := none, out := [], recheck := false }
    rc := ⟨false, false, false, none⟩
    bi := { s.bi with done := false, pass := false, refused := false, tsite := 0, testing := none }
    under := { s.under with scans := [] }
    tabs := { s.tabs with samples := [], stepRows := 0, applying := [], replaces := [], waits := [] }
    kt := { s.kt with shut := none, run := none, boot := none, complete := false, cleared := false } }

/-- T2 loses what it holds: its tiles, and every index part, image and table there. -/
def loseT2 (s : State) : State :=
  { s with
    media := { s.media with
      bytes := s.media.bytes.filter (fun p => decide (t3Base * tileBytes ≤ p.1))
      tiles := s.media.tiles.filter (fun p => decide (t3Base ≤ p.1)), channels := [], spareInUse := [], spareCost := [], unprotected := [] }
    tabs := ⟨[], [], [], [], [], 0, [], [], s.tabs.numbers, []⟩
    images := { s.images with current := none, outgoing := none, unit0 := 0, unit1 := 0 } }

/-- The T2 key of R237. -/
def newT2Key (s : State) : State :=
  let (s, n) := drawXtsKey (dropKey s s.keys.t2Key) .t2 none none
  { s with keys := { s.keys with t2Key := n } }

/-- Sessions and their keys, objects and outputs are gone; keys that T3 contents need stay (R488). -/
def endSessions (s : State) : State :=
  { s with
    prot := { s.prot with sessions := [], challenges := [] }
    keys := { s.keys with
      handles := s.keys.handles.filter (fun p => match p.2 with | some v => v.purpose != .session && v.purpose != .object && v.purpose != .link | none => false)
      objects := [], outputs := [] } }

/-- A durable index with its latest snapshot and its journal (R307). -/
def revived (i : Index) : Index :=
  let j := restoredIndex i
  { j with current := ((j.versions.getLast?).map (·.num)).getD 0 }

/-- At a cold start: durable indexes wait for T3, and one that only T2 held is gone. -/
def coldIndexes (s : State) : State :=
  let l := s.idx.loaded.filter (fun i => i.snapshot.isSome && !i.dropped && !s.idx.flashOnly.any (fun x => x.handle == i.handle))
  { s with idx := { s.idx with
      loaded := [], flashOnly := s.idx.flashOnly ++ l.map restoredIndex } }

/-- Durable indexes are restored when T3 is ready (R307, R493). -/
def restoreDurable (s : State) : State :=
  { s with idx := { s.idx with
      loaded := s.idx.loaded ++ (s.idx.flashOnly.filter (fun i => isDurable i.body)).map revived
      flashOnly := s.idx.flashOnly.filter (fun i => !isDurable i.body) } }

/-- After a scrub: durable indexes are restored, others are lost until INDEX_DROP (R510). -/
def scrubIndexes (s : State) : State :=
  { s with idx := { s.idx with loaded := s.idx.loaded.map (fun i =>
      if i.current = 0 then i
      else if isDurable i.body && i.snapshot.isSome then { revived i with dropped := i.dropped }
      else { i with lost := true, merge := none, versions := i.versions.map (fun v => { v with states := [⟨0, []⟩] }) }) } }

/-- A cold start: nothing but the Kettle, T3, the store bank and the site map is kept. -/
def clearCold (s : State) : State :=
  let s := coldIndexes (loseT2 (endSessions (stopWork s)))
  { s with
    chip := { s.chip with moves := [], heldBack := [], step := 0 }
    log := ⟨[], 0⟩
    keys := { s.keys with handles := s.keys.handles.filter (fun p => match p.2 with
      | some v => v.purpose == .passage || v.purpose == .atRest || v.purpose == .t2
      | none => false) }
    prot := { s.prot with closed := [], fails := [], locks := [], dying := [] }
    caddy := ⟨[], [], [], 0⟩
    side := { s.side with running := false, out := [] }
    reqs := []
    changes := []
    regs := []
    glades := { s.glades with hostCap := 98000 }
    power := { s.power with sust := 3000, peak := 3000, sustShadow := 3000, peakShadow := 3000, cut := none, warning := false, overLimit := false, worst := [] }
    bi := { s.bi with wanted := [], queue := [] }
    kt := { s.kt with crash := none } }

/-- Loss of Kettle power: what the shadow does not hold is gone, and the store bank with it. -/
def loseKettle (s : State) : State :=
  let s := shadowHours s
  let s := coldIndexes (loseT2 (endSessions (stopWork s)))
  { s with
    chip := { s.chip with homes := [], fenced := [], moves := [], heldBack := [], step := 0 }
    log := ⟨[], 0⟩
    keys := { s.keys with
      t2Key := 0
      handles := s.keys.handles.filter (fun p => match p.2 with | some v => v.purpose == .passage || v.purpose == .atRest | none => false) }
    tap := { s.tap with instr := .idcode }
    prot := { s.prot with store := none, closed := [], fails := [], locks := [], dying := [] }
    glades := ⟨[], [], 98000⟩
    caddy := ⟨[], [], [], 0⟩
    side := ⟨0, [], false, [], false, false, false, []⟩
    reqs := []
    changes := []
    regs := []
    sched := ⟨0, 0, 0, 1, [], false, [], false, 0⟩
    grove := Grove.reset
    bi := { SelfTest.reset with fails := s.bi.fails }
    power := { s.power with
      sust := 3000, peak := 3000, sustShadow := 3000, peakShadow := 3000, cut := none, warning := false, overLimit := false, worst := [], tripped := false }
    kt := { s.kt with
      life := .off, ready := 0#64, good := false, latch := false, ticks := 0, fallback := false, scratch := 0#64, step := 0, cause := 0
      opBase := 3600 * max s.kt.shadowHours s.kt.otpHours, ctrls := [], summary := none, crash := none }
    time := 0 }

/-! ### Module recovery (R507 to R510) -/

/-- The abandoned online test is recorded as not run (R529). -/
def abandonTest (s : State) : State :=
  match s.bi.testing with
  | some p =>
    let l := s.kt.bist.ring ++ [(p, 0, opSeconds s)]
    { s with kt := { s.kt with bist := { s.kt.bist with ring := l.drop (l.length - 228) } }, bi := { s.bi with testing := none } }
  | none => s

/-- A change accepted before the freeze that no request of the in-flight list stands behind. -/
def keptChange : Change → Bool
  | .pair _ => true
  | .power _ _ => true
  | .linkReset => true
  | .channelOut _ => true
  | .moveEnd _ => true
  | .unfence _ => true
  | .hostScale => true
  | .reg _ _ => true
  | _ => false

/-- The recovery summary (R507). -/
def writeSummary (s : State) (cause : Nat) : State :=
  let l := s.log.recs.map (·.seq)
  { s with kt := { s.kt with summary := some ⟨cause, s.chip.step, l.drop (l.length - 64)⟩ } }

/-- The freeze: the summary, in Yalelo mode the dump, and what each mode keeps. The requests in flight stay to be reported. -/
def freeze (s : State) (kind : StartKind) (cause : Nat) : State :=
  let s := abandonTest (writeSummary s cause)
  let dump := if kind = .yalelo then some (s.kt.journal.startNo, s.reqs.map (·.id)) else s.kt.crash
  let s := stopWork s
  let s := { s with
    kt := { s.kt with crash := dump }
    changes := s.changes.filter keptChange
    idx := { s.idx with loaded := s.idx.loaded.map (fun i => { i with merge := none }) }
    media := { s.media with channels := s.media.channels.filter (fun c => match c.2 with | .live _ => false | _ => true) }
    prot := { s.prot with fails := s.prot.fails.map (fun f => (f.1, f.2.1, 0)) }
    tabs := { s.tabs with hot := [] } }
  if kind = .yalelo then scrubIndexes (loseT2 s) else s

/-- R509: once T2 is usable, every request of the in-flight list ends; the sessions are closed. -/
def reportAll (s : State) : State :=
  let s := s.reqs.foldl (fun s q => match reqOf s q.id with | some q => endRequest s q stFault dtRecovery 0 | none => s) s
  endSessions s

/-! ### The steps (R492) -/

/-- Step 1 and the clearing of a new attempt: start number, cause, marks (R481), the test of the last run's marks. -/
def step1 (s : State) (r : StartReport) : State :=
  { s with
    kt := { s.kt with unorderly := s.kt.unorderly || s.kt.running, running := true }
    pins := { s.pins with slotId := r.slotId } }

/-- R525: what the last BIST found acts on the start. -/
def actBist (s : State) : State :=
  if !s.kt.bist.fresh then s
  else
    let s := s.kt.bist.sites.foldl (fun s p =>
      if p.2.1 = 1 then dropDecision { s with bi := { s.bi with fails := AMap.put 0 s.bi.fails p.1 0 } } 1 p.1
      else if p.2.1 = 0 then s else addDecision s 1 0 p.1) s
    let bad := (s.kt.bist.parts.filter (fun p => p.2.1 == 2 || p.2.1 == 3 || p.2.1 == 4)).map (·.1)
    let s := (bad.filter (fun p => decide (p < 4))).foldl (fun s c => addDecision s 6 0 c) s
    let s := if s.kt.bist.shared then setFails { s with kt := { s.kt with unorderly := true } } (max 3 s.kt.journal.fails) else s
    { s with kt := { s.kt with bist := { s.kt.bist with fresh := false } } }

/-- A new attempt begins. -/
def enter (s : State) (kind : StartKind) (cause : Nat) (r : StartReport) : State :=
  let ticks := kettleTicks s
  let s := if alive s || s.kt.life == .starting then foldClock s else { s with kt := { s.kt with ticks := ticks }, time := 0 }
  let s := if kind = .cold then clearCold s else s
  let s := { s with
    kt := { s.kt with
      life := .starting, cause := cause, lastStart := s.kt.ticks, step := if kind = .cold then 1 else 4
      powerOns := s.kt.powerOns + (if kind = .cold && cause == 1 then 1 else 0)
      journal := { s.kt.journal with startNo := s.kt.journal.startNo + 1 } } }
  let s := if kind = .cold then step1 s r else s
  let s := if kind = .cold && (cause == 1 || cause == 2) then { s with tap := { s.tap with cut := false } } else s
  actBist s

/-- Controllers that run: those neither fenced nor failing now. -/
def controllersUp (s : State) (r : StartReport) : List Nat := (List.range 4).filter (fun c => !(decided s 6).contains c && !r.controllers.contains c)

/-- A power-on start tries the fenced controllers again (R497 item 3). -/
def startControllers (s : State) (r : StartReport) : List Nat :=
  if s.kt.cause = 1 then (List.range 4).filter (fun c => !r.controllers.contains c) else controllersUp s r

/-- A power-on start tries what was left out again: the entries of components that pass are removed (R497 item 1). -/
def dropPassed (s : State) (kind : Nat) (keep : List Nat) : State :=
  if s.kt.cause = 1 then putDecisions s (s.kt.journal.decisions.filter (fun d => d.kind != kind || keep.contains d.comp)) else s

/-- The step that fails, among the steps that the start runs. -/
def failsAt (s : State) (kind : StartKind) (low : Bool) (r : StartReport) : Option Nat :=
  match r.failStep with
  | some n =>
    if (kind == .cold && (n == 2 || n == 3)) || n == 4 || (!low && (n == 7 || n == 8 || n == 11)) then some n
    else if (startControllers s r).isEmpty then some 4 else none
  | none => if (startControllers s r).isEmpty then some 4 else none

def fenceControllers (s : State) (r : StartReport) : State :=
  r.controllers.foldl (fun s c => if decide (c < 4) && !(decided s 6).contains c then addDecision s 6 0 c else s) (dropPassed s 6 r.controllers)

/-- The bins decided; a power-on start tries every stack at 10 Gb/s again, but for those that this series of attempts has lowered (R497). -/
def binsNow (s : State) (tried : List Nat) : AMap Nat :=
  s.kt.journal.decisions.foldl (fun m d => if d.kind = 2 && (s.kt.cause != 1 || tried.contains d.comp) then AMap.put 0 m d.comp d.value else m) []

/-- The bin a stack starts at next: one bin lower (R238). -/
def lowerBin (tried : List Nat) (s : State) (k : Nat) : State :=
  if 12 ≤ k then s else addDecision s 2 (min 2 (AMap.get 0 (binsNow s tried) k + 1)) k

/-- A step fails (R498): what was found before it is kept for the next start, and FAILS rises. -/
def failStart (s : State) (r : StartReport) (tried : List Nat) (n outcome : Nat) : State :=
  let s := if 4 < n then fenceControllers s r else s
  let s := if n = 11 then r.stackList.foldl (lowerBin tried) (r.sites.foldl (fun s p => addDecision s 1 0 p) s) else s
  let s := if n = 4 then { s with kt := { s.kt with journal := { s.kt.journal with slot := 1 - s.kt.journal.slot } } } else s
  setFails (bootRecord { s with kt := { s.kt with step := n } } n outcome 0 0) (s.kt.journal.fails + 1)

/-- R364, R426: the store of a module at its first start, with regulator set 8. -/
def initialStore (s : State) : StoreImage :=
  let r := fun (n : Nat) => (⟨n / 10, 1048576⟩ : RateDepth)
  ⟨⟨1, none, [], [], policyDefault, none, []⟩,
    [(8, some ⟨⟨8, 0, 0, 0, r offeredT2, r (offeredT3 s), r offeredGrove, r 98000, r 98000⟩, none, 0, 0, []⟩)], []⟩

/-- Step 5 (R495). -/
def step5 (s : State) : State :=
  match s.prot.store with
  | some t => loadStore s (storeImage s t)
  | none => if s.kt.vaultCounter = 0 then loadStore s (initialStore s) else s

/-- Steps 1 to 6: readiness of the Kettle, vault, controllers and store. The link was up before a module recovery and trains again. -/
def early (s : State) (kind : StartKind) (low link : Bool) (r : StartReport) : State :=
  let s := fenceControllers s r
  let up := startControllers s r
  let s := { s with kt := { s.kt with ctrls := if low then up.take 1 else up } }
  let s := setReady (setReady (setReady s bKettle true) bVault true) bCtrl true
  let s := setFunc s 0 { funcAt s 0 with enabled := true }
  let s := if kind = .cold then newT2Key (step5 s) else setReady s bStore s.prot.store.isSome
  let s := if low then (List.range 8).foldl (fun s g => setFunc s (g + 1) { funcAt s (g + 1) with enabled := false }) s else s
  let s := if link then flushHeld (flushVecs (setReady s bHostlink true)) else s
  let steps := if kind = .cold then [1, 2, 3, 4, 5, 6] else [4, 5, 6]
  let s := steps.foldl (fun s n => bootRecord s n (if n = 4 && !r.controllers.isEmpty then 1 else 0) 0 0) s
  { s with kt := { s.kt with step := 6 } }

/-- Recovery mode (R499). -/
def recoveryNow (s : State) (kind : StartKind) (tried : List Nat) (r : StartReport) : State :=
  let s := setReady s bRecovery true
  { s with kt := { s.kt with life := .recovery, boot := some ⟨kind, false, r, tried⟩ } }

/-- Steps 7 and 8. -/
def middle (s : State) : State :=
  let s := setReady (setReady (bootRecord (bootRecord s 7 0 0 0) 8 0 0 0) bPll true) bMesh true
  { s with kt := { s.kt with step := 8 } }

/-- Step 10: fences in force, the logical cores of fenced sites on spares, the swept table (R79, R80, R484). -/
def step10 (s : State) (r : StartReport) : State :=
  let s := (r.sites.filter (fun p => decide (p < 528) && !(decided s 1).contains p)).foldl (fun s p => addDecision s 1 0 p) s
  let fenced := sortNat (decided s 1)
  let s := { s with chip := { s.chip with fenced := fenced, homes := if fenced.isEmpty then [] else s.chip.homes } }
  let s := { s with chip := { s.chip with moves := fenced.filterMap (coreAt s) } }
  let s := sitesAfter s
  let points := (List.range 33).map (fun n => let v := r.vf.getD n (vfAt s n).volt; (⟨min 48 (max v (Config.freshVolt n)), decide (v ≤ 48), false, 0⟩ : VfPoint))
  let s := recost { s with power := { s.power with points := points, ports := portsEnabled s } }
  let s := (List.range 8).foldl (fun s g => setReady s (bCg g) true) s
  bootRecord s 10 (if r.sites.isEmpty then 0 else 1) (r.sites.headD 0) 0

/-- One T2 channel left out at a start: the spare area of its stack carries it, or it is served by reconstruction (R242, R492). -/
def leaveOut (s : State) (c : Nat) : State :=
  let st := stackOfChannel c
  if s.media.spareInUse.contains st then
    setChan { s with media := { s.media with unprotected := setHas s.media.unprotected st } } c .retired
  else setChan { s with media := { s.media with spareInUse := setHas s.media.spareInUse st } } c .rebuilt

/-- Step 11. After a native recovery T2 keeps its channels as they stand. -/
def step11 (s : State) (kind : StartKind) (tried : List Nat) (r : StartReport) : State :=
  let s := dropPassed (dropPassed s 3 r.channels) 2 tried
  let new := r.channels.filter (fun c => decide (c < 384) && !(decided s 3).contains c)
  let s := new.foldl (fun s c => addDecision s 3 0 c) s
  let s := if kind = .native then new.foldl retireChannel s else (sortNat (decided s 3)).foldl leaveOut s
  let s := { s with media := { s.media with bins := binsNow s tried, trained := List.range 12, spareCost := s.media.spareInUse } }
  let s := setReady ((List.range 12).foldl (fun s k => setReady s (bStack k) true) s) bT2 true
  bootRecord s 11 (if r.channels.isEmpty then 0 else 1) (r.channels.headD 0) 0

/-- Step 12: the flash channels, the store where R495 calls for it, and the durable indexes. -/
def step12 (s : State) (r : StartReport) : State :=
  if !s.flash then s
  else
    let s := dropPassed s 4 r.flash
    let new := r.flash.filter (fun c => decide (c < channels) && !(decided s 4).contains c)
    let s := new.foldl (fun s c => addDecision s 4 0 c) s
    let out := sortNat (decided s 4)
    let moved := s.under.moved.filter out.contains
    let s := out.foldl applyChannelOut { s with under := { s.under with out := [], moved := moved } }
    let s := match s.prot.store, s.prot.flashCopy with
      | none, some i => if r.storeInT3 && decide (s.kt.vaultCounter ≤ i.store.generation) then loadStore s i else s
      | _, _ => s
    bootRecord (restoreDurable (setReady s bT3 true)) 12 (if r.flash.isEmpty then 0 else 1) (r.flash.headD 0) 0

/-- The replicas of a directory entry hold its home bytes again and are VALID (R194). -/
def fillReplicas (s : State) (home : Nat) (e : HotRow) : State :=
  let bytes := devBytes s home e.stride
  let ok := (List.range 12).filter (replicaUsable s e)
  let s := ok.foldl (fun s k => setDevBytes s (writeBytes s.media.bytes (replicaBase k + e.offset) bytes)) s
  putHot s home (some { e with lock := [], repl := (List.range 12).map (fun k => if ok.contains k then .valid else .absent) })

/-- Step 13: the preserved image, after a native recovery only (R72, R194). -/
def step13 (s : State) (kind : StartKind) (r : StartReport) : State :=
  match s.images.current with
  | some i =>
    if kind != .native then bootRecord s 13 2 0 0
    else if !r.imageOk || !i.damaged.isEmpty then
      bootRecord { s with images := { s.images with current := some { i with damaged := setHas i.damaged 0 } } } 13 3 0 0
    else
      let s := ensurePins s
      let s := (hotList s).foldl (fun s p => fillReplicas s p.1 p.2) s
      let s := setReady { s with images := { s.images with unit0 := i.serial, unit1 := i.serial } } bText true
      bootRecord (setReady s bImage true) 13 0 0 0
  | none => bootRecord s 13 2 0 0

/-- Step 14: the ports train; a member of a set waits to rejoin it (R464). -/
def step14 (s : State) (r : StartReport) : State :=
  let s := dropPassed s 5 r.ports
  let new := r.ports.filter (fun p => decide (p < 8) && !(decided s 5).contains p)
  let s := new.foldl (fun s p => addDecision s 5 0 p) s
  let s := (List.range 8).foldl (fun s p => if bitOf s.grove.porten p && !(decided s 5).contains p && !s.tap.cut then setPortState s p 1 else s) s
  let s := match storedSet s with
    | some b => setGroveState { s with grove := { s.grove with
        present := putBit 0#16 b.index true, out := (List.range b.n).filter (· != b.index) } } 3
    | none => s
  bootRecord s 14 (if r.ports.isEmpty then 0 else 1) (r.ports.headD 0) 0

/-- Steps 10 to 14, and the start is complete. -/
def late (s : State) (kind : StartKind) (tried : List Nat) (r : StartReport) : State :=
  let s := step11 (step10 s r) kind tried r
  let s := if kind = .cold then s else reportAll s
  let s := if kind = .yalelo then newT2Key s else s
  let s := step14 (step13 (step12 s r) kind r) r
  let s := setFails s 0
  { s with
    kt := { s.kt with
      life := .running, complete := true, boot := none, step := 14
      journal := { s.kt.journal with lastComplete := kettleTicks s } } }

/-- The start waits at step 9 for its BIST, whose clearing comes first (R526). -/
def pauseForBist (s : State) (kind : StartKind) (full : Bool) (tried : List Nat) (r : StartReport) : State :=
  { s with kt := { s.kt with step := 9, boot := some ⟨kind, full, r, tried⟩ } }

/-- Steps 2 to 14 of one attempt; `false` when it fails. A BIST at start comes before the stacks train. -/
def runSteps (s : State) (kind : StartKind) (full link : Bool) (tried : List Nat) (r : StartReport) : State × Bool :=
  let low := decide (3 ≤ s.kt.journal.fails) && !full
  let bist := kind = .cold && s.kt.unorderly && !low
  match failsAt s kind low r with
  | some n => if n = 11 && bist then (pauseForBist (middle (early s kind low link r)) kind full tried r, true) else (failStart s r tried n 3, false)
  | none =>
    let s := early s kind low link r
    if low then (recoveryNow s kind tried r, true)
    else
      let s := middle s
      if bist then (pauseForBist s kind full tried r, true)
      else (late (if kind = .cold then bootRecord s 9 2 0 0 else s) kind tried r, true)

/-- The stacks lowered once an attempt has failed. -/
def triedAfter (tried : List Nat) (kind : StartKind) (low : Bool) (s : State) (r : StartReport) : List Nat :=
  if failsAt s kind low r = some 11 then tried ++ r.stackList else tried

/-- The report of a start that finds nothing wrong. -/
def cleanReport (s : State) : StartReport := ⟨none, [], [], [], [], [], [], true, true, s.power.points.map (·.volt), s.pins.slotId⟩

/-- Attempts in turn, each with what it finds; past the list nothing fails. A failed start begins another of the same kind and cause. -/
def runStarts (kind : StartKind) (cause : Nat) (link : Bool) : Bool → List Nat → List StartReport → State → State
  | full, tried, [], s => (runSteps (enter s kind cause (cleanReport s)) kind full link tried (cleanReport s)).1
  | full, tried, r :: l, s =>
    let s := enter s kind cause r
    let (t, ok) := runSteps s kind full link tried r
    if ok then t else runStarts kind cause link false (triedAfter tried kind false s r) l t

/-- KT_READY falls to the bits of the functions that keep running; each change is reported (R416). -/
def dropReady (s : State) (keep : W64) : State := setReadyWord s (s.kt.ready &&& keep)

def kettleOnlyBits : W64 := 1#64
def recoveryBits : W64 := 3#64

/-- A cold start. -/
def coldStart (s : State) (cause : Nat) (full : Bool) (l : List StartReport) : State := runStarts .cold cause false full [] l (dropReady s kettleOnlyBits)

/-! ### Interrupted self-tests (R527) -/

/-- A BIST under way is recorded as interrupted; the groups done keep their results. -/
def interruptBist (s : State) : State :=
  if s.kt.run.isSome then { s with kt := { s.kt with bist := { s.kt.bist with kind := 3, startNo := s.kt.journal.startNo }, run := none } }
  else s

/-! ### Power (R466) -/

/-- Every rail but the Kettle's stops. -/
def toKettleOnly (s : State) : State :=
  let s := dropReady (foldClock (interruptBist s)) kettleOnlyBits
  let s := coldIndexes (loseT2 (endSessions (stopWork s)))
  { s with
    caddy := { s.caddy with pairs := [] }
    side := { s.side with running := false, out := [] }
    reqs := []
    changes := []
    log := ⟨[], 0⟩
    kt := { s.kt with life := .kettleOnly, boot := none } }

/-- KT_READY KETTLE, once the always-on domain runs. -/
def kettleUp (s : State) : State := setReady s bKettle true

/-- Power-good begins a power-on start; recovery mode is kept unless the Kettle had lost power (R499). -/
def execPowerGoodAssert (starts : List StartReport) (s : State) : Result :=
  .next (if s.kt.good || s.kt.latch then s
    else
      let off := s.kt.life == .off
      let s := { s with kt := { s.kt with good := true }, time := if off then 0 else s.time }
      if s.kt.life = .held then s else coldStart (kettleUp s) 1 off starts)

def execPowerGoodLoss (s : State) : Result :=
  .next (if !s.kt.good then s
    else
      let held := s.kt.life = .held
      let t := toKettleOnly { s with kt := { s.kt with good := false } }
      if held then { t with kt := { t.kt with life := .held } } else t)

/-- Above 62.0 V every rail stops, the Kettle's included; beyond the ratings of R531 nothing is defined (R532). -/
def execOvervoltageStop (millivolts : Nat) (s : State) : Result :=
  if 72000 < millivolts then .fault .damaged
  else if millivolts ≤ 62000 then .next s
  else
    let t := loseKettle (interruptBist s)
    .next { t with kt := { t.kt with latch := true } }

/-- Below 20.0 V the Kettle loses power, and the latch of an overvoltage stop clears. -/
def execKettlePowerLoss (s : State) : Result := .next (loseKettle (interruptBist s))

/-! ### MRST_N, PERST_N and the host link (R487, R511) -/

def execMrstNHeld (s : State) : Result :=
  .next (if !kettlePowered s || s.kt.life == .held then s
    else
      let t := toKettleOnly s
      { t with kt := { t.kt with life := .held } })

def execMrstNRelease (starts : List StartReport) (s : State) : Result :=
  .next (if s.kt.life != .held then s
    else
      let t := { s with kt := { s.kt with life := .kettleOnly } }
      if t.kt.good then coldStart t 2 (decide (3 ≤ t.kt.journal.fails)) starts else t)

/-- The link goes down: HOSTLINK is clear at once, the rest at the next boundary (R511). -/
def linkReset (s : State) : State :=
  if !alive s || s.changes.contains .linkReset then s else addChange (dropReady s (~~~(1#64 <<< bHostlink))) .linkReset

def execPerstNAssert (s : State) : Result :=
  .next (linkReset { s with pins := { s.pins with perst := true } })

/-- With the rails stopped and the input good, PERST_N begins a cold start; otherwise the link may train again. -/
def execPerstNDeassert (starts : List StartReport) (s : State) : Result :=
  .next (
    let was := s.pins.perst
    let s := { s with pins := { s.pins with perst := false } }
    if was && s.kt.life == .kettleOnly && s.kt.good then coldStart s 3 false starts else s)

def execHotReset (s : State) : Result := .next (if readyBit s bHostlink then linkReset s else s)

def execLinkDown (refclkLost : Bool) (s : State) : Result :=
  .next (
    let t := if refclkLost then { s with pins := { s.pins with refclk := false } } else s
    if readyBit t bHostlink then linkReset t else t)

/-- The link trains: capacities follow speed and width (R382, R426, R445). A reset that has not reached its boundary yet comes first. -/
def execHostLinkTrained (hostRate : Nat) (s : State) : Result :=
  .next (if !alive s || s.pins.perst || readyBit s bHostlink || s.tap.cut || s.changes.contains .linkReset then s
    else
      let s := setReady { s with
        pins := { s.pins with refclk := true }
        glades := { s.glades with hostCap := min 98000 hostRate } } bHostlink true
      let s := flushHeld (flushVecs s)
      if s.glades.hostCap < sumRates s (·.hostOut) || s.glades.hostCap < sumRates s (·.hostIn) then addChange s .hostScale else s)

/-! ### THERMTRIP (R475) -/

def execThermtrip (junction : Int) (s : State) : Result :=
  .next (
    let s := { s with power := { s.power with junction := junction } }
    if junction < 1150 || !kettlePowered s || s.kt.life == .kettleOnly then s
    else
      let held := s.kt.life == .held
      let t := toKettleOnly s
      { t with power := { t.power with tripped := true }, kt := { t.kt with life := if held then .held else .kettleOnly } })

/-! ### Recovery and failed starts (R487, R498, R500) -/

/-- Recovery mode of the module: native, or Yalelo (R6). -/
def recoveryKind (s : State) : StartKind := if s.sched.yalelo then .yalelo else .native

/-- A fault that ends the running module, or fails the start that is not complete. -/
def failureStart (s : State) (cause outcome : Nat) (starts : List StartReport) : State :=
  if clearingNow s then s
  else if s.kt.life = .running then
    let kind := recoveryKind s
    runStarts kind cause (readyBit s bHostlink && !s.pins.perst) false [] starts (dropReady (freeze s kind cause) recoveryBits)
  else match s.kt.boot with
    | some b =>
      if s.kt.life = .starting || s.kt.life = .recovery then
        let t := setFails (bootRecord (interruptBist s) s.kt.step outcome 0 0) (s.kt.journal.fails + 1)
        runStarts b.kind s.kt.cause (readyBit s bHostlink && !s.pins.perst) false b.tried starts
          (dropReady t (if b.kind = .cold then kettleOnlyBits else recoveryBits))
      else s
    | none => s

def execKettleWatchdog (starts : List StartReport) (s : State) : Result := .next (failureStart s 5 4 starts)
def execAllControllersSilent (starts : List StartReport) (s : State) : Result := .next (failureStart s 8 3 starts)
def execBoundaryStall (starts : List StartReport) (s : State) : Result := .next (failureStart s 8 3 starts)
def execWenikConsistencyFailure (starts : List StartReport) (s : State) : Result := .next (failureStart s 8 3 starts)

/-- One controller stops: it is fenced and the others take over. -/
def execControllerHeartbeatLoss (controller : Nat) (s : State) : Result :=
  .next (if !alive s || !s.kt.ctrls.contains controller || s.kt.ctrls.length ≤ 1 then s
    else
      let s := addDecision s 6 0 controller
      { s with kt := { s.kt with ctrls := s.kt.ctrls.filter (· != controller) } })

/-- Double faults that leave Wenik's own structures without a copy (R506). -/
def moduleFault (s : State) : State := failureStart s 7 3 []

/-- RC_DEVRESET: a module recovery; in recovery mode, and before a start is complete, a full start attempt. -/
def deviceReset (s : State) (value : W64) (starts : List StartReport) : State :=
  if fld value 0 32 != 0xD15E || clearingNow s then s
  else if s.kt.life = .running then failureStart s 6 3 starts
  else if s.kt.life = .recovery || s.kt.life = .starting then coldStart (interruptBist s) 6 true starts
  else s

end Sys2Proof.Machine
end

