-- ==== Sys2Proof/Machine/Doubles.lean ====
section
/-!
DEFINITION. Commands that can meet a double fault on a program tile, which module recovery answers (R214, R506): a unit's start, a memory
response, the scrub.
-/
namespace Sys2Proof.Machine

/-- A T2 tile that holds the program of a committed unit. -/
def programTile (s : State) (key : Nat) : Bool :=
  s.chip.units.any (fun u => (programTiles u.desc).contains key)

/-- A POISONED tile of the unit's program. -/
def poisonedProgram (s : State) (d : UnitDesc) : Bool :=
  (programTiles d).any (fun t => dState (tileDesc s t) == tilePoisoned)

/-- R96, R214: the unit starts when it is ready and no ready unit that contends for the core goes before it; a program tile that cannot be
restored is a double fault on Wenik's own structures. -/
def execUnitStart (core : CoreId) (unitId : Nat) (s : State) : Result :=
  .next (match s.chip.units.find? (fun u => u.desc.unitId == unitId) with
    | some u =>
      if !unitReady s core.toNat u || !unitFirst s core.toNat u then s
      else if poisonedProgram s u.desc then moduleFault s
      else startUnit s core.toNat u.desc
    | none => s)

/-- Programs, which Wenik's own structures count among: one that is lost ends in a module recovery (R506). -/
def watchPrograms (s : State) : State := if s.chip.units.any (fun u => poisonedProgram s u.desc) then moduleFault s else s

/-- The tile that a response of this engine answers for. -/
def responseTile (s : State) (core : Nat) (e : EngineId) (idx : Nat) : Option Nat :=
  let k := coreOf s core
  match e with
  | .g => (gatherFlight k idx).map (fun p => p.2.copy / tileBytes)
  | .q => (scanFlight k idx).bind (fun p => (pendingTiles k p.1 p.2).head?)
  | .c => (copyFlight k idx).map (fun p => copyTile p.2)
  | .x => xFlightTile k
  | _ => none

def execMemoryResponse (core : CoreId) (e : EngineId) (idx : Nat) (q : ReadQuality) (s : State) : Result :=
  .next (match (coreOf s core.toNat).run with
    | none => s
    | some r =>
      let s := match responseTile s core.toNat e idx with | some t => if t3Base ≤ t then pageOp s else s | none => s
      watchPrograms (goAll (responseStep s core.toNat e idx q r) core.toNat))

/-- R244: the scrub of what it found. -/
def execT2Scrub (found : List (Nat × ReadQuality)) (s : State) : Result :=
  .next (if alive s then watchPrograms (goAll (scrubFound s found) 0) else s)

/-- R242: a corrected-error rate above 1,000 per second for 60 s. -/
def execT2CorrectedRateWatch (channel rate : Nat) (s : State) : Result :=
  .next (if decide (channel < 384) && decide (1000 < rate) then watchPrograms (goAll (retireChannel s channel) 0) else s)

end Sys2Proof.Machine
end

