-- ==== Sys2Proof/Machine/Shutdown.lean ====
section
/-!
DEFINITION. Orderly shutdown (R414, R514 to R519), the logic BIST at shutdown and at start (R520 to R527), and the online test (R505,
R528, R529).
-/
namespace Sys2Proof.Machine

/-! ### Starting and draining (R414, R514 to R516) -/

/-- The SHUTDOWN request of the shutdown under way, or none when the pin asked for it. -/
def shutReq (s : State) : Option ReqId := s.kt.shut.bind (·.req)

/-- Phase 2: the remaining requests end with ST_CANCELLED, SHUTDOWN completes last, the sessions close, and the secrets are being
cleared; what the cleared stores held is gone (R516, R517). -/
def drainEnd (s : State) : State :=
  match s.kt.shut with
  | none => s
  | some x =>
    if x.clearing then s
    else
      let s := (s.reqs.filter (fun q => some q.id != x.req)).foldl (fun s q => match reqOf s q.id with
        | some q => endRequest s q stCancelled 0 0
        | none => s) s
      let s := match x.req with | some r => completeId s r (endWith stOk) | none => s
      let s := s.prot.sessions.foldl (fun s y => closeSession s y none) (abandonTest s)
      let s := dropReady s (1#64 <<< bKettle ||| 1#64 <<< bHostlink)
      let s := loseT2 (endSessions (stopWork s))
      { s with
        keys := { s.keys with
          t2Key := 0
          handles := s.keys.handles.filter (fun p => match p.2 with | some v => v.purpose == .passage || v.purpose == .atRest | none => false) }
        changes := []
        under := { s.under with scans := [] }
        kt := { s.kt with shut := some { x with clearing := true }, complete := true } }

/-- A shutdown begins: in abort mode the drain ends at once. -/
def beginShutdown (s : State) (r : Option ReqId) (abort : Bool) (limit : Nat) : State :=
  let s := { s with kt := { s.kt with shut := some ⟨r, abort, limit, false⟩ } }
  if abort then drainEnd s else s

def shutdownGo (s : State) (h : MsgHead) (mode : Byte) (limitMs : Nat) (c : Ctx) : State :=
  if !formOk h false || decide (1 < mode.toNat) || decide (600000 < limitMs) then refuse s h c (endWith stInvalid)
  else if !isOwner c.sess then refuse s h c (endWith stDenied)
  else if s.kt.shut.isSome then refuse s h c (endWith stInvalid)
  else
    let abort := mode == 1#8
    beginShutdown (acceptReq s h c opShutdown none none (.shutdown abort)) (some ⟨h.func, h.rid⟩) abort limitMs

def execShutdown (h : MsgHead) (mode : Byte) (limitMs : Nat) (s : State) : Result :=
  .next (message s h opShutdown .opened false (fun s c => shutdownGo s h mode limitMs c))

/-- PINDRAIN as it acts (R530). -/
def pinLimit (s : State) : Nat := min s.bi.pinDrain 600000

/-- SHDN_REQ_N held for 1 ms: a drain with the limit of PINDRAIN, an abort when that is 0; during a drain, the earlier limit counts, and
during BIST at start the start is abandoned (R514, R515, R527). -/
def execShdnReqNHeld (s : State) : Result :=
  .next (
    if s.kt.life = .starting then toKettleOnly s
    else if !alive s then s
    else match s.kt.shut with
      | none => beginShutdown s none (pinLimit s == 0) (pinLimit s)
      | some x =>
        if pinLimit s = 0 then drainEnd s
        else { s with kt := { s.kt with shut := some { x with limit := min x.limit (pinLimit s) } } })

/-- The drain limit has passed, or nothing is left to drain. -/
def execShutdownDrainEnd (s : State) : Result := .next (drainEnd s)

/-! ### Clearing (R517 to R519, R526) -/

/-- A start waits for its BIST, and nothing has been cleared yet. -/
def bistWaits (s : State) : Bool := s.kt.life == .starting && s.kt.boot.isSome && s.kt.step == 9 && s.kt.run.isNone

/-- A word was not zero: scan is never enabled, and the rails are stopped. -/
def clearFail (s : State) : State :=
  let n := s.kt.journal.startNo
  let s := { s with kt := { s.kt with cleared := false, bist := { s.kt.bist with kind := 0, startNo := n, duration := 0, clearFail := true, shared := false, sites := [], parts := [] } } }
  toKettleOnly s

/-- Every store reads back zero: CLEARED is set, the memories and links are off, and the BIST begins with group 0. -/
def beginBist (s : State) (atStart : Bool) : State :=
  let s := if atStart then s else dropReady s kettleOnlyBits
  { s with kt := { s.kt with cleared := true, run := some ⟨atStart, 0⟩ } }

def execZeroizationDone (clean : Bool) (s : State) : Result :=
  .next (
    if clearingNow s && s.kt.run.isNone then (if clean then beginBist s false else clearFail s)
    else if bistWaits s then (if clean then beginBist s true else clearFail s)
    else s)

/-! ### BIST (R520 to R526) -/

def sitesOfGroup (g : Nat) : List Nat := (List.range 528).filter (fun p => groupOfSite p == g)

/-- The result of a site or partition: what failed, or a pass; an unlisted signature is the golden one. -/
def bistResult (fails : List (Nat × Nat)) (n : Nat) : Nat := ((fails.find? (fun f => f.1 == n)).map (·.2)).getD 1
def bistMisr (misrs : List (Nat × W64)) (n golden : Nat) : W64 := ((misrs.find? (fun f => f.1 == n)).map (·.2)).getD (Config.goldenMisr golden)

/-- The Understory partitions are not tested on the 0T variant (R523). -/
def partTested (s : State) (n : Nat) : Bool := s.flash || (n != 12 && n != 13)

/-- Site records of a group. -/
def recordGroup (s : State) (r : BistRun) (fails : List (Nat × Nat)) (misrs : List (Nat × W64)) : State :=
  let sites := (sitesOfGroup r.next).foldl (fun m p =>
    AMap.put (0, 0, 0) m p (bistResult fails p, if r.atStart then 1 else 0, fld (bistMisr misrs p 0) 0 32)) s.kt.bist.sites
  { s with kt := { s.kt with bist := { s.kt.bist with sites := sites }, run := some { r with next := r.next + 1 } } }

/-- Partition records, and whether they make a shared-logic failure. -/
def recordParts (s : State) (fails : List (Nat × Nat)) (misrs : List (Nat × W64)) : State :=
  let parts := (List.range 16).foldl (fun m p =>
    if partTested s p then AMap.put (0, 0) m p (bistResult fails p, (bistMisr misrs p (p + 1)).toNat) else AMap.put (0, 0) m p (0, 0)) []
  let bad := fun (p : Nat) => partTested s p && bistResult fails p != 1
  let shared := (List.range 16).any (fun p => decide (4 ≤ p) && bad p) || (List.range 4).all bad
  { s with kt := { s.kt with bist := { s.kt.bist with parts := parts, shared := shared } } }

/-- The header of a complete run; its duration is a measurement. -/
def bistHeader (s : State) (kind : Nat) : State :=
  let n := (Config.freeWord s.freeCount).toNat % 65536
  let s := drawn s
  { s with kt := { s.kt with bist := { s.kt.bist with kind := kind, startNo := s.kt.journal.startNo, duration := n, clearFail := false, fresh := true } } }

/-- Phases 6 and 7: an orderly shutdown is recorded, the running mark is cleared, and only the Kettle's rail stays. -/
def orderlyEnd (s : State) : State :=
  let s := toKettleOnly (shadowHours { s with kt := { s.kt with run := none, cleared := false } })
  { s with kt := { s.kt with lastShut := 1, running := false } }

/-- A complete BIST at start: the results act at once; a shared-logic failure ends the start (R526). -/
def startBistEnd (s : State) (b : Boot) (starts : List StartReport) : State :=
  let bad := s.kt.bist.shared
  let s := actBist { s with kt := { s.kt with run := none, cleared := false, unorderly := bad } }
  if bad then
    let s := bootRecord { s with kt := { s.kt with boot := none } } 9 3 0 0
    runStarts b.kind s.kt.cause false false b.tried starts (dropReady s kettleOnlyBits)
  else
    let s := bootRecord s 9 0 0 0
    match failsAt s b.kind false b.report with
    | some n =>
      let t := failStart { s with kt := { s.kt with boot := none } } b.report b.tried n 3
      runStarts b.kind s.kt.cause false false (triedAfter b.tried b.kind false s b.report) starts (dropReady t kettleOnlyBits)
    | none => late s b.kind b.tried b.report

def execBistGroupDone (fails : List (Nat × Nat)) (misrs : List (Nat × W64)) (starts : List StartReport) (s : State) : Result :=
  .next (match s.kt.run with
    | none => s
    | some r =>
      if r.next < 8 then recordGroup s r fails misrs
      else
        let s := bistHeader (recordParts s fails misrs) (if r.atStart then 2 else 1)
        if r.atStart then (match s.kt.boot with | some b => startBistEnd s b starts | none => s) else orderlyEnd s)

/-! ### Online test (R505, R528, R529) -/

def noteTest (s : State) (done refused : Bool) : State :=
  { s with bi := { s.bi with done := s.bi.done || done, refused := s.bi.refused || refused } }

/-- BI_ONLINE: refused for a site that is not fenced, while a test runs, and in recovery mode. -/
def onlineRequest (s : State) (site : Nat) : State :=
  if !alive s then s
  else if s.kt.life == .recovery || s.bi.testing.isSome || !s.chip.fenced.contains site then noteTest s false true
  else { s with bi := { s.bi with wanted := setHas s.bi.wanted site } }

/-- The next site to test: one asked for, or the first of the queue when ONLINEAUTO is set; two failures in a row end the queueing. -/
def nextTest (s : State) : Option Nat :=
  match s.bi.wanted.find? s.chip.fenced.contains with
  | some p => some p
  | none => if s.bi.auto then s.bi.queue.find? (fun p => s.chip.fenced.contains p && decide (AMap.get 0 s.bi.fails p < 2)) else none

/-- The test starts once its 7.1 W fit under the limit; the fenced site wakes for it (R103). -/
def execOnlineTestStart (s : State) : Result :=
  .next (
    if s.kt.life != .running || clearingNow s || s.bi.testing.isSome then s
    else match nextTest s with
      | none => s
      | some p =>
        if 10 * s.power.sust < 10 * powerHeld s + 71 then s
        else setCore { s with bi := { s.bi with
          testing := some p, tsite := p, wanted := s.bi.wanted.filter (· != p), queue := s.bi.queue.filter (· != p) } } (512 + p) { coreOff with power := .issuing })

/-- The site is power-gated again (R103). The result goes to the ring and to the site's record; a passing site is unfenced at the next
boundary, a failing one is queued again until its second failure in a row. -/
def execOnlineTestDone (passed memoryFail : Bool) (misr : W32) (s : State) : Result :=
  .next (match s.bi.testing with
    | none => s
    | some p =>
      let ok := passed && !memoryFail
      let code := if ok then 1 else if memoryFail then 3 else 2
      let ring := s.kt.bist.ring ++ [(p, code, opSeconds s)]
      let n := if ok then 0 else AMap.get 0 s.bi.fails p + 1
      let s := { setCore s (512 + p) coreOff with
        kt := { s.kt with bist := { s.kt.bist with
          ring := ring.drop (ring.length - 228), sites := AMap.put (0, 0, 0) s.kt.bist.sites p (code, 2, misr.toNat) } }
        bi := { s.bi with
          testing := none, done := true, pass := ok, fails := AMap.put 0 s.bi.fails p n
          queue := if !ok && decide (n < 2) then s.bi.queue ++ [p] else s.bi.queue } }
      if ok then addChange s (.unfence p) else s)

end Sys2Proof.Machine
end

