-- ==== Sys2Proof/Machine/Registers.lean ====
section
/-!
DEFINITION. Registers and their accesses: the map of BAR0 (R18, R385, R387, R416 to R420, R465, R530), commits and doorbells (R388, R389,
R394, R418), block resets (R491), the interrupt of a pair, configuration requests (R383), and the sideband (R421, R422, R539).
-/
namespace Sys2Proof.Machine

/-! ### Commits and doorbells -/

/-- The function exists and the host reaches it. -/
def reached (s : State) (f : Nat) : Bool := readyBit s bHostlink && alive s && (funcAt s f).enabled

/-- R388, items 1 to 4. -/
def commitDisagrees (f : Nat) (c : PairCfg) : Bool :=
  (c.en && (c.sq == 0#64 || c.cq == 0#64)) || !(decide (4 ≤ c.sqLog) && decide (c.sqLog ≤ 12) && decide (4 ≤ c.cqLog) && decide (c.cqLog ≤ 12))
    || (c.en && !(decide (1 ≤ c.vec) && decide (c.vec ≤ pairsOf f))) || decide (c.cqLog < c.sqLog)

/-- A write of GO to CD_QCOMMIT of the selected pair. -/
def commitPair (s : State) (f : Nat) : State :=
  match pairNumber f (funcAt s f).qsel with
  | none => s
  | some n =>
    let p := pairAt s n
    let bad := commitDisagrees f p.shadow
    let busy := p.active && inflight s n != 0
    if bad || busy then setPair s n { p with disagree := p.disagree || bad, busy := p.busy || busy }
    else
      let s := setPair s n { p with commit := some p.shadow }
      if s.changes.contains (.pair n) then s else addChange s (.pair n)

def execCdQcommit (func : Byte) (value : W64) (s : State) : Result :=
  .next (if reached s func.toNat && bitOf value 0 then commitPair s func.toNat else s)

/-- CD_SQDB. -/
def submitBell (s : State) (f loc : Nat) (value : W64) : State :=
  match pairNumber f loc with
  | none => s
  | some n =>
    let p := pairAt s n
    if !p.active then s
    else if p.sqSize ≤ fld value 0 12 then setPair s n { p with baddb := true }
    else setPair s n { p with tail := fld value 0 12 }

/-- CD_CQDB: the head moves and held records are written. -/
def completeBell (s : State) (f loc : Nat) (value : W64) : State :=
  match pairNumber f loc with
  | none => s
  | some n =>
    let p := pairAt s n
    if !p.active then s
    else if p.cqSize ≤ fld value 0 12 then setPair s n { p with baddb := true }
    else drainHeld p.held.length (setPair s n { p with cqHead := fld value 0 12 }) n

def execCdSqdb (func : Byte) (pair : Nat) (value : W64) (s : State) : Result :=
  .next (if reached s func.toNat then submitBell s func.toNat pair value else s)
def execCdCqdb (func : Byte) (pair : Nat) (value : W64) (s : State) : Result :=
  .next (if reached s func.toNat then completeBell s func.toNat pair value else s)

/-- PW_COMMIT (R418): the pair takes effect at the next boundary, and wakes the module from DEEP IDLE (R477). -/
def commitPower (s : State) : State :=
  let a := s.power.sustShadow
  let b := s.power.peakShadow
  if 1200 ≤ a && decide (a ≤ b) && decide (b ≤ 3000) then addChange (wake s) (.power a b)
  else { s with power := { s.power with disagree := true } }

def execPwCommit (value : W64) (s : State) : Result :=
  .next (if kettlePowered s && bitOf value 0 then commitPower s else s)

def execFirmwareDeviceReset (value : W64) (starts : List StartReport) (s : State) : Result := .next (deviceReset s value starts)

/-! ### Block resets (R419, R491) -/

/-- TYPE, INDEX and ENGINE name a block. -/
def blockNamed (s : State) (type index engine : Nat) : Bool :=
  match type with
  | 1 => decide (index < 512) && (siteOf s index).isSome
  | 2 => decide (index < 512) && (siteOf s index).isSome && decide (engine ≤ 6)
  | 3 => decide (index < 8)
  | 4 => decide (index < 384)
  | 5 => s.flash && decide (index < channels)
  | _ => false

/-- No unit is assigned to the core, and the plan starts none on it at once. -/
def coreIdle (s : State) (c : Nat) : Bool :=
  (coreOf s c).run.isNone && !s.chip.moves.contains c
    && !s.chip.units.any (fun u => u.desc.core.toNat == c && (u.running || u.left == 0))

def formedSet (s : State) : Bool := s.grove.state == 2 || s.grove.state == 3

def blockIdle (s : State) (type index : Nat) : Bool :=
  match type with
  | 1 => coreIdle s index
  | 2 => coreIdle s index
  | 3 => (portAt s index).state == 0 || (portAt s index).state == 4 || (portAt s index).state == 5 || !formedSet s
  | 4 => (match chanOf s index with | .live _ => false | _ => true)
  | _ => (AMap.get none s.under.out index).isSome

/-- A write to RC_BLOCK: refused, or in progress until the block's reset is done. -/
def blockReset (s : State) (type index engine : Nat) : State :=
  if !alive s || s.rc.block.isSome then s
  else if !blockNamed s type index engine then { s with rc := { s.rc with badSel := true } }
  else if !blockIdle s type index then { s with rc := { s.rc with notIdle := true } }
  else { s with rc := { s.rc with block := some (type, index, engine) } }

def execBlockResetCore (index : W16) (s : State) : Result := .next (blockReset s 1 index.toNat 0)
def execBlockResetEngine (index : W16) (engine : BitVec 4) (s : State) : Result := .next (blockReset s 2 index.toNat engine.toNat)
def execBlockResetGrovePort (index : W16) (s : State) : Result := .next (blockReset s 3 index.toNat 0)
def execBlockResetT2Channel (index : W16) (s : State) : Result := .next (blockReset s 4 index.toNat 0)
def execBlockResetFlashChannel (index : W16) (s : State) : Result := .next (blockReset s 5 index.toNat 0)

/-- The queue, contexts and registers of one engine. -/
def clearEngine (k : Core) (engine : Nat) : Core :=
  let k := { k with flights := k.flights.filter (fun f => f.word.engine != engine) }
  match engine with
  | 0 => { k with active := planeEmpty, shadow := planeEmpty, arrayOn := false }
  | 1 => { k with scalars := [] }
  | 3 => { k with lookups := 0 }
  | 4 => { k with colls := [] }
  | _ => k

/-- A T2 or flash channel's retraining and self-test, logged; one that passes is returned to service by the next start (R491, R497). -/
def channelTest (s : State) (flash : Bool) (c : Nat) : State :=
  let ok := Config.freeSelfTest s.freeCount
  let s := if ok then dropDecision (drawn s) (if flash then 4 else 3) c else drawn s
  if flash then t3Event s (if ok then 4 else 5) c else t2Event s (if ok then 3 else 4) c

/-- The effect of a block reset. -/
def blockEffect (s : State) (type index engine : Nat) : State :=
  match type with
  | 1 => setCore s index coreOff
  | 2 => setCore s index (clearEngine (coreOf s index) engine)
  | 3 => if bitOf s.grove.porten index && !s.tap.cut then retrain s index else s
  | 4 => channelTest s false index
  | _ => channelTest { s with under := { s.under with scans := s.under.scans.filter (fun x => x.channel != index) } } true index

def execBlockResetDone (s : State) : Result :=
  .next (match s.rc.block with
    | some (t, i, e) =>
      let s := blockEffect s t i e
      { s with rc := { s.rc with done := true, block := none } }
    | none => s)

def execBiOnline (site : BitVec 10) (s : State) : Result := .next (if reached s 0 then onlineRequest s site.toNat else s)

/-! ### Reads (R18, R385) -/

def w64 (n : Nat) : W64 := BitVec.ofNat 64 n
def bitNat (b : Bool) (i : Nat) : Nat := if b then 2 ^ i else 0

/-- CD_ registers, doorbells and the MSI-X structures of a function. -/
def readCaddy (s : State) (f off : Nat) : W64 :=
  let x := funcAt s f
  let p := match pairNumber f x.qsel with | some n => pairAt s n | none => { pairReset with force := ⟨0#64, 0#64, 0#64⟩ }
  let n := (pairNumber f x.qsel).getD 65
  if off = 0x0000 then w64 (1 + f * 2 ^ 16 + pairsOf f * 2 ^ 24)
  else if off = 0x0008 then s.kt.ready
  else if off = 0x0010 then w64 x.qsel
  else if off = 0x0018 then p.force.sq
  else if off = 0x0020 then p.force.cq
  else if off = 0x0028 then p.force.qcfg
  else if off = 0x0038 then
    w64 (bitNat p.disagree 0 + bitNat p.busy 1 + bitNat p.active 2 + bitNat (!p.held.isEmpty) 3 + bitNat p.baddb 4 + inflight s n % 65536 * 2 ^ 16)
  else if off = 0x0040 then w64 (bitNat x.readychg 0 + bitNat x.gladechg 1)
  else if 0x2000 ≤ off && decide (off < 0x2000 + 16 * (pairsOf f + 1)) then
    let v := vecAt s f ((off - 0x2000) / 16)
    if off % 16 = 0 then v.addr else if off % 16 = 8 then w64 (v.data.toNat + bitNat v.masked 32) else 0#64
  else if off = 0x3000 then w64 (((List.range (pairsOf f + 1)).map (fun v => bitNat (vecAt s f v).pending v)).foldl (· + ·) 0)
  else 0#64

/-- Failing or skipped sites of the last run. -/
def siteFails (s : State) : Nat := (s.kt.bist.sites.filter (fun p => p.2.1 == 2 || p.2.1 == 3 || p.2.1 == 4)).length

/-- The PF's own registers. -/
def readModule (s : State) (off : Nat) : W64 :=
  if off = 0x0100 then s.kt.ready
  else if off = 0x0108 then w64 (s.kt.step + s.kt.journal.fails * 2 ^ 8 + s.kt.cause * 2 ^ 16)
  else if off = 0x0110 then w64 (bitNat s.flash 0)
  else if off = 0x0118 then s.kt.scratch
  else if off = 0x0200 then w64 s.power.sust
  else if off = 0x0208 then w64 s.power.peak
  else if off = 0x0218 then w64 (bitNat s.power.disagree 0)
  else if off = 0x0220 then w64 ((Config.freeWord s.freeCount).toNat % 2 ^ 32)
  else if off = 0x0310 then w64 (bitNat s.rc.done 0 + bitNat s.rc.notIdle 1 + bitNat s.rc.badSel 2)
  else if off = 0x0400 then
    w64 (bitNat s.prot.store.isSome 0 + bitNat (s.prot.store.bind (·.owner)).isSome 1 + generationOf s % 2 ^ 32 * 2 ^ 32)
  else if off = 0x0500 then w64 (s.bi.pinDrain + bitNat s.bi.auto 20)
  else if off = 0x0508 then
    let b := s.kt.bist
    w64 (b.kind + bitNat b.shared 2 + bitNat b.clearFail 3 + siteFails s * 2 ^ 4 + b.duration % 65536 * 2 ^ 16 + b.startNo % 65536 * 2 ^ 32)
  else if off = 0x0518 then
    w64 (bitNat s.bi.done 0 + bitNat s.bi.pass 1 + bitNat s.bi.testing.isSome 2 + bitNat s.bi.refused 3 + s.bi.tsite * 2 ^ 4)
  else if off = 0x0600 then
    (match memberSet s with
     | some b => w64 (b.setId + b.n * 2 ^ 32 + b.index * 2 ^ 40 + leaderOf s * 2 ^ 44 + s.grove.state * 2 ^ 48)
     | none => w64 (s.grove.state * 2 ^ 48))
  else if off = 0x0608 then w64 (s.grove.present.toNat + s.grove.ready.toNat * 2 ^ 16)
  else if off = 0x0610 then w64 s.grove.step
  else if off = 0x0618 then w64 (s.grove.porten.toNat + bitNat s.grove.loop 8)
  else if 0x0640 ≤ off && decide (off < 0x0680) && off % 8 == 0 then
    let p := portAt s ((off - 0x0640) / 8)
    w64 (p.state + p.width * 2 ^ 3 + p.peer * 2 ^ 8 + p.peerPort * 2 ^ 12 + p.laneFail.toNat * 2 ^ 16 + p.retrains * 2 ^ 24)
  else if 0x0680 ≤ off && decide (off < 0x06C0) && off % 8 == 0 then
    let p := portAt s ((off - 0x0680) / 8)
    w64 (bitNat p.lane 0 + bitNat p.lost 1 + bitNat p.auth 2 + bitNat p.miscable 3 + bitNat p.retry 4 + p.resent * 2 ^ 32)
  else 0#64

/-- Offsets of the PF that VFs do not have. -/
def pfOnly (off : Nat) : Bool := decide (0x0100 ≤ off) && decide (off < 0x0800)

/-- What a read of 8 bytes returns: the value in force; 0 for WO registers and unlisted offsets. -/
def readReg (s : State) (f off : Nat) : W64 := if pfOnly off then (if f = 0 then readModule s off else 0#64) else readCaddy s f off

/-! ### Writes (R17, R18) -/

/-- A 4-byte access replaces the addressed half. -/
def merge (old value : W64) : Option Bool → W64
  | none => value
  | some false => (old &&& 0xFFFFFFFF00000000#64) ||| (value &&& 0xFFFFFFFF#64)
  | some true => (old &&& 0xFFFFFFFF#64) ||| (value &&& 0xFFFFFFFF00000000#64)

/-- The bits that a W1C write clears. -/
def ones (value : W64) (half : Option Bool) : W64 := merge 0#64 value half

/-- A new shadow of the selected pair. -/
def putShadow (s : State) (f : Nat) (g : PairCfg → PairCfg) : State :=
  match pairNumber f (funcAt s f).qsel with
  | some n => setPair s n { pairAt s n with shadow := g (pairAt s n).shadow }
  | none => s

def baseMask : W64 := ~~~0xFFF#64
def qcfgMask : W64 := 0xF01FF#64

/-- W1C bits of CD_QSTAT. -/
def clearQstat (s : State) (f : Nat) (w : W64) : State :=
  match pairNumber f (funcAt s f).qsel with
  | some n =>
    let p := pairAt s n
    setPair s n { p with disagree := p.disagree && !bitOf w 0, busy := p.busy && !bitOf w 1, baddb := p.baddb && !bitOf w 4 }
  | none => s

/-- An MSI-X entry (R382): address, data and the mask bit. -/
def writeVec (s : State) (f v : Nat) (second : Bool) (value : W64) (half : Option Bool) : State :=
  let x := vecAt s f v
  if second then
    let w := merge (w64 (x.data.toNat + bitNat x.masked 32)) value half
    let s := setVec s f v { x with data := BitVec.ofNat 32 (fld w 0 32), masked := true }
    if bitOf w 32 then s else unmask s f v
  else setVec s f v { x with addr := merge x.addr value half }

/-- The part of the map that every function has. -/
def writeCaddy (s : State) (f off : Nat) (half : Option Bool) (value : W64) : State :=
  let go := half.isNone
  if off = 0x0010 then setFunc s f { funcAt s f with qsel := fld (merge (w64 (funcAt s f).qsel) value half) 0 3 }
  else if off = 0x0018 then putShadow s f (fun c => { c with sq := merge c.sq value half &&& baseMask })
  else if off = 0x0020 then putShadow s f (fun c => { c with cq := merge c.cq value half &&& baseMask })
  else if off = 0x0028 then putShadow s f (fun c => { c with qcfg := merge c.qcfg value half &&& qcfgMask })
  else if off = 0x0030 then (if go && bitOf value 0 then commitPair s f else s)
  else if off = 0x0038 then clearQstat s f (ones value half)
  else if off = 0x0040 then
    let x := funcAt s f
    let w := ones value half
    setFunc s f { x with readychg := x.readychg && !bitOf w 0, gladechg := x.gladechg && !bitOf w 1 }
  else if 0x1000 ≤ off && decide (off < 0x1100) && off % 8 == 0 then
    (if !go then s else if off % 16 = 0 then submitBell s f ((off - 0x1000) / 16) value else completeBell s f ((off - 0x1000) / 16) value)
  else if 0x2000 ≤ off && decide (off < 0x2000 + 16 * (pairsOf f + 1)) && off % 8 == 0 then
    writeVec s f ((off - 0x2000) / 16) (off % 16 == 8) value half
  else s

/-- The value a staged register takes at the next boundary, or holds now. -/
def stagedReg (s : State) (off : Nat) : W64 :=
  match s.changes.reverse.find? (fun c => match c with | .reg o _ => o == off | _ => false) with
  | some (.reg _ v) => v
  | _ => readModule s off

/-- The PF's own registers. -/
def writeModule (s : State) (off : Nat) (half : Option Bool) (value : W64) : State :=
  let go := half.isNone
  let w := ones value half
  if off = 0x0118 then { s with kt := { s.kt with scratch := merge s.kt.scratch value half } }
  else if off = 0x0200 then { s with power := { s.power with sustShadow := fld (merge (w64 s.power.sustShadow) value half) 0 16 } }
  else if off = 0x0208 then { s with power := { s.power with peakShadow := fld (merge (w64 s.power.peakShadow) value half) 0 16 } }
  else if off = 0x0210 then (if go && bitOf value 0 then commitPower s else s)
  else if off = 0x0218 then { s with power := { s.power with disagree := s.power.disagree && !bitOf w 0 } }
  else if off = 0x0300 then (if go then deviceReset s value [] else s)
  else if off = 0x0308 then (if go then blockReset s (fld value 0 8) (fld value 8 16) (fld value 24 4) else s)
  else if off = 0x0310 then
    { s with rc := { s.rc with done := s.rc.done && !bitOf w 0, notIdle := s.rc.notIdle && !bitOf w 1, badSel := s.rc.badSel && !bitOf w 2 } }
  else if off = 0x0500 then addChange s (.reg off (merge (stagedReg s off) value half))
  else if off = 0x0510 then (if go then onlineRequest s (fld value 0 10) else s)
  else if off = 0x0518 then { s with bi := { s.bi with done := s.bi.done && !bitOf w 0, refused := s.bi.refused && !bitOf w 3 } }
  else if off = 0x0618 then
    (if s.grove.state = 1 || formedSet s then s else addChange s (.reg off (merge (stagedReg s off) value half)))
  else if 0x0680 ≤ off && decide (off < 0x06C0) && off % 8 == 0 then
    let n := (off - 0x0680) / 8
    let p := portAt s n
    setPort s n { p with
      lane := p.lane && !bitOf w 0, lost := p.lost && !bitOf w 1, auth := p.auth && !bitOf w 2, miscable := p.miscable && !bitOf w 3
      retry := p.retry && !bitOf w 4 }
  else s

def writeReg (s : State) (f off : Nat) (half : Option Bool) (value : W64) : State :=
  if pfOnly off then (if f = 0 then writeModule s off half value else s) else writeCaddy s f off half value

/-- A host write; `half` names the addressed half of a 4-byte access, whose bits stand in their place in the value. -/
def execRegisterWrite (func : Byte) (offset : W16) (half : Option Bool) (value : W64) (s : State) : Result :=
  .next (if reached s func.toNat then writeReg s func.toNat offset.toNat half value else s)

/-! ### Interrupts and configuration requests -/

/-- The vector of a pair with records written since its last raise (R394). -/
def execMsixRaise (pair : Nat) (s : State) : Result :=
  .next (
    let p := pairAt s pair
    if 64 ≤ pair || p.unraised = 0 then s
    else raiseVec (setPair s pair { p with unraised := 0 }) (funcOfPair pair) p.force.vec)

/-- CRS until a controller runs; a VF that does not exist does not answer. -/
def execPcieConfigRequest (func : Byte) (s : State) : Result :=
  .next (
    let f := func.toNat
    if !kettlePowered s || decide (8 < f) then s
    else if !readyBit s bCtrl then { s with host := s.host ++ [.config f true] }
    else if (funcAt s f).enabled then { s with host := s.host ++ [.config f false] }
    else s)

/-! ### The sideband (R421, R422, R539) -/

/-- Registers that the sideband may select: KT_, PW_, RC_ and VL_. -/
def sideReg (off : Nat) : Bool := decide (0x0100 ≤ off) && decide (off < 0x0500) && off % 8 == 0

/-- The target answers while the Kettle has power, and acts on transactions whose PEC holds. -/
def sideActs (s : State) (pecOk : Bool) : Bool := pecOk && kettlePowered s

def answer (s : State) (b : List Byte) : State := { s with host := s.host ++ [.smbus b] }

def execRegAddr (offset : W16) (pecOk : Bool) (s : State) : Result :=
  .next (if sideActs s pecOk && sideReg offset.toNat then { s with side := { s.side with reg := offset.toNat } } else s)

/-- A read draws the measurement that PW_DRAW shows. -/
def execRegData (write : Option W64) (pecOk : Bool) (s : State) : Result :=
  .next (if !sideActs s pecOk then s
    else match write with
      | some v => if sideReg s.side.reg then writeReg s 0 s.side.reg none v else s
      | none =>
        let w := if sideReg s.side.reg then readReg s 0 s.side.reg else 0#64
        answer (if s.side.reg = 0x0220 then drawn s else s) (leBytes 8 w.toNat))

def bufferLimit : Nat := 65536

def execMsgPut (bytes : List Byte) (pecOk : Bool) (s : State) : Result :=
  .next (if !sideActs s pecOk || bytes.isEmpty || decide (255 < bytes.length) then s
    else if bufferLimit < s.side.buffer.length + bytes.length then { s with side := { s.side with overflow := true } }
    else { s with side := { s.side with buffer := s.side.buffer ++ bytes } })

/-- The buffer goes to Wenik as one message, unless one runs or its reply is pending. -/
def execMsgGo (pecOk : Bool) (s : State) : Result :=
  .next (if !sideActs s pecOk then s
    else if s.side.running || !s.side.reply.isEmpty then { s with side := { s.side with overflow := true } }
    else { s with side := { s.side with running := true, buffer := [], overflow := false } })

def execMsgGet (pecOk : Bool) (s : State) : Result :=
  .next (if !sideActs s pecOk then s
    else answer { s with side := { s.side with reply := s.side.reply.drop 255 } } (s.side.reply.take 255))

def execMsgStat (pecOk : Bool) (s : State) : Result :=
  .next (if !sideActs s pecOk then s
    else answer s (leBytes 2 (bitNat (!s.side.reply.isEmpty) 0 + bitNat s.side.overflow 1 + s.side.buffer.length / 4 % 16384 * 4)))

/-- The Alert Response Address read: the target that asserts the alert answers with its address, and deasserts it. -/
def execSmbusAlertResponse (s : State) : Result :=
  .next (if !kettlePowered s || !s.side.alert then s
    else answer { s with side := { s.side with alert := false, ready := false } } (leBytes 1 (2 * (0x40 + s.pins.slotId.toNat))))

/-- The bus is released and the transaction abandoned: a transaction acts only when it is complete, so nothing changes. -/
def execSmbClkTimeout (s : State) : Result := .next s

end Sys2Proof.Machine
end

