-- ==== Sys2Proof/Machine/Pins.lean ====
section
/-!
DEFINITION. The test access port (R518, R540, R541), the service indicator and the output pins (R475, R535, R536).
-/
namespace Sys2Proof.Machine

def tapSelect (s : State) (i : TapInstr) : State := if kettlePowered s then { s with tap := { s.tap with instr := i } } else s

/-- A Grove port goes down. -/
def portDown (s : State) (p : Nat) : State :=
  if portUp s p || (portAt s p).state == 1 then
    let s := setPortState (setPort s p { portAt s p with width := 0 }) p 0
    { s with grove := { s.grove with recheck := true } }
  else s

/-- An instruction that disconnects the pins: host link and Grove ports are down until a cold start by MRST_N or power-on (R541). -/
def tapCut (s : State) (i : TapInstr) : State :=
  if !kettlePowered s then s
  else
    let s := { s with tap := { s.tap with instr := i, cut := true } }
    let s := if readyBit s bHostlink then linkReset s else s
    (List.range 8).foldl portDown s

def execBypass (s : State) : Result := .next (tapSelect s .bypass)
def execIdcode (s : State) : Result := .next (tapSelect s .idcode)

/-- The cells take the preloaded values. -/
def execSamplePreload (cells : List Bool) (s : State) : Result :=
  .next (if kettlePowered s then { s with tap := { s.tap with instr := .sample, cells := cells } } else s)

def execExtest (s : State) : Result := .next (tapCut s .extest)
def execClamp (s : State) : Result := .next (tapCut s .clamp)
def execHighz (s : State) : Result := .next (tapCut s .highz)
def execExtestPulse (s : State) : Result := .next (tapCut s .extestPulse)
def execExtestTrain (s : State) : Result := .next (tapCut s .extestTrain)

/-- A private instruction that reaches internal scan is refused while CLEARED is 0 (R518). -/
def execInternalScanInstruction (s : State) : Result := .next (if s.kt.cleared then tapSelect s .scan else s)

/-- TRST_N low: the test logic is reset; pins that an instruction has disconnected stay so (R490, R541). -/
def execTestLogicReset (s : State) : Result := .next (tapSelect s .idcode)

def execLocateN (low : Bool) (s : State) : Result := .next { s with pins := { s.pins with locate := low } }

/-! ### Output pins (R475, R490, R535, R536, R541) -/

/-- Wenik has configured the GPIO pins: from step 4 of a start on. Until then they are inputs with pull-ups. -/
def gpioConfigured (s : State) : Bool := s.kt.life == .running || s.kt.life == .recovery || (s.kt.life == .starting && decide (4 ≤ s.kt.step))

/-- The function of an output pin of R536: high is true. -/
def gpioFunction (s : State) (n : Nat) : Bool :=
  match n with
  | 0 => readyBit s bCtrl && readyBit s bT2 && !readyBit s bRecovery
  | 1 => !readyBit s bRecovery
  | 2 => !s.power.warning
  | 3 => !s.power.deep
  | 4 => match s.pins.flash with | some t => decide (s.time < t + 20000) | none => false
  | _ => !s.under.out.any (fun c => c.2.isSome)

/-- GPIO[0] to GPIO[5] at the connector. `none`: a boundary cell holds the pin (R541), or it is not connected (R547). -/
def gpioLevel (s : State) (n : Nat) : Option Bool :=
  if s.tap.cut || ((n == 4 || n == 5) && !s.flash) then none
  else if s.kt.life = .off then some false
  else if gpioConfigured s then some (gpioFunction s n)
  else some (!(n == 3 && s.kt.life == .kettleOnly))

/-- THERMTRIP_N is held low until P48V is removed; SMB_ALERT_N is low while its alert stands. -/
def thermtripN (s : State) : Bool := !s.power.tripped
def smbAlertN (s : State) : Bool := !s.side.alert

end Sys2Proof.Machine
end

