-- ==== Sys2Proof/Machine/Dispatch.lean ====
section
/-!
DEFINITION. One arm for each command: a direct call of its meaning.
-/
namespace Sys2Proof.Machine

def exec (i : Instr) (s : State) : Host.Outcome State Fault Refusal :=
  match i with
  | .nop core h o => Sys2Proof.Machine.execNop core h o s
  | .endUnit core h o => Sys2Proof.Machine.execEndUnit core h o s
  | .loop core h o => Sys2Proof.Machine.execLoop core h o s
  | .slotfree core h o => Sys2Proof.Machine.execSlotfree core h o s
  | .tokclr core h o => Sys2Proof.Machine.execTokclr core h o s
  | .drain core h o => Sys2Proof.Machine.execDrain core h o s
  | .mload core h o => Sys2Proof.Machine.execMload core h o s
  | .mswap core h o => Sys2Proof.Machine.execMswap core h o s
  | .mstream core h o => Sys2Proof.Machine.execMstream core h o s
  | .macc core h o => Sys2Proof.Machine.execMacc core h o s
  | .vadd core h o => Sys2Proof.Machine.execVadd core h o s
  | .vsub core h o => Sys2Proof.Machine.execVsub core h o s
  | .vmul core h o => Sys2Proof.Machine.execVmul core h o s
  | .vfma core h o => Sys2Proof.Machine.execVfma core h o s
  | .vscale core h o => Sys2Proof.Machine.execVscale core h o s
  | .vmax core h o => Sys2Proof.Machine.execVmax core h o s
  | .vmin core h o => Sys2Proof.Machine.execVmin core h o s
  | .vcvt core h o => Sys2Proof.Machine.execVcvt core h o s
  | .vexp core h o => Sys2Proof.Machine.execVexp core h o s
  | .vrsqrt core h o => Sys2Proof.Machine.execVrsqrt core h o s
  | .vsilu core h o => Sys2Proof.Machine.execVsilu core h o s
  | .vswiglu core h o => Sys2Proof.Machine.execVswiglu core h o s
  | .vgelu core h o => Sys2Proof.Machine.execVgelu core h o s
  | .vgeglu core h o => Sys2Proof.Machine.execVgeglu core h o s
  | .vsum core h o => Sys2Proof.Machine.execVsum core h o s
  | .vsumsq core h o => Sys2Proof.Machine.execVsumsq core h o s
  | .vdot core h o => Sys2Proof.Machine.execVdot core h o s
  | .vmaxr core h o => Sys2Proof.Machine.execVmaxr core h o s
  | .vrmsnorm core h o => Sys2Proof.Machine.execVrmsnorm core h o s
  | .vnorm2 core h o => Sys2Proof.Machine.execVnorm2 core h o s
  | .vsoftmax core h o => Sys2Proof.Machine.execVsoftmax core h o s
  | .vrope core h o => Sys2Proof.Machine.execVrope core h o s
  | .packa core h o => Sys2Proof.Machine.execPacka core h o s
  | .dtip core h o => Sys2Proof.Machine.execDtip core h o s
  | .dtl2 core h o => Sys2Proof.Machine.execDtl2 core h o s
  | .sload core h o => Sys2Proof.Machine.execSload core h o s
  | .sstore core h o => Sys2Proof.Machine.execSstore core h o s
  | .topk core h o => Sys2Proof.Machine.execTopk core h o s
  | .argmax core h o => Sys2Proof.Machine.execArgmax core h o s
  | .thresh core h o => Sys2Proof.Machine.execThresh core h o s
  | .gpool core h o => Sys2Proof.Machine.execGpool core h o s
  | .qopen core h o => Sys2Proof.Machine.execQopen core h o s
  | .qscan core h o => Sys2Proof.Machine.execQscan core h o s
  | .qdrain core h o => Sys2Proof.Machine.execQdrain core h o s
  | .ctile core h o => Sys2Proof.Machine.execCtile core h o s
  | .clist core h o => Sys2Proof.Machine.execClist core h o s
  | .cpart core h o => Sys2Proof.Machine.execCpart core h o s
  | .cmcast core h o => Sys2Proof.Machine.execCmcast core h o s
  | .crecv core h o => Sys2Proof.Machine.execCrecv core h o s
  | .csetd core h o => Sys2Proof.Machine.execCsetd core h o s
  | .xdec core h o => Sys2Proof.Machine.execXdec core h o s
  | .xenc core h o => Sys2Proof.Machine.execXenc core h o s
  | .xopen core h o => Sys2Proof.Machine.execXopen core h o s
  | .xseal core h o => Sys2Proof.Machine.execXseal core h o s
  | .instructionComplete core e res => Sys2Proof.Machine.execInstructionComplete core e res s
  | .memoryResponse core e idx q => Sys2Proof.Machine.execMemoryResponse core e idx q s
  | .unitStart core unitId => Sys2Proof.Machine.execUnitStart core unitId s
  | .engineStall core e => Sys2Proof.Machine.execEngineStall core e s
  | .unitBound core => Sys2Proof.Machine.execUnitBound core s
  | .arrayStop core => Sys2Proof.Machine.execArrayStop core s
  | .coreClockGate core => Sys2Proof.Machine.execCoreClockGate core s
  | .corePowerGate core => Sys2Proof.Machine.execCorePowerGate core s
  | .stepBoundary plan => Sys2Proof.Machine.execStepBoundary plan s
  | .regulatorRefill => Sys2Proof.Machine.execRegulatorRefill s
  | .replayComplete unitId o => Sys2Proof.Machine.execReplayComplete unitId o s
  | .hello h b => Sys2Proof.Machine.execHello h b s
  | .proof h p => Sys2Proof.Machine.execProof h p s
  | .closeSession h mode => Sys2Proof.Machine.execCloseSession h mode s
  | .loadModel h b => Sys2Proof.Machine.execLoadModel h b s
  | .loadIndex h b => Sys2Proof.Machine.execLoadIndex h b s
  | .ingest h b => Sys2Proof.Machine.execIngest h b s
  | .insert h b => Sys2Proof.Machine.execInsert h b s
  | .delete h b => Sys2Proof.Machine.execDelete h b s
  | .merge h b => Sys2Proof.Machine.execMerge h b s
  | .query h b => Sys2Proof.Machine.execQuery h b s
  | .generate h b => Sys2Proof.Machine.execGenerate h b s
  | .ask h b => Sys2Proof.Machine.execAsk h b s
  | .cancel h target func => Sys2Proof.Machine.execCancel h target func s
  | .recoveryMode h mode => Sys2Proof.Machine.execRecoveryMode h mode s
  | .policySet h p => Sys2Proof.Machine.execPolicySet h p s
  | .firmwareUpdate h signatureOk => Sys2Proof.Machine.execFirmwareUpdate h signatureOk s
  | .tenantBind h b blob => Sys2Proof.Machine.execTenantBind h b blob s
  | .tenantSet h b => Sys2Proof.Machine.execTenantSet h b s
  | .tenantUnbind h tenant => Sys2Proof.Machine.execTenantUnbind h tenant s
  | .operatorBind h b blob => Sys2Proof.Machine.execOperatorBind h b blob s
  | .operatorSet h b => Sys2Proof.Machine.execOperatorSet h b s
  | .operatorUnbind h operator => Sys2Proof.Machine.execOperatorUnbind h operator s
  | .credentialSet h role principal blob => Sys2Proof.Machine.execCredentialSet h role principal blob s
  | .protectionExport h outLen => Sys2Proof.Machine.execProtectionExport h outLen s
  | .protectionReset h mac => Sys2Proof.Machine.execProtectionReset h mac s
  | .protectionRestore h sealOk generation => Sys2Proof.Machine.execProtectionRestore h sealOk generation s
  | .gladeDefine h g => Sys2Proof.Machine.execGladeDefine h g s
  | .gladeSet h g => Sys2Proof.Machine.execGladeSet h g s
  | .gladeRemove h glade => Sys2Proof.Machine.execGladeRemove h glade s
  | .profileSet h p => Sys2Proof.Machine.execProfileSet h p s
  | .profileRemove h id => Sys2Proof.Machine.execProfileRemove h id s
  | .tableUpdate h table rows => Sys2Proof.Machine.execTableUpdate h table rows s
  | .tableReplace h table code width rows => Sys2Proof.Machine.execTableReplace h table code width rows s
  | .hotPin h table rows => Sys2Proof.Machine.execHotPin h table rows s
  | .hotUnpin h table rows => Sys2Proof.Machine.execHotUnpin h table rows s
  | .indexDrop h handle => Sys2Proof.Machine.execIndexDrop h handle s
  | .indexRetain h handle seconds => Sys2Proof.Machine.execIndexRetain h handle seconds s
  | .indexMergePolicy h handle threshold => Sys2Proof.Machine.execIndexMergePolicy h handle threshold s
  | .setForm h b => Sys2Proof.Machine.execSetForm h b s
  | .setDissolve h setId => Sys2Proof.Machine.execSetDissolve h setId s
  | .status h selector outLen arg => Sys2Proof.Machine.execStatus h selector outLen arg s
  | .logRead h first max outLen => Sys2Proof.Machine.execLogRead h first max outLen s
  | .shutdown h mode limitMs => Sys2Proof.Machine.execShutdown h mode limitMs s
  | .cdQcommit func value => Sys2Proof.Machine.execCdQcommit func value s
  | .cdSqdb func pair value => Sys2Proof.Machine.execCdSqdb func pair value s
  | .cdCqdb func pair value => Sys2Proof.Machine.execCdCqdb func pair value s
  | .pwCommit value => Sys2Proof.Machine.execPwCommit value s
  | .firmwareDeviceReset value starts => Sys2Proof.Machine.execFirmwareDeviceReset value starts s
  | .blockResetCore index => Sys2Proof.Machine.execBlockResetCore index s
  | .blockResetEngine index engine => Sys2Proof.Machine.execBlockResetEngine index engine s
  | .blockResetGrovePort index => Sys2Proof.Machine.execBlockResetGrovePort index s
  | .blockResetT2Channel index => Sys2Proof.Machine.execBlockResetT2Channel index s
  | .blockResetFlashChannel index => Sys2Proof.Machine.execBlockResetFlashChannel index s
  | .blockResetDone => Sys2Proof.Machine.execBlockResetDone s
  | .biOnline site => Sys2Proof.Machine.execBiOnline site s
  | .registerWrite func offset half value => Sys2Proof.Machine.execRegisterWrite func offset half value s
  | .pcieConfigRequest func => Sys2Proof.Machine.execPcieConfigRequest func s
  | .msixRaise pair => Sys2Proof.Machine.execMsixRaise pair s
  | .regAddr offset pecOk => Sys2Proof.Machine.execRegAddr offset pecOk s
  | .regData write pecOk => Sys2Proof.Machine.execRegData write pecOk s
  | .msgPut bytes pecOk => Sys2Proof.Machine.execMsgPut bytes pecOk s
  | .msgGo pecOk => Sys2Proof.Machine.execMsgGo pecOk s
  | .msgGet pecOk => Sys2Proof.Machine.execMsgGet pecOk s
  | .msgStat pecOk => Sys2Proof.Machine.execMsgStat pecOk s
  | .smbusAlertResponse => Sys2Proof.Machine.execSmbusAlertResponse s
  | .smbClkTimeout => Sys2Proof.Machine.execSmbClkTimeout s
  | .bypass => Sys2Proof.Machine.execBypass s
  | .idcode => Sys2Proof.Machine.execIdcode s
  | .samplePreload cells => Sys2Proof.Machine.execSamplePreload cells s
  | .extest => Sys2Proof.Machine.execExtest s
  | .clamp => Sys2Proof.Machine.execClamp s
  | .highz => Sys2Proof.Machine.execHighz s
  | .extestPulse => Sys2Proof.Machine.execExtestPulse s
  | .extestTrain => Sys2Proof.Machine.execExtestTrain s
  | .internalScanInstruction => Sys2Proof.Machine.execInternalScanInstruction s
  | .testLogicReset => Sys2Proof.Machine.execTestLogicReset s
  | .locateN low => Sys2Proof.Machine.execLocateN low s
  | .powerGoodAssert starts => Sys2Proof.Machine.execPowerGoodAssert starts s
  | .powerGoodLoss => Sys2Proof.Machine.execPowerGoodLoss s
  | .overvoltageStop millivolts => Sys2Proof.Machine.execOvervoltageStop millivolts s
  | .kettlePowerLoss => Sys2Proof.Machine.execKettlePowerLoss s
  | .mrstNHeld => Sys2Proof.Machine.execMrstNHeld s
  | .mrstNRelease starts => Sys2Proof.Machine.execMrstNRelease starts s
  | .perstNAssert => Sys2Proof.Machine.execPerstNAssert s
  | .perstNDeassert starts => Sys2Proof.Machine.execPerstNDeassert starts s
  | .hotReset => Sys2Proof.Machine.execHotReset s
  | .linkDown refclkLost => Sys2Proof.Machine.execLinkDown refclkLost s
  | .hostLinkTrained hostRate => Sys2Proof.Machine.execHostLinkTrained hostRate s
  | .shdnReqNHeld => Sys2Proof.Machine.execShdnReqNHeld s
  | .thermalWarningSet junction stack => Sys2Proof.Machine.execThermalWarningSet junction stack s
  | .thermalWarningClear junction stack => Sys2Proof.Machine.execThermalWarningClear junction stack s
  | .thermtrip junction => Sys2Proof.Machine.execThermtrip junction s
  | .crystalFallback => Sys2Proof.Machine.execCrystalFallback s
  | .operatingHoursShadow => Sys2Proof.Machine.execOperatingHoursShadow s
  | .kettleWatchdog starts => Sys2Proof.Machine.execKettleWatchdog starts s
  | .controllerHeartbeatLoss controller => Sys2Proof.Machine.execControllerHeartbeatLoss controller s
  | .allControllersSilent starts => Sys2Proof.Machine.execAllControllersSilent starts s
  | .boundaryStall starts => Sys2Proof.Machine.execBoundaryStall starts s
  | .wenikConsistencyFailure starts => Sys2Proof.Machine.execWenikConsistencyFailure starts s
  | .deepIdleEntry => Sys2Proof.Machine.execDeepIdleEntry s
  | .monitorSample slacks => Sys2Proof.Machine.execMonitorSample slacks s
  | .skipPersist site => Sys2Proof.Machine.execSkipPersist site s
  | .replan needed worstSite worstSlack => Sys2Proof.Machine.execReplan needed worstSite worstSlack s
  | .t2Scrub found => Sys2Proof.Machine.execT2Scrub found s
  | .t2CorrectedRateWatch channel rate => Sys2Proof.Machine.execT2CorrectedRateWatch channel rate s
  | .t2RebuildEnd channel => Sys2Proof.Machine.execT2RebuildEnd channel s
  | .t3DieFail channel die spare => Sys2Proof.Machine.execT3DieFail channel die spare s
  | .flashChannelOutOfService channel => Sys2Proof.Machine.execFlashChannelOutOfService channel s
  | .t3MoveEnd channel => Sys2Proof.Machine.execT3MoveEnd channel s
  | .hotRowRank => Sys2Proof.Machine.execHotRowRank s
  | .replicaCopyDone home stack => Sys2Proof.Machine.execReplicaCopyDone home stack s
  | .tableUpdateApplyEnd table => Sys2Proof.Machine.execTableUpdateApplyEnd table s
  | .tableReplaceCommit r rows base => Sys2Proof.Machine.execTableReplaceCommit r rows base s
  | .imageChunkArrival r tagOk tiles => Sys2Proof.Machine.execImageChunkArrival r tagOk tiles s
  | .loadModelContentVerified r image => Sys2Proof.Machine.execLoadModelContentVerified r image s
  | .loadModelSetTimeout r => Sys2Proof.Machine.execLoadModelSetTimeout r s
  | .loadIndexWritten r regions lists residual flat => Sys2Proof.Machine.execLoadIndexWritten r regions lists residual flat s
  | .itemStaged r item unit => Sys2Proof.Machine.execItemStaged r item unit s
  | .journalProgrammed r item => Sys2Proof.Machine.execJournalProgrammed r item s
  | .mergeCommit handle unit replayed made => Sys2Proof.Machine.execMergeCommit handle unit replayed made s
  | .mergeSetTimeout handle => Sys2Proof.Machine.execMergeSetTimeout handle s
  | .tableSetTimeout r => Sys2Proof.Machine.execTableSetTimeout r s
  | .indexRetainExpiry handle version => Sys2Proof.Machine.execIndexRetainExpiry handle version s
  | .challengeExpiry session => Sys2Proof.Machine.execChallengeExpiry session s
  | .principalLockExpiry role principal => Sys2Proof.Machine.execPrincipalLockExpiry role principal s
  | .sessionLifetimeExpiry session => Sys2Proof.Machine.execSessionLifetimeExpiry session s
  | .sessionIdleExpiry session => Sys2Proof.Machine.execSessionIdleExpiry session s
  | .understoryOpen channel o => Sys2Proof.Machine.execUnderstoryOpen channel o s
  | .understoryTables channel tag t => Sys2Proof.Machine.execUnderstoryTables channel tag t s
  | .understorySegments channel tag table segs => Sys2Proof.Machine.execUnderstorySegments channel tag table segs s
  | .understoryDrain channel tag dest => Sys2Proof.Machine.execUnderstoryDrain channel tag dest s
  | .understoryClose channel tag => Sys2Proof.Machine.execUnderstoryClose channel tag s
  | .dataFrame port seq tagOk dest bytes => Sys2Proof.Machine.execDataFrame port seq tagOk dest bytes s
  | .boundaryFrame port seq tagOk step commit => Sys2Proof.Machine.execBoundaryFrame port seq tagOk step commit s
  | .reserveFrame port seq tagOk from_ r handle search => Sys2Proof.Machine.execReserveFrame port seq tagOk from_ r handle search s
  | .grantFrame port seq tagOk from_ r granted => Sys2Proof.Machine.execGrantFrame port seq tagOk from_ r granted s
  | .controlFrame port seq tagOk info => Sys2Proof.Machine.execControlFrame port seq tagOk info s
  | .heartbeatFrame port seq tagOk => Sys2Proof.Machine.execHeartbeatFrame port seq tagOk s
  | .ackFrame port upTo => Sys2Proof.Machine.execAckFrame port upTo s
  | .nakFrame port seq => Sys2Proof.Machine.execNakFrame port seq s
  | .heartbeatSend => Sys2Proof.Machine.execHeartbeatSend s
  | .memberOut member => Sys2Proof.Machine.execMemberOut member s
  | .groveLaneFail port lane => Sys2Proof.Machine.execGroveLaneFail port lane s
  | .grovePortTrained port authOk peer peerPort => Sys2Proof.Machine.execGrovePortTrained port authOk peer peerPort s
  | .setFormTimeout => Sys2Proof.Machine.execSetFormTimeout s
  | .allreduce d peers => Sys2Proof.Machine.execAllreduce d peers s
  | .allgather d peers => Sys2Proof.Machine.execAllgather d peers s
  | .gather d peers => Sys2Proof.Machine.execGather d peers s
  | .broadcast d data => Sys2Proof.Machine.execBroadcast d data s
  | .send d data => Sys2Proof.Machine.execSend d data s
  | .linkUnitOverrun unitId => Sys2Proof.Machine.execLinkUnitOverrun unitId s
  | .shutdownDrainEnd => Sys2Proof.Machine.execShutdownDrainEnd s
  | .zeroizationDone clean => Sys2Proof.Machine.execZeroizationDone clean s
  | .bistGroupDone fails misrs starts => Sys2Proof.Machine.execBistGroupDone fails misrs starts s
  | .onlineTestStart => Sys2Proof.Machine.execOnlineTestStart s
  | .onlineTestDone passed memoryFail misr => Sys2Proof.Machine.execOnlineTestDone passed memoryFail misr s
  | .hostMemoryReadCompletion r what end_ text keyOk fileType path obj => Sys2Proof.Machine.execHostMemoryReadCompletion r what end_ text keyOk fileType path obj s
  | .hostLinkDowntrain hostRate => Sys2Proof.Machine.execHostLinkDowntrain hostRate s

end Sys2Proof.Machine
end

