-- ==== Sys2Proof/Safety.lean ====
section
/-!
DEFINITION. What counts as a safe run: the module has not met an input beyond its absolute ratings (R531), no command was refused, and the
state stays in its form; and the premises that the statements share.
-/
namespace Sys2Proof

/-- The step stops with no fault and no refusal. -/
def safeStep (s : Machine.State) : Prop := ∃ t, Machine.step s = .next t

/-- A copy in flight carries the cells of one tile. -/
def copyWf (c : Machine.Copy) : Bool := Machine.memWf c.data && c.data.all (fun p => decide (p.1 < Machine.tileBytes))

def coreWf (k : Machine.Core) : Bool :=
  Machine.memWf k.bytes && k.flights.all (fun f => match f.work with | .copies l => l.all copyWf | _ => true)

/-- The byte stores of the state, T2 and T3 and every core's, and its tile descriptors in their canonical form. -/
def stateWf (s : Machine.State) : Bool :=
  Machine.memWf s.media.bytes && Machine.AMap.wf 0#512 s.media.tiles && s.chip.cores.all (fun p => coreWf p.2)

namespace Claims

open Machine

/-! ### A core that takes its next instruction (R86) -/

/-- Nothing is in execution on any other core, and nothing waits there. -/
def othersRest (s : State) (c : Nat) : Prop :=
  ∀ n, n ≠ c → (coreOf s n).flights = [] ∧ ∀ q, (coreOf s n).run = some q → q.waiting = [] ∧ q.ended = false

/-- Every table update that is being applied has asked for its row locks (R198). -/
def locksAsked (s : State) : Prop := ∀ a ∈ s.tabs.applying, a.asked = true

/-- No core runs a unit. -/
def restAll (s : State) : Prop := (∀ n, (coreOf s n).run = none ∧ (coreOf s n).flights = []) ∧ locksAsked s

/-- The core `c` runs `r`, nothing waits at its head, and nothing is in execution on it or elsewhere. -/
def quiet (s : State) (c : Nat) (r : Running) : Prop :=
  (coreOf s c).run = some r ∧ r.ended = false ∧ r.waiting = [] ∧ (coreOf s c).flights = [] ∧ othersRest s c
    ∧ locksAsked s

/-- R83, R86, R87: the reserved bits are 0, the waited tokens SET, the signal token IDLE. -/
def tokensLet (k : Core) (h : Hdr) : Prop :=
  h.rsvd = 0#5 ∧ (∀ t ∈ waited h, tokenOf k t = .set) ∧ (h.sigen = true → tokenOf k h.sigtok.toNat = .idle)

/-- The program buffer holds the instruction at the dispatcher's position (R84, R85). -/
def atPc (r : Running) (w : EWord) : Prop := r.pc < r.desc.count ∧ ∃ x, r.buffer[r.pc]? = some x ∧ wordFields x = w

/-- The next instruction of the core's unit may issue as far as the dispatcher's rules go. -/
def issuable (s : State) (c : Nat) (r : Running) (w : EWord) : Prop := quiet s c r ∧ atPc r w ∧ tokensLet (coreOf s c) w.h

/-- The core after the instruction has issued to an engine: tokens and the next instruction's index. -/
def issued (k : Core) (r : Running) (w : EWord) : Core := { issueTokens k w.h .armed with run := some (stepPc r w) }

/-- The record of an instruction that has issued and not started. -/
def flightOf (k : Core) (r : Running) (w : EWord) : Flight :=
  ⟨r.issued, r.pc, w, iterOf r, false, engineReads k w (iterOf r), engineReads k w (iterOf r), [], 0, .none⟩

def allFull (k : Core) (l : List Nat) : Prop := ∀ n ∈ l, slotOf k n = .full

/-- No slot of the list is FILLING or RELEASE-PENDING. -/
def allFree (k : Core) (l : List Nat) : Prop := ∀ n ∈ l, slotOf k n = .empty ∨ slotOf k n = .full

/-- The `n` bytes at `a` are the only ones that differ. -/
def sameOutside (m m' : List Host.Cell) (a n : Nat) : Prop := ∀ x, x < a ∨ a + n ≤ x → readByte m' x = readByte m x

/-- Element `i` of a vector operand (R143, R144, R148). -/
def elemAt (m : List Host.Cell) (a code i : Nat) : W32 := fpOfCode code (readNat m (a + i * fmtSize code) (fmtSize code))

/-- The first `n` elements of a vector operand. -/
def elems (m : List Host.Cell) (a code n : Nat) : List W32 := (List.range n).map (elemAt m a code)

end Claims

end Sys2Proof
end

