-- ==== Sys2Proof/WellFormed.lean ====
section
/-!
DEFINITION. Well-formed commands: operands within the widths and ranges that the rules of the command give them. The meanings are defined
on every command; a well-formed one is one that the module's edge can carry.
-/
namespace Sys2Proof

def u16 (n : Nat) : Bool := decide (n < 2 ^ 16)
def u32 (n : Nat) : Bool := decide (n < 2 ^ 32)

/-- R83: the reserved bits are 0. -/
def Hdr.wf (h : Hdr) : Bool := h.rsvd == 0#5

/-- R386, R421: the PF, a VF, or the sideband, and a local pair of the function. -/
def MsgHead.wf (h : MsgHead) : Bool :=
  h.func == 0xFF#8 || (decide (h.func.toNat ≤ 8) && decide (h.pair < (if h.func = 0#8 then 8 else 7)))

def funcWf (f : Byte) : Bool := decide (f.toNat ≤ 8)

/-- R95. -/
def UnitDesc.wf (d : UnitDesc) : Bool :=
  decide (1 ≤ d.count) && decide (d.count ≤ 4096) && d.program % 16 == 0 && (d.core == 0xFFFF#16 || decide (d.core.toNat < 512))
    && decide (d.glade ≤ 7) && decide (1 ≤ d.slotCount) && decide (d.slotBase + d.slotCount ≤ 192) && decide (d.succs.length ≤ 4096)
    && decide (1 ≤ d.estimate) && u32 d.estimate

/-- R458. -/
def LinkDesc.wf (d : LinkDesc) : Bool := d.source % 16384 == 0 && d.dest % 16384 == 0 && d.bytes % 64 == 0 && u32 d.bytes

/-- R8, R319: a step of at most 20 ms. -/
def BoundaryPlan.wf (p : BoundaryPlan) : Bool :=
  p.units.all UnitDesc.wf && p.links.all (fun l => l.2.wf) && decide (p.units.length ≤ 65536)

/-- Components that a start leaves out (R496). -/
def StartReport.wf (r : StartReport) : Bool :=
  r.controllers.all (· < 4) && r.sites.all (· < 528) && r.stackList.all (· < 12) && r.channels.all (· < 384) && r.flash.all (· < 256)
    && r.ports.all (· < 8) && decide (r.vf.length ≤ 33)

def startsWf (l : List StartReport) : Bool := l.all StartReport.wf

def memberWf (n : Nat) : Bool := decide (n < 16)

/-- Operands within the ranges of their rules. -/
def Instr.wf : Instr → Bool
  | .nop _ h _ => h.wf
  | .endUnit _ h _ => h.wf
  | .loop _ h _ => h.wf
  | .slotfree _ h _ => h.wf
  | .tokclr _ h _ => h.wf
  | .drain _ h _ => h.wf
  | .mload _ h _ => h.wf
  | .mswap _ h _ => h.wf
  | .mstream _ h _ => h.wf
  | .macc _ h _ => h.wf
  | .vadd _ h _ => h.wf
  | .vsub _ h _ => h.wf
  | .vmul _ h _ => h.wf
  | .vfma _ h _ => h.wf
  | .vscale _ h _ => h.wf
  | .vmax _ h _ => h.wf
  | .vmin _ h _ => h.wf
  | .vcvt _ h _ => h.wf
  | .vexp _ h _ => h.wf
  | .vrsqrt _ h _ => h.wf
  | .vsilu _ h _ => h.wf
  | .vswiglu _ h _ => h.wf
  | .vgelu _ h _ => h.wf
  | .vgeglu _ h _ => h.wf
  | .vsum _ h _ => h.wf
  | .vsumsq _ h _ => h.wf
  | .vdot _ h _ => h.wf
  | .vmaxr _ h _ => h.wf
  | .vrmsnorm _ h _ => h.wf
  | .vnorm2 _ h _ => h.wf
  | .vsoftmax _ h _ => h.wf
  | .vrope _ h _ => h.wf
  | .packa _ h _ => h.wf
  | .dtip _ h _ => h.wf
  | .dtl2 _ h _ => h.wf
  | .sload _ h _ => h.wf
  | .sstore _ h _ => h.wf
  | .topk _ h _ => h.wf
  | .argmax _ h _ => h.wf
  | .thresh _ h _ => h.wf
  | .gpool _ h _ => h.wf
  | .qopen _ h _ => h.wf
  | .qscan _ h _ => h.wf
  | .qdrain _ h _ => h.wf
  | .ctile _ h _ => h.wf
  | .clist _ h _ => h.wf
  | .cpart _ h _ => h.wf
  | .cmcast _ h _ => h.wf
  | .crecv _ h _ => h.wf
  | .csetd _ h _ => h.wf
  | .xdec _ h _ => h.wf
  | .xenc _ h _ => h.wf
  | .xopen _ h _ => h.wf
  | .xseal _ h _ => h.wf
  | .instructionComplete _ _ _ => true
  | .memoryResponse _ e _ _ => e == .g || e == .q || e == .c
  | .unitStart _ _ => true
  | .engineStall _ _ => true
  | .unitBound _ => true
  | .arrayStop _ => true
  | .coreClockGate _ => true
  | .corePowerGate _ => true
  | .stepBoundary p => p.wf
  | .regulatorRefill => true
  | .replayComplete _ _ => true
  | .hello h _ => h.wf
  | .proof h _ => h.wf
  | .closeSession h _ => h.wf
  | .loadModel h _ => h.wf
  | .loadIndex h _ => h.wf
  | .ingest h _ => h.wf
  | .insert h _ => h.wf
  | .delete h _ => h.wf
  | .merge h _ => h.wf
  | .query h _ => h.wf
  | .generate h _ => h.wf
  | .ask h _ => h.wf
  | .cancel h _ _ => h.wf
  | .recoveryMode h _ => h.wf
  | .policySet h _ => h.wf
  | .firmwareUpdate h _ => h.wf
  | .tenantBind h _ _ => h.wf
  | .tenantSet h _ => h.wf
  | .tenantUnbind h t => h.wf && u16 t
  | .operatorBind h _ _ => h.wf
  | .operatorSet h _ => h.wf
  | .operatorUnbind h t => h.wf && u16 t
  | .credentialSet h _ _ _ => h.wf
  | .protectionExport h _ => h.wf
  | .protectionReset h _ => h.wf
  | .protectionRestore h _ _ => h.wf
  | .gladeDefine h _ => h.wf
  | .gladeSet h _ => h.wf
  | .gladeRemove h g => h.wf && decide (g < 256)
  | .profileSet h _ => h.wf
  | .profileRemove h g => h.wf && decide (g < 64)
  | .tableUpdate h _ _ => h.wf
  | .tableReplace h t c w r => h.wf && u16 t && u16 c && u32 w && u32 r
  | .hotPin h _ _ => h.wf
  | .hotUnpin h _ _ => h.wf
  | .indexDrop h n => h.wf && u32 n
  | .indexRetain h n m => h.wf && u32 n && u32 m
  | .indexMergePolicy h n m => h.wf && u32 n && u32 m
  | .setForm h _ => h.wf
  | .setDissolve h t => h.wf && u32 t
  | .status h n o _ => h.wf && u16 n && u32 o
  | .logRead h _ m o => h.wf && u32 m && u32 o
  | .shutdown h _ n => h.wf && u32 n
  | .cdQcommit f _ => funcWf f
  | .cdSqdb f n _ => funcWf f && decide (n < 8)
  | .cdCqdb f n _ => funcWf f && decide (n < 8)
  | .pwCommit _ => true
  | .firmwareDeviceReset _ l => startsWf l
  | .blockResetCore _ => true
  | .blockResetEngine _ _ => true
  | .blockResetGrovePort _ => true
  | .blockResetT2Channel _ => true
  | .blockResetFlashChannel _ => true
  | .blockResetDone => true
  | .biOnline _ => true
  | .registerWrite f o _ _ => funcWf f && o.toNat % 8 == 0
  | .pcieConfigRequest f => funcWf f
  | .msixRaise n => decide (n < 64)
  | .regAddr _ _ => true
  | .regData _ _ => true
  | .msgPut b _ => decide (1 ≤ b.length) && decide (b.length ≤ 255)
  | .msgGo _ => true
  | .msgGet _ => true
  | .msgStat _ => true
  | .smbusAlertResponse => true
  | .smbClkTimeout => true
  | .bypass => true
  | .idcode => true
  | .samplePreload _ => true
  | .extest => true
  | .clamp => true
  | .highz => true
  | .extestPulse => true
  | .extestTrain => true
  | .internalScanInstruction => true
  | .testLogicReset => true
  | .locateN _ => true
  | .powerGoodAssert l => startsWf l
  | .powerGoodLoss => true
  | .overvoltageStop mv => decide (62000 < mv)
  | .kettlePowerLoss => true
  | .mrstNHeld => true
  | .mrstNRelease l => startsWf l
  | .perstNAssert => true
  | .perstNDeassert l => startsWf l
  | .hotReset => true
  | .linkDown _ => true
  | .hostLinkTrained r => decide (1 ≤ r)
  | .shdnReqNHeld => true
  | .thermalWarningSet j k => decide (1000 ≤ j) || decide (900 ≤ k)
  | .thermalWarningClear j k => decide (j ≤ 950) && decide (k ≤ 850)
  | .thermtrip j => decide (1150 ≤ j)
  | .crystalFallback => true
  | .operatingHoursShadow => true
  | .kettleWatchdog l => startsWf l
  | .controllerHeartbeatLoss c => decide (c < 4)
  | .allControllersSilent l => startsWf l
  | .boundaryStall l => startsWf l
  | .wenikConsistencyFailure l => startsWf l
  | .deepIdleEntry => true
  | .monitorSample l => l.all (fun x => decide (x.1 < 528) && decide (x.2 ≤ 189))
  | .skipPersist p => decide (p < 528)
  | .replan l p _ => l.all (fun x => decide (x.1 < 33)) && decide (p < 528)
  | .t2Scrub l => l.all (fun x => decide (x.1 < 75399168))
  | .t2CorrectedRateWatch c _ => decide (c < 384)
  | .t2RebuildEnd c => decide (c < 384)
  | .t3DieFail c d _ => decide (c < 256) && decide (d < 8)
  | .flashChannelOutOfService c => decide (c < 256)
  | .t3MoveEnd c => decide (c < 256)
  | .hotRowRank => true
  | .replicaCopyDone _ k => decide (k < 12)
  | .tableUpdateApplyEnd t => decide (t ≤ 16)
  | .tableReplaceCommit _ _ _ => true
  | .imageChunkArrival _ _ _ => true
  | .loadModelContentVerified _ _ => true
  | .loadModelSetTimeout _ => true
  | .loadIndexWritten _ _ _ _ _ => true
  | .itemStaged _ _ _ => true
  | .journalProgrammed _ _ => true
  | .mergeCommit _ _ _ _ => true
  | .mergeSetTimeout _ => true
  | .tableSetTimeout _ => true
  | .indexRetainExpiry _ _ => true
  | .challengeExpiry _ => true
  | .principalLockExpiry _ _ => true
  | .sessionLifetimeExpiry _ => true
  | .sessionIdleExpiry _ => true
  | .understoryOpen _ _ => true
  | .understoryTables _ _ _ => true
  | .understorySegments _ _ _ _ => true
  | .understoryDrain _ _ _ => true
  | .understoryClose _ _ => true
  | .dataFrame _ _ _ _ _ => true
  | .boundaryFrame _ _ _ _ _ => true
  | .reserveFrame _ _ _ m _ _ _ => memberWf m
  | .grantFrame _ _ _ m _ _ => memberWf m
  | .controlFrame _ _ _ _ => true
  | .heartbeatFrame _ _ _ => true
  | .ackFrame _ _ => true
  | .nakFrame _ _ => true
  | .heartbeatSend => true
  | .memberOut m => memberWf m
  | .groveLaneFail _ _ => true
  | .grovePortTrained _ _ m q => memberWf m && decide (q < 8)
  | .setFormTimeout => true
  | .allreduce d l => d.wf && l.all (fun x => memberWf x.1)
  | .allgather d l => d.wf && l.all (fun x => memberWf x.1)
  | .gather d l => d.wf && l.all (fun x => memberWf x.1)
  | .broadcast d _ => d.wf
  | .send d _ => d.wf
  | .linkUnitOverrun _ => true
  | .shutdownDrainEnd => true
  | .zeroizationDone _ => true
  | .bistGroupDone f _ l => f.all (fun x => decide (x.1 < 528) && decide (2 ≤ x.2) && decide (x.2 ≤ 4)) && startsWf l
  | .onlineTestStart => true
  | .onlineTestDone _ _ _ => true
  | .hostMemoryReadCompletion _ _ _ _ _ _ _ _ => true
  | .hostLinkDowntrain r => decide (1 ≤ r)

end Sys2Proof
end

