-- ==== Sys2Proof/Certificates/Slice0/Obligations.lean ====
section
/-!
DEFINITION. The statements for the provers. Where a statement says that a command answers `next (setCore s c k')`, everything of the state
but that core is unchanged: that is its frame.
-/
open Sys2Proof Sys2Proof.Machine Sys2Proof.Claims

namespace Sys2Proof.Claims

/-! ### Shapes that several statements share -/

/-- A dispatcher operation issues and completes at once: the next index, and a core that `post` relates to the core before. -/
def dispIssues (mk : CoreId → Hdr → BitVec 88 → Instr) (op : Nat) (post : Core → Core → Hdr → BitVec 88 → Prop) : Prop :=
  ∀ (s : State) (core : CoreId) (h : Hdr) (o : BitVec 88) (r : Running),
    issuable s core.toNat r ⟨15, op, h, o⟩ → dispCheck (coreOf s core.toNat) r op o = none →
    ∃ k', exec (mk core h o) s = .next (setCore s core.toNat k') ∧ k'.run = some (stepPc r ⟨15, op, h, o⟩) ∧ k'.flights = []
      ∧ k'.scalars = (coreOf s core.toNat).scalars ∧ k'.active = (coreOf s core.toNat).active ∧ k'.shadow = (coreOf s core.toNat).shadow
      ∧ k'.colls = (coreOf s core.toNat).colls ∧ k'.descs = (coreOf s core.toNat).descs ∧ post (coreOf s core.toNat) k' h o

/-- The token after the issue of an instruction that completes at once (R87). -/
def tokenAfter (k : Core) (h : Hdr) (x : Nat) : Token :=
  if h.sigen = true ∧ x = h.sigtok.toNat then .set else if h.consume = true ∧ x ∈ waited h then .idle else tokenOf k x

/-- A V instruction starts with its issue: sources FULL, destinations free; the destinations are FILLING, and `post` says what it writes. -/
def vStarts (mk : CoreId → Hdr → BitVec 88 → Instr) (op : Nat) (post : Core → Core → VOp → Nat → Prop) : Prop :=
  ∀ (s : State) (core : CoreId) (h : Hdr) (o : BitVec 88) (r : Running),
    issuable s core.toNat r ⟨1, op, h, o⟩ → vCheck r.desc op o (iterOf r) = none →
    allFull (coreOf s core.toNat) (vReads op o (iterOf r)) → allFree (coreOf s core.toNat) (vWrites op o (iterOf r)) →
    ∃ k', exec (mk core h o) s = .next (setCore s core.toNat k') ∧ k'.run = some (stepPc r ⟨1, op, h, o⟩)
      ∧ k'.tokens = (issueTokens (coreOf s core.toNat) h .armed).tokens
      ∧ k'.flights = [{ flightOf (coreOf s core.toNat) r ⟨1, op, h, o⟩ with
          started := true, writes := vWrites op o (iterOf r), cycles := vCycles op (vOp o) }]
      ∧ (∀ n, slotOf k' n = if n ∈ vWrites op o (iterOf r) then .filling else slotOf (coreOf s core.toNat) n)
      ∧ (∀ n, n ∉ vWrites op o (iterOf r) → slotDesc k' n = slotDesc (coreOf s core.toNat) n)
      ∧ k'.active = (coreOf s core.toNat).active ∧ k'.shadow = (coreOf s core.toNat).shadow ∧ k'.colls = (coreOf s core.toNat).colls
      ∧ k'.near = (coreOf s core.toNat).near ∧ post (coreOf s core.toNat) k' (vOp o) (iterOf r)

/-- R150: element `i` of D is `f a b d c`, each operation rounded, converted to DFMT; no other byte and no scalar register changes. -/
def writesElements (op : Nat) (f : W32 → W32 → W32 → W32 → W32) (k k' : Core) (p : VOp) (it : Nat) : Prop :=
  (∀ i, i < p.len → readBytes k'.bytes (vAddrD op p it + i * fmtSize p.dfmt) (fmtSize p.dfmt)
      = leBytes (fmtSize p.dfmt) (codeOfFp p.dfmt (f (elemAt k.bytes (vAddrA op p it) p.afmt i)
          (elemAt k.bytes (vAddrB op p it) p.afmt i) (elemAt k.bytes (vAddrD op p it) p.dfmt i) (scalarOf k p.sidx))))
    ∧ sameOutside k.bytes k'.bytes (vAddrD op p it) (p.len * fmtSize p.dfmt) ∧ k'.scalars = k.scalars

/-- R151: the scalar register SIDX receives `f a b`; no other scalar register and no byte changes. -/
def writesScalar (op : Nat) (f : List W32 → List W32 → W32) (k k' : Core) (p : VOp) (it : Nat) : Prop :=
  scalarOf k' p.sidx = f (elems k.bytes (vAddrA op p it) p.afmt p.len) (elems k.bytes (vAddrB op p it) p.afmt p.len)
    ∧ (∀ n, n ≠ p.sidx → scalarOf k' n = scalarOf k n) ∧ ∀ x, readByte k'.bytes x = readByte k.bytes x

/-- R152, R153: D receives the list `f a b c`, converted to DFMT; B's elements are counted and read as `bn` of format `bf`. -/
def writesList (op : Nat) (bf : VOp → Nat) (bn : VOp → Nat) (f : List W32 → List W32 → W32 → VOp → List W32) (k k' : Core) (p : VOp)
    (it : Nat) : Prop :=
  readBytes k'.bytes (vAddrD op p it) (p.len * fmtSize p.dfmt)
      = packElems p.dfmt (f (elems k.bytes (vAddrA op p it) p.afmt p.len) (elems k.bytes (vAddrB op p it) (bf p) (bn p)) (scalarOf k p.sidx) p)
    ∧ sameOutside k.bytes k'.bytes (vAddrD op p it) (p.len * fmtSize p.dfmt) ∧ k'.scalars = k.scalars

/-- R156: entry `i` of the table for centroid `i`; inner product, or squared distance. -/
def writesTable (op : Nat) (ip : Bool) (k k' : Core) (p : VOp) (it : Nat) : Prop :=
  (∀ i, i < (if p.wide then 16 else 256) → readBytes k'.bytes (vAddrD op p it + 2 * i) 2
      = leBytes 2 (tableEntry ip (elems k.bytes (vAddrA op p it) p.afmt p.len)
          (elems k.bytes (vAddrB op p it + i * p.len * fmtSize p.afmt) p.afmt p.len) (scalarOf k p.sidx)))
    ∧ sameOutside k.bytes k'.bytes (vAddrD op p it) (2 * (if p.wide then 16 else 256)) ∧ k'.scalars = k.scalars

/-- An S instruction starts with its issue and writes its result (R164, R165). -/
def sStarts (mk : CoreId → Hdr → BitVec 88 → Instr) (op : Nat) (result : Core → SOp → Nat → List Byte) : Prop :=
  ∀ (s : State) (core : CoreId) (h : Hdr) (o : BitVec 88) (r : Running),
    issuable s core.toNat r ⟨2, op, h, o⟩ → sCheck r.desc op o (iterOf r) = none →
    allFull (coreOf s core.toNat) (sReads o (iterOf r)) → allFree (coreOf s core.toNat) (sWrites o (iterOf r)) →
    ∃ k', exec (mk core h o) s = .next (setCore s core.toNat k') ∧ k'.run = some (stepPc r ⟨2, op, h, o⟩)
      ∧ k'.tokens = (issueTokens (coreOf s core.toNat) h .armed).tokens
      ∧ k'.flights = [{ flightOf (coreOf s core.toNat) r ⟨2, op, h, o⟩ with
          started := true, writes := sWrites o (iterOf r), cycles := sCycles op (sOp o) }]
      ∧ (∀ n, slotOf k' n = if n ∈ sWrites o (iterOf r) then .filling else slotOf (coreOf s core.toNat) n)
      ∧ readBytes k'.bytes (sAddrDst (sOp o) (iterOf r)) (sResultSize (sOp o)) = result (coreOf s core.toNat) (sOp o) (iterOf r)
      ∧ sameOutside (coreOf s core.toNat).bytes k'.bytes (sAddrDst (sOp o) (iterOf r)) (sResultSize (sOp o))
      ∧ k'.scalars = (coreOf s core.toNat).scalars ∧ k'.active = (coreOf s core.toNat).active ∧ k'.colls = (coreOf s core.toNat).colls

/-- The valid elements of the row of an S instruction (R160, R161). -/
def validRow (k : Core) (p : SOp) (it : Nat) : List SElem := (sRow k.bytes p (sAddrRow p it)).filter (sValid p)

/-- A stream all of whose rows are taken with its issue: the core after its first row, the load-behind that begins with it, and the rows
behind (R128 to R135). -/
def streamRuns (mk : CoreId → Hdr → BitVec 88 → Instr) (op : Nat) : Prop :=
  ∀ (s : State) (core : CoreId) (h : Hdr) (o : BitVec 88) (r : Running) (k1 k2 : Core) (steps1 steps : Nat) (zero1 zero : Bool),
    issuable s core.toNat r ⟨0, op, h, o⟩ → mCheck r.desc op o = none → (coreOf s core.toNat).active.state = .loaded →
    pairOk (coreOf s core.toNat).active.fmt (streamOp o).afmt = true →
    (streamOp o).arow < rowsPerTile (streamOp o).afmt (coreOf s core.toNat).active.sparse →
    streamRows (streamOp o) (op == 4) 1
        { issued (coreOf s core.toNat) r ⟨0, op, h, o⟩ with
            arrayOn := true, flights := [flightOf (coreOf s core.toNat) r ⟨0, op, h, o⟩] }
        0 (if (coreOf s core.toNat).arrayOn then 0 else 48) true
      = (none, k1, 1, steps1, zero1) →
    ((streamOp o).lben = true → allFull k1 (loadSlots (streamOp o).lb) ∧ k1.shadow.state ≠ .loading) →
    streamRows (streamOp o) (op == 4) ((streamOp o).rows - 1)
        { k1 with shadow := if (streamOp o).lben then loadPlane k1 (streamOp o).lb else k1.shadow } 1 steps1 zero1
      = (none, k2, (streamOp o).rows, steps, zero) →
    ∃ f, exec (mk core h o) s = .next (setCore s core.toNat { closeLoad k2 (streamOp o) (streamOp o).rows (streamOp o).lben with flights := [f] })
      ∧ f.word = ⟨0, op, h, o⟩ ∧ f.started = true
      ∧ f.id = r.issued ∧ f.index = r.pc ∧ f.cycles = steps + 40
      ∧ k2.run = some (stepPc r ⟨0, op, h, o⟩) ∧ k2.active = (coreOf s core.toNat).active ∧ k2.scalars = (coreOf s core.toNat).scalars

/-- The core after a C instruction has issued and listed its copies, all held. -/
def copyFlightOf (k : Core) (r : Running) (w : EWord) (l : List Copy) (more : List Nat) : Flight :=
  { flightOf k r w with
    started := true, reads := (flightOf k r w).reads ++ more, rel := (flightOf k r w).rel ++ more, work := .copies l }

/-- The copies of a C instruction all start with its issue, in order, as `copyStart` starts each (R223 to R225, R229). -/
def copiesStart (mk : CoreId → Hdr → BitVec 88 → Instr) (op : Nat) (gated : Bool) : Prop :=
  ∀ (s : State) (core : CoreId) (h : Hdr) (o : BitVec 88) (r : Running) (l l2 : List Copy) (s2 : State) (k2 : Core) (more : List Nat),
    issuable s core.toNat r ⟨5, op, h, o⟩ → cCheck r.desc op o = none →
    (gated = true → allFull (coreOf s core.toNat) (cReads op o)) →
    copiesOf s (coreOf s core.toNat) r.desc o op = .ok l →
    more = (if op = 2 then (l.filter (fun c => c.src.tier == 0)).map (fun c => c.src.idx) else []) →
    (∀ c ∈ l, c.state = .held ∧ (op = 4 → c.waits ≠ [])) →
    startCopies core.toNat r.desc (copyFlightOf (coreOf s core.toNat) r ⟨5, op, h, o⟩ l more) l.zipIdx
        (countMatch (setCore s core.toNat { issued (coreOf s core.toNat) r ⟨5, op, h, o⟩ with
          flights := [copyFlightOf (coreOf s core.toNat) r ⟨5, op, h, o⟩ l more] }) r.desc o op)
        { issued (coreOf s core.toNat) r ⟨5, op, h, o⟩ with flights := [copyFlightOf (coreOf s core.toNat) r ⟨5, op, h, o⟩ l more] } []
      = (.pass, s2, k2, l2) →
    exec (mk core h o) s
      = .next (setCore s2 core.toNat { k2 with flights := [copyFlightOf (coreOf s core.toNat) r ⟨5, op, h, o⟩ l2 more] })
    ∧ l2.map (fun c => (c.src, c.dst, c.kind)) = l.map (fun c => (c.src, c.dst, c.kind)) ∧ ∀ c ∈ l2, c.state ≠ .held

/-- Byte `x` of a slot of the core, or of a tile. -/
def refByte (s : State) (k : Core) (r : TileRef) (x : Nat) : Byte :=
  if r.tier = 0 then readByte k.bytes (slotAddr r.idx + x) else readByte s.media.bytes (tileKey r * tileBytes + x)

/-- Where a copy reads in its source and writes in its destination, and how much (R223, R225). -/
def copySpan (c : Copy) : Nat × Nat × Nat := match c.kind with | .part so off len => (so, off, len) | _ => (0, 0, 16384)

/-- The source may be read: its slot or tile is FULL, and the tile lies in the unit's reach (R90, R208, R214). -/
def sourceReady (s : State) (k : Core) (g : Nat) (r : TileRef) : Prop :=
  if r.tier = 0 then slotOf k r.idx = .full else reachOk s g (tileKey r) false false = true ∧ dState (tileDesc s (tileKey r)) = tileFull

/-- The destination may be written: its slot is EMPTY or FULL, its tile is in reach and not FILLING (R90, R208, R214). -/
def destReady (s : State) (k : Core) (g : Nat) (r : TileRef) : Prop :=
  if r.tier = 0 then slotOf k r.idx = .empty ∨ slotOf k r.idx = .full
  else reachOk s g (tileKey r) true false = true ∧ dState (tileDesc s (tileKey r)) ≠ tileFilling

/-- The free part of the Glade's bucket holds the bytes (R430). -/
def tokensFor (s : State) (g : Nat) (x : Resource) (n : Nat) : Prop :=
  n = 0 ∨ ∃ r, AMap.get none s.regs g = some r ∧ (n : Int) ≤ (bucketOf r x).free

/-- Nothing holds the copies of a C instruction: no queue at a tile or a regulator, sources and destinations ready, no copy reads what
another writes, and tokens for all of them. -/
def copiesReady (s : State) (k : Core) (u : UnitDesc) (l : List Copy) : Prop :=
  s.holds = [] ∧ s.media.waits = []
  ∧ (∀ c ∈ l, isReceive c = true ∨ (sourceReady s k u.glade c.src ∧ (isCast c = false → destReady s k u.glade c.dst) ∧ ∀ e ∈ l, e.dst ≠ c.src))
  ∧ tokensFor s u.glade .t2 (sumNat (l.map (copyBytes · 1))) ∧ tokensFor s u.glade .t3 (sumNat (l.map (copyBytes · 2)))

/-- A C instruction whose copies nothing holds issues and starts its copies, as many as may fly at once: the tiles of a copy of its own
stand at its destination, those of a multicast are on their way, and a receive is open (R222 to R229). -/
def copiesComplete (mk : CoreId → Hdr → BitVec 88 → Instr) (op : Nat) : Prop :=
  ∀ (s : State) (core : CoreId) (h : Hdr) (o : BitVec 88) (r : Running) (l : List Copy),
    issuable s core.toNat r ⟨5, op, h, o⟩ → cCheck r.desc op o = none → (op = 2 → allFull (coreOf s core.toNat) (cReads 2 o)) →
    copiesOf s (coreOf s core.toNat) r.desc o op = .ok l → copiesReady s (coreOf s core.toNat) r.desc l →
    ∃ t f l', exec (mk core h o) s = .next t ∧ (coreOf t core.toNat).run = some (stepPc r ⟨5, op, h, o⟩)
      ∧ (coreOf t core.toNat).flights = [f] ∧ f.word = ⟨5, op, h, o⟩ ∧ f.started = true ∧ f.work = .copies l' ∧ l'.length = l.length
      ∧ (∀ i (hi : i < l.length) (hi' : i < l'.length), l'[i].src = l[i].src ∧ l'[i].dst = l[i].dst ∧ l'[i].kind = l[i].kind
          ∧ (i < 64 → l'[i].state ≠ .held
            ∧ (isCast l[i] = false → isReceive l[i] = false → ∀ x, x < (copySpan l[i]).2.2 →
                refByte t (coreOf t core.toNat) l[i].dst ((copySpan l[i]).2.1 + x)
                  = refByte s (coreOf s core.toNat) l[i].src ((copySpan l[i]).1 + x))
            ∧ (isCast l[i] = true → ∀ x, x < 16384 → readByte l'[i].data x = refByte s (coreOf s core.toNat) l[i].src x)))
      ∧ (coreOf t core.toNat).scalars = (coreOf s core.toNat).scalars ∧ (coreOf t core.toNat).active = (coreOf s core.toNat).active
      ∧ t.chip.groups = (countMatch s r.desc o op).chip.groups ∧ t.reqs = s.reqs ∧ t.log = s.log

end Sys2Proof.Claims

/-! ### Dispatcher operations (R84) -/

/-- R84: NOP and DRAIN only advance (DRAIN when nothing is in execution), SLOTFREE releases its FULL slots, TOKCLR clears its SET tokens before
its own signal, and LOOP opens a loop over the instructions behind it. -/
def Obligations.DispatcherOperationsIssueAndComplete : Prop :=
  dispIssues .nop 0 (fun k k' h _ => (∀ x, tokenOf k' x = tokenAfter k h x) ∧ k'.slots = k.slots ∧ k'.bytes = k.bytes)
  ∧ dispIssues .drain 5 (fun k k' h _ => (∀ x, tokenOf k' x = tokenAfter k h x) ∧ k'.slots = k.slots ∧ k'.bytes = k.bytes)
  ∧ dispIssues .loop 2 (fun k k' h o => (∀ x, tokenOf k' x = tokenAfter k h x) ∧ k'.slots = k.slots ∧ k'.bytes = k.bytes
      ∧ k'.run.map (fun q => q.frames.head?) = k.run.map (fun q => some ⟨q.pc + 1, fld o 16 12, fld o 0 16, 0⟩))
  ∧ dispIssues .slotfree 3 (fun k k' h o => (∀ x, tokenOf k' x = tokenAfter k h x)
      ∧ (∀ n, slotOf k' n = if fld o 0 8 ≤ n ∧ n < fld o 0 8 + fld o 8 8 ∧ slotOf k n = .full then .empty else slotOf k n)
      ∧ ∀ x, readByte k'.bytes x = if fld o 0 8 ≤ x / 16384 ∧ x / 16384 < fld o 0 8 + fld o 8 8 ∧ slotOf k (x / 16384) = .full then 0#8
          else readByte k.bytes x)
  ∧ dispIssues .tokclr 4 (fun k k' h o =>
      (∀ x, tokenOf k' x = if h.sigen = true ∧ x = h.sigtok.toNat then .set
          else if x < 64 ∧ bitOf o x = true ∧ tokenAfter k h x = .set then .idle else tokenAfter k h x)
      ∧ k'.slots = k.slots ∧ k'.bytes = k.bytes)

/-- R85, R90, R95: END with nothing in execution ends the unit: the core is free, its slots EMPTY and its tokens IDLE, its scalar registers
as they were; the unit leaves the scheduler's table and its successors have one predecessor less. -/
def Obligations.EndOfAUnitFreesItsCore : Prop :=
  ∀ (s : State) (core : CoreId) (h : Hdr) (o : BitVec 88) (r : Running),
    issuable s core.toNat r ⟨15, 1, h, o⟩ → fld o 0 88 = 0 → r.frames = [] → r.replay = false → r.result = .none →
    ∃ t, exec (.endUnit core h o) s = .next t ∧ (coreOf t core.toNat).run = none
      ∧ (∀ n, slotOf (coreOf t core.toNat) n = .empty) ∧ (∀ x, tokenOf (coreOf t core.toNat) x = .idle)
      ∧ (coreOf t core.toNat).scalars = (coreOf s core.toNat).scalars
      ∧ (∀ n, n ≠ core.toNat → coreOf t n = coreOf s n)
      ∧ t.chip.units = ((s.chip.units.filter (fun u => u.desc.unitId != r.desc.unitId)).map
          (fun u => if r.desc.succs.contains u.desc.unitId then { u with left := u.left - 1 } else u))
      ∧ t.media = s.media ∧ t.log = s.log ∧ t.reqs = s.reqs

/-! ### The matrix engine (R119 to R135) -/

/-- R119, R120: MLOAD takes the element plane of its half slot, and the side record, into the shadow plane, which is LOADING. -/
def Sys2Proof.Claims.mloadLoadsTheShadowPlane : Prop :=
  ∀ (s : State) (core : CoreId) (h : Hdr) (o : BitVec 88) (r : Running),
    issuable s core.toNat r ⟨0, 1, h, o⟩ → mCheck r.desc 1 o = none → (coreOf s core.toNat).shadow.state ≠ .loading →
    allFull (coreOf s core.toNat) (loadSlots (mloadOp o)) →
    ∃ p : Plane, exec (.mload core h o) s = .next (setCore s core.toNat { issued (coreOf s core.toNat) r ⟨0, 1, h, o⟩ with
        shadow := p
        flights := [{ flightOf (coreOf s core.toNat) r ⟨0, 1, h, o⟩ with
          started := true, cycles := 64 + ceilDiv (recordSize (mloadOp o).wfmt (mloadOp o).sparse) 128 }] })
      ∧ p.state = .loading ∧ p.fmt = (mloadOp o).wfmt ∧ p.sparse = (mloadOp o).sparse
      ∧ (∀ i, i < 8192 → readByte p.elems i
          = readByte (coreOf s core.toNat).bytes (16384 * (mloadOp o).wslot + 8192 * (mloadOp o).half + i))
      ∧ ((mloadOp o).side = true → ∀ i, i < recordSize (mloadOp o).wfmt (mloadOp o).sparse → readByte p.side i
          = readByte (coreOf s core.toNat).bytes (16384 * (mloadOp o).sslot + 512 * (mloadOp o).soff + i))

/-- R121: MSWAP exchanges the planes when the shadow plane is LOADED. -/
def Sys2Proof.Claims.mswapExchangesThePlanes : Prop :=
  ∀ (s : State) (core : CoreId) (h : Hdr) (o : BitVec 88) (r : Running),
    issuable s core.toNat r ⟨0, 2, h, o⟩ → fld o 0 88 = 0 → (coreOf s core.toNat).shadow.state = .loaded →
    exec (.mswap core h o) s = .next (setCore s core.toNat { issued (coreOf s core.toNat) r ⟨0, 2, h, o⟩ with
      active := (coreOf s core.toNat).shadow, shadow := (coreOf s core.toNat).active
      flights := [{ flightOf (coreOf s core.toNat) r ⟨0, 2, h, o⟩ with started := true }] })

/-- R119 to R121: MLOAD and MSWAP. -/
def Obligations.MatrixPlanes : Prop := mloadLoadsTheShadowPlane ∧ mswapExchangesThePlanes

/-- R128, R134: a stream of MSTREAM or MACC that nothing holds takes all its rows, in order, from the active plane. -/
def Sys2Proof.Claims.streamsTakeTheirRows : Prop := streamRuns .mstream 3 ∧ streamRuns .macc 4

/-- R118, R129, R131, R134: what one row of a stream writes: 128 words of its output row, column by column; the sums of the active plane's
columns from 0 for MSTREAM and from what the row holds for MACC, and zeros (what it holds) beyond the output columns. -/
def Sys2Proof.Claims.streamRowWritesItsSums : Prop :=
  ∀ (k k' : Core) (p : StreamOp) (macc : Bool) (j steps st' : Nat) (zero z' : Bool) (n : Nat),
    streamOne k p macc j steps zero = .done k' st' z' → n < 128 →
    (streamRow p k.active.sparse j).1 < 192 →
    readBytes k'.bytes (slotAddr (streamOut p macc j).1 + (streamOut p macc j).2 * 512 + 4 * n) 4
      = leBytes 4 (if n < outColumns k.active.fmt then
          columnResult k.active (readARow k.bytes (streamRow p k.active.sparse j).1 p.afmt k.active.sparse (streamRow p k.active.sparse j).2) n
            (if macc then BitVec.ofNat 32 (readNat k.bytes (slotAddr (streamOut p macc j).1 + (streamOut p macc j).2 * 512 + 4 * n) 4) else 0#32)
        else if macc then BitVec.ofNat 32 (readNat k.bytes (slotAddr (streamOut p macc j).1 + (streamOut p macc j).2 * 512 + 4 * n) 4)
        else 0#32).toNat

/-- R118, R128 to R134: MSTREAM and MACC, and what each row of a stream writes. -/
def Obligations.StreamsRunAndSum : Prop := streamsTakeTheirRows ∧ streamRowWritesItsSums

/-! ### The vector engine (R143 to R157) -/

/-- R150: the two-operand and three-operand elementwise instructions. -/
def Sys2Proof.Claims.vectorElementwise : Prop :=
  vStarts .vadd 1 (writesElements 1 (fun a b _ _ => fpAdd a b)) ∧ vStarts .vsub 2 (writesElements 2 (fun a b _ _ => fpSub a b))
  ∧ vStarts .vmul 3 (writesElements 3 (fun a b _ _ => fpMul a b)) ∧ vStarts .vfma 4 (writesElements 4 (fun a b d _ => fpFma a b d))
  ∧ vStarts .vscale 5 (writesElements 5 (fun a _ _ c => fpMul a c)) ∧ vStarts .vmax 6 (writesElements 6 (fun a b _ _ => fpMax a b))
  ∧ vStarts .vmin 7 (writesElements 7 (fun a b _ _ => fpMin a b)) ∧ vStarts .vcvt 8 (writesElements 8 (fun a _ _ _ => a))

/-- R145, R150: the elementwise functions: the exponential of a difference, the reciprocal square root, and the activations with a gate. -/
def Sys2Proof.Claims.vectorFunctions : Prop :=
  vStarts .vexp 9 (writesElements 9 (fun a _ _ c => fpExp (fpSub a c))) ∧ vStarts .vrsqrt 10 (writesElements 10 (fun a _ _ _ => fpRsqrt a))
  ∧ vStarts .vsilu 11 (writesElements 11 (fun a _ _ _ => fpMul a (fpSigma a)))
  ∧ vStarts .vswiglu 12 (writesElements 12 (fun a b _ _ => fpMul (fpMul a (fpSigma a)) b))
  ∧ vStarts .vgelu 13 (writesElements 13 (fun a _ _ _ => fpMul a (fpPhi a)))
  ∧ vStarts .vgeglu 14 (writesElements 14 (fun a b _ _ => fpMul (fpMul a (fpPhi a)) b))

/-- R150: every elementwise instruction of the vector engine. -/
def Obligations.VectorElementwise : Prop := vectorElementwise ∧ vectorFunctions

/-- R151: the reductions, in element order from the start value, into the scalar register SIDX. -/
def Sys2Proof.Claims.vectorReductions : Prop :=
  vStarts .vsum 16 (writesScalar 16 (fun a _ => a.foldl fpAdd 0#32))
  ∧ vStarts .vsumsq 17 (writesScalar 17 (fun a _ => a.foldl (fun acc x => fpFma x x acc) 0#32))
  ∧ vStarts .vdot 18 (writesScalar 18 (fun a b => (a.zip b).foldl (fun acc p => fpFma p.1 p.2 acc) 0#32))
  ∧ vStarts .vmaxr 19 (writesScalar 19 (fun a _ => a.foldl fpMax fp32NegInf))

/-- R152, R153: the row operations and the rotation. -/
def Sys2Proof.Claims.vectorRowOperations : Prop :=
  vStarts .vrmsnorm 32 (writesList 32 (fun p => p.afmt) (fun p => p.len) (fun a b c _ => rmsNorm a b c))
  ∧ vStarts .vnorm2 33 (writesList 33 (fun p => p.afmt) (fun p => p.len) (fun a _ _ _ => normTwo a))
  ∧ vStarts .vsoftmax 34 (writesList 34 (fun p => p.afmt) (fun p => p.len) (fun a _ c _ => softmax a c))
  ∧ vStarts .vrope 35 (writesList 35 (fun _ => 9) (fun p => p.len / 2) (fun a f c p => rope a f (fpOfInt c.toInt) p.wide))

/-- R151 to R153: the reductions, the row operations and the rotation. -/
def Obligations.VectorReductionsAndRows : Prop := vectorReductions ∧ vectorRowOperations

/-- R150, R154, R156: distance tables, scalar loads and stores, and the packing of rows into an A-tile with their HB4 scales. -/
def Obligations.VectorTablesScalarsAndPacking : Prop :=
  vStarts .dtip 49 (writesTable 49 true) ∧ vStarts .dtl2 50 (writesTable 50 false)
  ∧ vStarts .sload 56 (fun k k' p it => (∀ i, i < p.len → scalarOf k' (p.sidx + i)
        = BitVec.ofNat 32 (readNat k.bytes (vAddrA 56 p it + 4 * i) 4))
      ∧ (∀ n, n < p.sidx ∨ p.sidx + p.len ≤ n → scalarOf k' n = scalarOf k n) ∧ ∀ x, readByte k'.bytes x = readByte k.bytes x)
  ∧ vStarts .sstore 57 (fun k k' p it => (∀ i, i < p.len → readBytes k'.bytes (vAddrD 57 p it + 4 * i) 4
        = leBytes 4 (scalarOf k (p.sidx + i)).toNat)
      ∧ sameOutside k.bytes k'.bytes (vAddrD 57 p it) (4 * p.len) ∧ k'.scalars = k.scalars)
  ∧ vStarts .packa 48 (fun k k' p _ =>
      readBytes k'.bytes (slotAddr p.dslot + p.doff * rowBytes p.dfmt p.wide) (p.len * rowBytes p.dfmt p.wide)
          = (packaRows k.bytes p (scalarOf k p.sidx)).flatMap (fun q => q.1)
      ∧ (p.dfmt = 0 → readBytes k'.bytes (slotAddr p.dslot + 15360 + p.doff * rowScales p.wide) (p.len * rowScales p.wide)
          = (packaRows k.bytes p (scalarOf k p.sidx)).flatMap (fun q => q.2))
      ∧ k'.scalars = k.scalars)

/-! ### The select engine (R160 to R170) -/

/-- R165, R168, R170: TOPK, ARGMAX and THRESH write their result over the valid elements of their row. -/
def Obligations.SelectionsWriteTheirResult : Prop :=
  sStarts .topk 1 (fun k p it => sResult p false (validRow k p it)
      (topk p (validRow k p it) (if p.bound then some (sBound k.bytes p.bnd) else none)))
  ∧ sStarts .argmax 2 (fun k p it => sResult p false (validRow k p it) (topk p (validRow k p it) none))
  ∧ sStarts .thresh 3 (fun k p it => sResult p true (validRow k p it) (thresh p (validRow k p it) (sBound k.bytes p.bnd)))

/-- R162, R168: on a row whose valid elements have distinct positions, a first pass of TOPK takes min(K, valid) of them, in rank order,
and no element it leaves ranks before one it takes. -/
def Obligations.TopkTakesTheHighestRanked : Prop :=
  ∀ (p : SOp) (l : List SElem), (l.map (fun e => e.pos)).Nodup → (∀ e ∈ l, e.val.isNan = false) →
    (topk p l none).taken.length = min p.k l.length
    ∧ (∀ e ∈ (topk p l none).taken, e ∈ l)
    ∧ (topk p l none).taken.Pairwise (fun a b => ranksBefore a b = true)
    ∧ ∀ e ∈ l, e ∉ (topk p l none).taken → ∀ x ∈ (topk p l none).taken, ranksBefore x e = true

/-! ### The gather engine (R176 to R184) -/

/-- The contexts of a GPOOL: one for each entry of its bag list that is no padding (R180, R183). -/
def Sys2Proof.Claims.gatherContexts (k : Core) (p : GOp) (d : GDesc) (it : Nat) : List GCtx :=
  (bagEntries k.bytes p (gAddrList p it)).map (fun e =>
    ⟨e.1, e.2.1, e.2.2, if d.local_ then 0 else rowAddr d.base d.stride e.2.1, 0, 0, [], .free⟩)

/-- R98, R182, R183, R187, R191: a GPOOL from T2 launches its lookups in order, up to the 1,024 context numbers, each at the copy that R191
selects, its output slots FILLING; with no entry its bags are 0 at once. -/
def Obligations.GpoolLaunchesItsLookups : Prop :=
  ∀ (s : State) (core : CoreId) (h : Hdr) (o : BitVec 88) (r : Running) (d : GDesc) (m : List GCtx),
    issuable s core.toNat r ⟨3, 1, h, o⟩ → gCheck (coreOf s core.toNat) r.desc 1 o (iterOf r) = none → allFull (coreOf s core.toNat) (gReads o (iterOf r)) →
    d = gDesc (coreOf s core.toNat).bytes (gOp o).desc → gDescOk d = true → d.local_ = false →
    gAddrOut (gOp o) d.width (iterOf r) + gOutLen (gOp o) d.width ≤ 192 * 16384 →
    rangeOk r.desc (gAddrOut (gOp o) d.width (iterOf r)) (gOutLen (gOp o) d.width) = true →
    versionHeld s d.table d.version = false →
    allFree (coreOf s core.toNat) (slotsOf (gAddrOut (gOp o) d.width (iterOf r)) (gOutLen (gOp o) d.width)) →
    m = gatherContexts (coreOf s core.toNat) (gOp o) d (iterOf r) →
    (∀ x ∈ m, x.row < d.rows ∧ rowReach s r.desc.glade x.addr d.stride = true) →
    ∃ k' f l, exec (.gpool core h o) s = .next (setCore (sampleLookups s (coreOf s core.toNat).lookups (l.take 1024)) core.toNat k')
      ∧ k'.flights = [f] ∧ f.word = ⟨3, 1, h, o⟩ ∧ f.started = true ∧ f.work = .gather (gOp o).desc d.table d.version d.base l
      ∧ l.length = m.length
      ∧ (∀ i (hi : i < l.length) (hm : i < m.length), l[i] = if i < 1024 then
          { m[i] with num := i, copy := copyAddr s ((siteOf s core.toNat).getD 0) m[i].addr, state := .waiting } else m[i])
      ∧ k'.lookups = (coreOf s core.toNat).lookups + min 1024 m.length
      ∧ (∀ n, slotOf k' n = if n ∈ slotsOf (gAddrOut (gOp o) d.width (iterOf r)) (gOutLen (gOp o) d.width) then .filling
          else slotOf (coreOf s core.toNat) n)
      ∧ k'.scalars = (coreOf s core.toNat).scalars ∧ k'.colls = (coreOf s core.toNat).colls
      ∧ (m = [] → readBytes k'.bytes (gAddrOut (gOp o) d.width (iterOf r)) (gOutLen (gOp o) d.width)
          = (List.range (gOp o).bags).flatMap (fun _ => packElems (gOp o).ofmt (List.replicate d.width 0#32)))

/-! ### The search engine (R258 to R268) -/

/-- R261, R263: QOPEN opens its collector, empty, with the scan descriptor and filter block that its operands name. -/
def Sys2Proof.Claims.qopenOpensACollector : Prop :=
  ∀ (s : State) (core : CoreId) (h : Hdr) (o : BitVec 88) (r : Running) (d : ScanDesc),
    issuable s core.toNat r ⟨4, 1, h, o⟩ → qCheck r.desc 1 o = none → allFull (coreOf s core.toNat) (qReads 1 o) →
    d = scanDescAt (coreOf s core.toNat).bytes (qOpenOp o).desc (qOpenOp o).filt →
    (d.acl = none ∨ rangeOk r.desc ((qOpenOp o).filt + 64) 8192 = true ∧ allFull (coreOf s core.toNat) (slotsOf ((qOpenOp o).filt + 64) 8192)) →
    scanDescOk (coreOf s core.toNat).bytes (qOpenOp o).desc (qOpenOp o).filt d = true →
    ∃ k', exec (.qopen core h o) s = .next (setCore s core.toNat k')
      ∧ collOf k' (qOpenOp o).coll = ⟨true, (qOpenOp o).k, [], 0, 0, 0, 0, 0, d⟩
      ∧ (∀ n, n ≠ (qOpenOp o).coll → collOf k' n = collOf (coreOf s core.toNat) n)
      ∧ k'.flights.map (fun f => (f.word, f.started, f.cycles)) = [(⟨4, 1, h, o⟩, true, if d.acl = none then 24 else 88)]
      ∧ k'.bytes = (coreOf s core.toNat).bytes ∧ k'.slots = (coreOf s core.toNat).slots ∧ k'.scalars = (coreOf s core.toNat).scalars

/-- R98, R264: QSCAN on an open collector puts its probe entries in contexts, in order, up to the 4,096 context numbers. -/
def Sys2Proof.Claims.qscanLaunchesItsContexts : Prop :=
  ∀ (s : State) (core : CoreId) (h : Hdr) (o : BitVec 88) (r : Running),
    issuable s core.toNat r ⟨4, 2, h, o⟩ → qCheck r.desc 2 o = none → allFull (coreOf s core.toNat) (qReads 2 o) →
    (collOf (coreOf s core.toNat) (qScanOp o).coll).isOpen = true →
    ∃ f l, exec (.qscan core h o) s = .next (setCore s core.toNat { issued (coreOf s core.toNat) r ⟨4, 2, h, o⟩ with flights := [f] })
      ∧ f.word = ⟨4, 2, h, o⟩ ∧ f.started = true ∧ f.work = .scan (qScanOp o).coll l ∧ l.length = (qScanOp o).n
      ∧ ∀ i (hi : i < l.length), l[i] = { probeAt (coreOf s core.toNat).bytes ((qScanOp o).probe + 16 * i) with
          num := if i < 4096 then i else 0, state := if i < 4096 then .waiting else .free }

/-- R265: QDRAIN writes the collector's summary and entries and closes it. -/
def Sys2Proof.Claims.qdrainWritesAndCloses : Prop :=
  ∀ (s : State) (core : CoreId) (h : Hdr) (o : BitVec 88) (r : Running) (cl : Collector),
    issuable s core.toNat r ⟨4, 3, h, o⟩ → qCheck r.desc 3 o = none → cl = collOf (coreOf s core.toNat) (qDrainOp o).coll →
    cl.isOpen = true → cl.entries.length ≤ cl.k → (qDrainOp o).out + 64 + 16 * cl.k ≤ 192 * 16384 →
    rangeOk r.desc (qDrainOp o).out (64 + 16 * cl.k) = true →
    allFree (coreOf s core.toNat) (slotsOf (qDrainOp o).out (64 + 16 * cl.k)) →
    ∃ k', exec (.qdrain core h o) s = .next (setCore s core.toNat k')
      ∧ (collOf k' (qDrainOp o).coll).isOpen = false
      ∧ (∀ n, n ≠ (qDrainOp o).coll → collOf k' n = collOf (coreOf s core.toNat) n)
      ∧ readBytes k'.bytes (qDrainOp o).out 32 = leBytes 4 cl.entries.length ++ leBytes 4 cl.k ++ leBytes 8 cl.scored
          ++ leBytes 4 cl.filtered ++ leBytes 4 cl.tombstoned ++ leBytes 4 cl.scanned ++ leBytes 4 cl.skipped
      ∧ (∀ i (hi : i < cl.entries.length), readBytes k'.bytes ((qDrainOp o).out + 64 + 16 * i) 16
          = leBytes 4 (intBits 32 cl.entries[i].score) ++ leBytes 4 cl.entries[i].tag ++ leBytes 8 cl.entries[i].pid)
      ∧ (∀ i, cl.entries.length ≤ i → i < cl.k → readBytes k'.bytes ((qDrainOp o).out + 64 + 16 * i) 16 = fillEntry)
      ∧ sameOutside (coreOf s core.toNat).bytes k'.bytes (qDrainOp o).out (64 + 16 * cl.k)
      ∧ k'.flights.map (fun f => (f.word, f.started)) = [(⟨4, 3, h, o⟩, true)]

/-- R261 to R265: QOPEN, QSCAN and QDRAIN. -/
def Obligations.SearchCommands : Prop := qopenOpensACollector ∧ qscanLaunchesItsContexts ∧ qdrainWritesAndCloses

/-- R261: a record offered to a collector with its entries in order leaves them in order and at most K, and an entry that left was ranked
behind every entry that stays. -/
def Obligations.CollectorKeepsTheFirstRanked : Prop :=
  ∀ (c : Collector) (e : Held), c.entries.Pairwise (fun a b => heldBefore b a = false) → c.entries.length ≤ c.k →
    (offer c e).entries.Pairwise (fun a b => heldBefore b a = false) ∧ (offer c e).entries.length ≤ c.k
    ∧ (∀ x ∈ (offer c e).entries, x = e ∨ x ∈ c.entries)
    ∧ (∀ x, (x = e ∨ x ∈ c.entries) → x ∉ (offer c e).entries → ∀ y ∈ (offer c e).entries, heldBefore x y = false)
    ∧ (offer c e).entries.length = min c.k (c.entries.length + 1)

/-! ### The copy engine (R213, R222 to R232) -/

/-- R223 to R225, R227, R229: the copies of CTILE, CLIST, CPART, CMCAST and CRECV start in order. -/
def Sys2Proof.Claims.fiveCopiesStart : Prop :=
  copiesStart .ctile 1 false ∧ copiesStart .clist 2 true ∧ copiesStart .cpart 3 false ∧ copiesStart .cmcast 4 false
    ∧ copiesStart .crecv 5 false

/-- R82, R90, R208, R214, R222 to R229, R430: CTILE, CLIST, CPART, CMCAST and CRECV complete their issue and start when nothing holds them. -/
def Sys2Proof.Claims.copyInstructionsComplete : Prop :=
  copiesComplete .ctile 1 ∧ copiesComplete .clist 2 ∧ copiesComplete .cpart 3 ∧ copiesComplete .cmcast 4 ∧ copiesComplete .crecv 5

/-- R213, R226: CSETD writes the moved fields of the descriptor in T0 into the slot's descriptor: all but STATE, NC, GLADE and WP. -/
def Sys2Proof.Claims.csetdSetsADescriptor : Prop :=
  ∀ (s : State) (core : CoreId) (h : Hdr) (o : BitVec 88) (r : Running),
    issuable s core.toNat r ⟨5, 6, h, o⟩ → cCheck r.desc 6 o = none → allFull (coreOf s core.toNat) (cReads 6 o) →
    ∃ k' : Core, exec (.csetd core h o) s = .next (setCore s core.toNat k')
      ∧ (∀ b, b < 512 → bitOf (slotDesc k' (fld o 0 8)) b
          = (if b < 2 ∨ b = 14 ∨ (16 ≤ b ∧ b < 20) ∨ b = 47 then bitOf (slotDesc (coreOf s core.toNat) (fld o 0 8)) b
             else bitOf (readByte (coreOf s core.toNat).bytes (addr16 (fld o 8 8) (fld o 16 10) + b / 8)) (b % 8)))
      ∧ (∀ n, n ≠ fld o 0 8 → slotDesc k' n = slotDesc (coreOf s core.toNat) n)
      ∧ k'.bytes = (coreOf s core.toNat).bytes ∧ k'.slots = (coreOf s core.toNat).slots ∧ k'.scalars = (coreOf s core.toNat).scalars
      ∧ k'.flights = [{ flightOf (coreOf s core.toNat) r ⟨5, 6, h, o⟩ with started := true }]

/-- R213, R222 to R229: the instructions of the copy engine complete: the five whose copies start in order, and CSETD. -/
def Obligations.CopiesAndDescriptors : Prop := copyInstructionsComplete ∧ csetdSetsADescriptor ∧ fiveCopiesStart

/-- R213, R214, R229, R230: a whole tile that a CTILE or CLIST copies from T2 into a slot: the 16,384 payload bytes are the tile's, the
slot is FILLING until the copy completes, and its descriptor takes the moved fields, with the CRC-32C of the LENGTH bytes in use. -/
def Obligations.WholeTileCopyMovesTheTile : Prop :=
  ∀ (s : State) (core : Nat) (k : Core) (u : UnitDesc) (f : Flight) (i src n : Nat) (s2 : State),
    src < t2Tiles → n < 192 → copiesOpen k = [] → s.media.waits = [] →
    reachOk s u.glade src false false = true → dState (tileDesc s src) = 2 →
    (slotOf k n = .empty ∨ slotOf k n = .full ∧ readByOthers k 5 n = false ∧ heldByRing k n = false) →
    drawTokens s u.glade .t2 16384 (unitReserved u) ⟨u.glade, 0, core, f.id, i⟩ = some s2 →
    ∃ k', copyStart s core k u f i ⟨⟨1, src⟩, ⟨0, n⟩, .whole, .held, [], [], 0⟩
        = .go s2 k' ⟨⟨1, src⟩, ⟨0, n⟩, .whole, .flying, [], [], 0⟩
      ∧ slotOf k' n = .filling ∧ (∀ m, m ≠ n → slotOf k' m = slotOf k m)
      ∧ (∀ x, x < 16384 → readByte k'.bytes (16384 * n + x) = readByte s.media.bytes (16384 * src + x))
      ∧ sameOutside k.bytes k'.bytes (16384 * n) 16384
      ∧ slotDesc k' n = setDState (copiedDesc (tileDesc s src) (slotDesc k n) (devBytes s (16384 * src) 16384)) 0
      ∧ s2.media = s.media

/-! ### The cipher engine (R366 to R370) -/

/-- R368, R369: XDEC and XOPEN put the plaintext of a tile into a slot. -/
def Sys2Proof.Claims.xdecAndXopenDecrypt : Prop :=
  (∀ (s s1 : State) (core : CoreId) (h : Hdr) (o : BitVec 88) (r : Running) (v : VKey) (pl : List Byte) (d : BitVec 512),
    issuable s core.toNat r ⟨6, 1, h, o⟩ → xCheck r.desc 1 o = none →
    sourceGate s (coreOf s core.toNat) r.desc.glade (xDecOp o).src = .pass → s.media.waits = [] →
    d = sourceDesc s (coreOf s core.toNat) (xDecOp o).src →
    keyScope s r.desc.glade (if (xDecOp o).ksrc then (xDecOp o).key else fld d 96 32) (if bitOf d 15 then some (fld d 20 12) else none)
      = some v →
    allFree (coreOf s core.toNat) [(xDecOp o).slot] →
    drawTokens s r.desc.glade .t2 (if (xDecOp o).src.tier = 1 then dLength d else 0) (unitReserved r.desc)
      ⟨r.desc.glade, 0, core.toNat, r.issued, 0⟩ = some s1 →
    gcmOpen (keyBytes v.key) (leBytes 12 (fld d 256 96)) (descAad d) (xSource s (coreOf s core.toNat) (xDecOp o).src (dLength d))
      (leBytes 16 (fld d 352 128)) = some pl →
    ∃ k', exec (.xdec core h o) s = .next (setCore s1 core.toNat k')
      ∧ readBytes k'.bytes (slotAddr (xDecOp o).slot) pl.length = pl
      ∧ sameOutside (coreOf s core.toNat).bytes k'.bytes (slotAddr (xDecOp o).slot) pl.length
      ∧ slotOf k' (xDecOp o).slot = .filling ∧ slotDesc k' (xDecOp o).slot = setFld 0#512 32 15 (dLength d)
      ∧ k'.scalars = (coreOf s core.toNat).scalars ∧ k'.flights.map (fun f => (f.word, f.started)) = [(⟨6, 1, h, o⟩, true)])
  ∧ (∀ (s s1 : State) (core : CoreId) (h : Hdr) (o : BitVec 88) (r : Running) (v : VKey) (ob : ObjState) (n off : Nat),
    issuable s core.toNat r ⟨6, 3, h, o⟩ → xCheck r.desc 3 o = none →
    AMap.get none s.keys.objects (xOpenOp o).obj = some ob → ob.verified = true → (xOpenOp o).tile ∈ ob.tiles →
    sourceGate s (coreOf s core.toNat) r.desc.glade ⟨1, (xOpenOp o).tile⟩ = .pass → s.media.waits = [] →
    keyScope s r.desc.glade ob.key none = some v → allFree (coreOf s core.toNat) [(xOpenOp o).slot] →
    off = ob.tiles.findIdx (· == (xOpenOp o).tile) * 16384 → n = min 16384 (ob.length - off) →
    drawTokens s r.desc.glade .t2 n (unitReserved r.desc) ⟨r.desc.glade, 0, core.toNat, r.issued, 0⟩ = some s1 →
    ∃ k', exec (.xopen core h o) s = .next (setCore s1 core.toNat k')
      ∧ readBytes k'.bytes (slotAddr (xOpenOp o).slot) n = gcmCtr (aesKeys (keyBytes v.key)) (leBytes 12 ob.nonce.toNat) (2 + off / 16)
          (xSource s (coreOf s core.toNat) ⟨1, (xOpenOp o).tile⟩ n)
      ∧ sameOutside (coreOf s core.toNat).bytes k'.bytes (slotAddr (xOpenOp o).slot) n
      ∧ slotOf k' (xOpenOp o).slot = .filling ∧ slotDesc k' (xOpenOp o).slot = setFld 0#512 32 15 n
      ∧ k'.scalars = (coreOf s core.toNat).scalars ∧ k'.flights.map (fun f => (f.word, f.started)) = [(⟨6, 3, h, o⟩, true)])

/-- R366, R368, R369: XENC writes the ciphertext of its slot under a fresh nonce (a free value, log 3), with KIND 5, its flags, its
tenant, key and nonce in the destination's descriptor; XSEAL writes one sealed segment outward. -/
def Sys2Proof.Claims.xencAndXsealEncrypt : Prop :=
  (∀ (s : State) (core : CoreId) (h : Hdr) (o : BitVec 88) (r : Running) (v : VKey),
    issuable s core.toNat r ⟨6, 2, h, o⟩ → xCheck r.desc 2 o = none → allFull (coreOf s core.toNat) (xReads 2 o) →
    allFree (coreOf s core.toNat) [(xEncOp o).dst] → keyScope s r.desc.glade (xEncOp o).key (some (xEncOp o).tenant) = some v →
    ∃ k', exec (.xenc core h o) s = .next (setCore (drawn s) core.toNat k')
      ∧ (∃ ct tag, gcmSeal (keyBytes v.key) (leBytes 12 (Config.freeGcmNonce s.freeCount).toNat)
            (tileAad 5 (xEncOp o).tenant (xEncOp o).key (fld (slotDesc (coreOf s core.toNat) (xEncOp o).dst) 128 128))
            (readBytes (coreOf s core.toNat).bytes (slotAddr (xEncOp o).src) (xEncOp o).len) = (ct, tag)
          ∧ readBytes k'.bytes (slotAddr (xEncOp o).dst) ct.length = ct ∧ fld (slotDesc k' (xEncOp o).dst) 352 128 = leNat tag % 2 ^ 128)
      ∧ dKind (slotDesc k' (xEncOp o).dst) = 5 ∧ bitOf (slotDesc k' (xEncOp o).dst) 12 = true
      ∧ bitOf (slotDesc k' (xEncOp o).dst) 15 = true ∧ fld (slotDesc k' (xEncOp o).dst) 20 12 = (xEncOp o).tenant
      ∧ fld (slotDesc k' (xEncOp o).dst) 96 32 = (xEncOp o).key
      ∧ fld (slotDesc k' (xEncOp o).dst) 256 96 = (Config.freeGcmNonce s.freeCount).toNat
      ∧ slotOf k' (xEncOp o).dst = .filling ∧ k'.scalars = (coreOf s core.toNat).scalars
      ∧ k'.flights.map (fun f => (f.word, f.started)) = [(⟨6, 2, h, o⟩, true)])
  ∧ (∀ (s s1 : State) (core : CoreId) (h : Hdr) (o : BitVec 88) (r : Running) (v : VKey) (e : OutEntry) (ct tag : List Byte),
    issuable s core.toNat r ⟨6, 4, h, o⟩ → xCheck r.desc 4 o = none → allFull (coreOf s core.toNat) (xReads 4 o) →
    AMap.get none s.keys.outputs (xSealOp o).desc = some e → keyScope s r.desc.glade e.key none = some v →
    drawTokens s r.desc.glade .hostOut (segmentSize (xSealOp o).len) (unitReserved r.desc)
      ⟨r.desc.glade, 3, core.toNat, r.issued, 0⟩ = some s1 →
    gcmSeal (keyBytes v.key) (leBytes 4 (2 ^ 31 + e.number) ++ leBytes 8 e.req.rid.toNat)
      (leBytes 8 e.req.rid.toNat ++ leBytes 4 e.number ++ leBytes 4 (if e.final then 1 else 0))
      (readBytes (coreOf s core.toNat).bytes (addr16 (xSealOp o).slot (xSealOp o).off) (xSealOp o).len) = (ct, tag) →
    exec (.xseal core h o) s = .next (setCore { s1 with host := s.host ++ [.segment e.req e.number e.final ct tag] } core.toNat
      { issued (coreOf s core.toNat) r ⟨6, 4, h, o⟩ with
        flights := [{ flightOf (coreOf s core.toNat) r ⟨6, 4, h, o⟩ with started := true, cycles := 40 + ceilDiv (xSealOp o).len 64 }] }))

/-- R366 to R369: the cipher engine. -/
def Obligations.CipherEngine : Prop := xdecAndXopenDecrypt ∧ xencAndXsealEncrypt

/-! ### What stops a unit (R91, R94, R501) -/

/-- R83, R91, R94: an instruction with a reserved bit set stops its unit with BAD_WORD: the core has no unit, its site is fenced and its
logical core moves at the next boundary, the stop and the Clearing are in the error log, and the other cores are untouched. -/
def Obligations.BadWordStopsTheUnit : Prop :=
  ∀ (i : Instr) (e op : Nat) (h : Hdr) (o : BitVec 88) (s : State) (r : Running) (site : Nat),
    partsOf i = some (e, op, h, o) → quiet s (coreOfInstr i).toNat r → atPc r ⟨e, op, h, o⟩ → s.media.waits = [] → h.rsvd ≠ 0#5 → r.replay = false →
    (∀ t ∈ waited h, tokenOf (coreOf s (coreOfInstr i).toNat) t = .set) →
    (h.sigen = true → tokenOf (coreOf s (coreOfInstr i).toNat) h.sigtok.toNat = .idle) →
    siteOf s (coreOfInstr i).toNat = some site → quarantineSites s = [] →
    s.log.recs.length + 2 ≤ 1048576 →
    ∃ t, exec i s = .next t ∧ (coreOf t (coreOfInstr i).toNat).run = none ∧ (coreOf t (coreOfInstr i).toNat).power = .powerGated
      ∧ site ∈ t.chip.fenced ∧ (coreOfInstr i).toNat ∈ t.chip.moves
      ∧ (∀ n, n ≠ (coreOfInstr i).toNat → coreOf t n = coreOf s n)
      ∧ (∃ a b, t.log.recs = s.log.recs ++ [a, b] ∧ a.kind = 1 ∧ a.code = 1 ∧ a.unit = r.desc.unitId ∧ a.site = site ∧ a.index = r.pc
          ∧ a.engine = e ∧ b.kind = 2)
      ∧ (∃ cl, t.chip.clearings = s.chip.clearings ++ [cl] ∧ cl.unit = r.desc ∧ cl.first.code = 1 ∧ cl.quarantine = none)
      ∧ t.media = s.media ∧ t.chip.units = s.chip.units

/-! ### Work units on cores (R85, R87, R90 to R96, R102, R103) -/

/-- R87, R90: the completion of the one instruction in execution: its signal token SET, the slots it wrote FULL, the FULL slots it read
EMPTY under RELEASE; the unit goes on, and holds the result that left with the instruction. -/
def Sys2Proof.Claims.completionSetsTokenAndSlots : Prop :=
  ∀ (s : State) (core : CoreId) (e : EngineId) (res : UnitResult) (r : Running) (f : Flight),
    (coreOf s core.toNat).run = some r → r.ended = false → r.waiting = [] → othersRest s core.toNat → locksAsked s →
    (coreOf s core.toNat).flights = [f] → f.word.engine = engineCode e → e ≠ .c → flightDone f = true →
    ∃ k', exec (.instructionComplete core e res) s = .next (setCore s core.toNat k') ∧ k'.flights = []
      ∧ k'.run = some { r with result := if res = .none then r.result else res }
      ∧ (∀ x, tokenOf k' x = if f.word.h.sigen = true ∧ x = f.word.h.sigtok.toNat then .set else tokenOf (coreOf s core.toNat) x)
      ∧ (∀ n, n ∈ f.writes → n ∉ f.rel → slotOf k' n = .full)
      ∧ (∀ n, n ∉ f.writes → n ∉ f.rel → slotOf k' n = slotOf (coreOf s core.toNat) n)
      ∧ (∀ n, n ∈ f.rel → n ∉ f.writes → slotOf (coreOf s core.toNat) n = .full →
          slotOf k' n = if f.word.h.release then .empty else .full)
      ∧ k'.scalars = (coreOf s core.toNat).scalars ∧ k'.active = (coreOf s core.toNat).active

/-- R229, R214: the response to a copy from T2 into a slot completes that copy: the slot is FULL. -/
def Sys2Proof.Claims.copyResponseFillsTheSlot : Prop :=
  ∀ (s : State) (core : CoreId) (idx : Nat) (q : ReadQuality) (r : Running) (f : Flight) (l : List Copy) (x : Copy),
    (coreOf s core.toNat).run = some r → r.ended = false → r.waiting = [] → othersRest s core.toNat → locksAsked s →
    (∀ u ∈ s.chip.units, poisonedProgram s u.desc = false) → (coreOf s core.toNat).flights = [f] → f.started = true → f.word.engine = 5 → f.work = .copies l → l[idx]? = some x →
    x.state = .flying → x.kind = .whole → x.src.tier = 1 → x.dst.tier = 0 → (q = .good ∨ q = .corrected) →
    dState (tileDesc s x.src.idx) ≠ 3 → (∀ y ∈ l, y.state = .flying ∨ y.state = .done) → (∀ y ∈ l, y.kind = .whole) →
    ∃ k' f', exec (.memoryResponse core .c idx q) s = .next (setCore s core.toNat k') ∧ k'.flights = [f']
      ∧ f'.work = .copies (l.set idx { x with state := .done }) ∧ slotOf k' x.dst.idx = .full
      ∧ (∀ n, n ≠ x.dst.idx → slotOf k' n = slotOf (coreOf s core.toNat) n) ∧ k'.bytes = (coreOf s core.toNat).bytes
      ∧ k'.tokens = (coreOf s core.toNat).tokens

/-- R87, R90, R214, R229: completions of instructions and of copies. -/
def Obligations.CompletionsAndResponses : Prop := completionSetsTokenAndSlots ∧ copyResponseFillsTheSlot

/-- R85, R96: the first ready unit starts, its program fetched or loaded ahead: nothing issued, slots EMPTY, tokens IDLE, planes EMPTY, scalars 0. -/
def Obligations.UnitStartClearsTheCore : Prop :=
  ∀ (s : State) (core : CoreId) (unit : Nat) (u : UnitState),
    s.chip.units.find? (fun x => x.desc.unitId == unit) = some u → unitReady s core.toNat u = true → unitFirst s core.toNat u = true →
    programReach s u.desc = true → poisonedProgram s u.desc = false →
    (((coreOf s core.toNat).ahead = none ∧ programFull s u.desc = true ∧ s.holds = []
        ∧ tokensFor s u.desc.glade .t2 (filledBytes (coreOf s core.toNat).near
            (touchRange s (coreOf s core.toNat).near u.desc.program (16 * u.desc.count))))
      ∨ ∃ b, (coreOf s core.toNat).ahead = some (u.desc.unitId, b) ∧ b.length = u.desc.count) →
    ∃ t r, exec (.unitStart core unit) s = .next t ∧ (coreOf t core.toNat).run = some r ∧ r.desc = u.desc ∧ r.pc = 0 ∧ r.frames = []
      ∧ r.waiting = [] ∧ r.issued = 0 ∧ r.ended = false ∧ r.buffer.length = u.desc.count
      ∧ (∀ n, slotOf (coreOf t core.toNat) n = .empty) ∧ (∀ x, tokenOf (coreOf t core.toNat) x = .idle)
      ∧ (∀ n, scalarOf (coreOf t core.toNat) n = 0#32) ∧ (coreOf t core.toNat).active.state = .empty
      ∧ (coreOf t core.toNat).shadow.state = .empty ∧ (∀ n, n ≠ core.toNat → coreOf t n = coreOf s n)
      ∧ t.chip.units = s.chip.units.map (fun x => if x.desc.unitId == u.desc.unitId then { x with running := true } else x)
      ∧ t.media = s.media ∧ t.log = s.log

/-- R92, R93, R94: an engine that makes no progress, and a unit past its bound, stop the unit: SLOT_EMPTY, TILE_EMPTY, ENGINE_PROGRESS or
UNIT_BOUND; the site is fenced and the logical core moves. -/
def Obligations.StallAndBoundStopTheUnit : Prop :=
  ∀ (s : State) (core : CoreId) (r : Running) (site : Nat),
    (coreOf s core.toNat).run = some r → r.replay = false → siteOf s core.toNat = some site →
    (∀ x ∈ s.chip.clearings, x.unit.unitId ≠ r.desc.unitId) →
    (∃ t, exec (.unitBound core) s = .next t ∧ site ∈ t.chip.fenced ∧ core.toNat ∈ t.chip.moves
      ∧ ∃ cl ∈ t.chip.clearings, cl.unit = r.desc ∧ cl.first.code = 0x13 ∧ cl.site = site)
    ∧ ∀ (e : EngineId) (f : Flight), stalledFlight (coreOf s core.toNat) (engineCode e) = some f →
        stallExcused s core.toNat (coreOf s core.toNat) f = false →
        ∃ t, exec (.engineStall core e) s = .next t ∧ site ∈ t.chip.fenced ∧ core.toNat ∈ t.chip.moves
          ∧ ∃ cl ∈ t.chip.clearings, cl.unit = r.desc ∧ cl.first.code ∈ [0x10, 0x11, 0x12] ∧ cl.first.index = f.index ∧ cl.site = site

/-- R102, R103, R139: the array of an idle matrix engine stops; a core without a unit is clock-gated with everything kept, or power-gated
with everything lost; no other core changes. -/
def Obligations.GatingKeepsOrLosesTheCore : Prop :=
  ∀ (s : State) (core : CoreId), 
    ((coreOf s core.toNat).flights.any (fun f => f.word.engine == 0 && mStepping f) = false →
      exec (.arrayStop core) s = .next (setCore s core.toNat { coreOf s core.toNat with arrayOn := false }))
    ∧ ((coreOf s core.toNat).run = none → (coreOf s core.toNat).power = .issuing →
      exec (.coreClockGate core) s = .next (setCore s core.toNat { coreOf s core.toNat with power := .clockGated }))
    ∧ ((coreOf s core.toNat).run = none → nextAssigned s core.toNat = none →
      ∃ t, exec (.corePowerGate core) s = .next t ∧ (coreOf t core.toNat).power = .powerGated
        ∧ (∀ n, scalarOf (coreOf t core.toNat) n = 0#32) ∧ (∀ a, readByte (coreOf t core.toNat).bytes a = 0#8)
        ∧ (coreOf t core.toNat).near = [] ∧ (∀ n, n ≠ core.toNat → coreOf t n = coreOf s n))

/-- R430: REGULATOR_REFILL is one microsecond: on a module at rest it fills every bucket and does nothing else; a part gains its rate and never
rises above its depth, and the two depths make the bucket's. -/
def Obligations.RefillAddsOneMicrosecond : Prop :=
  (∀ (s : State), alive s = true → restAll s → s.under.scans = [] →
    exec .regulatorRefill s = .next { s with time := s.time + 1, regs := s.regs.map (fun p => (p.1, p.2.map refillSet)) })
  ∧ ∀ (b : Bucket), b.rRes ≤ b.rate →
    ((refillBucket b).res ≤ (bucketDepths b).1 ∧ (refillBucket b).free ≤ (bucketDepths b).2)
    ∧ (b.res ≤ (bucketDepths b).1 → b.res ≤ (refillBucket b).res ∧ (refillBucket b).res ≤ b.res + b.rRes)
    ∧ (b.free ≤ (bucketDepths b).2 → b.free ≤ (refillBucket b).free ∧ (refillBucket b).free ≤ b.free + (b.rate - b.rRes : Nat))
    ∧ (bucketDepths b).1 + (bucketDepths b).2 = b.depth

/-! ### Messages of the host (R389 to R415) -/

/-- R389 to R391: Wenik takes the message's entry and none of the cases before its own checks decides it; its checks work on `s'` and `c`. -/
def Sys2Proof.Claims.taken (s : State) (h : MsgHead) (op : Nat) (rule : SessRule) (recOk : Bool) (s' : State) (c : Ctx) : Prop :=
  ∃ s1, takeEntry s h.func h.pair = some (s1, c.pair, c.head) ∧ sealedStep (chargeBody s1 h) h = (s', true)
    ∧ beforeChecks s s' h op rule recOk true = .ok c.sess

/-- The request of an accepted message. -/
def Sys2Proof.Claims.newReq (s' : State) (h : MsgHead) (c : Ctx) (op : Nat) (glade tenant : Option Nat) (j : Job) : Req :=
  ⟨⟨h.func, h.rid⟩, c.pair, h.session.toNat, c.head, op, glade, tenant, s'.time, s'.sched.admits, j⟩

/-- An accepted message that takes effect at the next boundary (R9, R11): its request and its change, nothing else. -/
def Sys2Proof.Claims.accepted (s' : State) (h : MsgHead) (c : Ctx) (op : Nat) (glade tenant : Option Nat) (j : Job) : State :=
  { s' with
    reqs := s'.reqs ++ [newReq s' h c op glade tenant j], changes := s'.changes ++ [.request ⟨h.func, h.rid⟩]
    sched := { s'.sched with admits := s'.sched.admits + 1 } }

/-- The owner's CONFIG subfunction, in its form and with its conditions met, is accepted for the next boundary. -/
def Sys2Proof.Claims.ownerAccepts (i : Instr) (h : MsgHead) (sealing recOk : Bool) (valid : State → Prop) : Prop :=
  ∀ (s s' : State) (c : Ctx), taken s h 0x0D .opened recOk s' c → formOk h sealing = true → c.sess.role = 0 → valid s' →
    exec i s = .next (accepted s' h c 0x0D none none (.config i))

/-- R364, R372, R378, R379, R411, R424: the owner's CONFIG subfunctions on bindings, credentials, policy, the protection store and firmware. -/
def Sys2Proof.Claims.protectionConfigsAreAccepted : Prop :=
  ∀ (h : MsgHead),
    (∀ mode : Byte, ownerAccepts (.recoveryMode h mode) h false false (fun _ => mode.toNat ≤ 1))
    ∧ (∀ p, ownerAccepts (.policySet h p) h false false (fun s => policyOk s p = true))
    ∧ ownerAccepts (.firmwareUpdate h true) h true true (fun _ => True)
    ∧ (∀ b x, ownerAccepts (.tenantBind h b x) h false false (fun s => tenantBindOk s b x = true))
    ∧ (∀ b, ownerAccepts (.tenantSet h b) h false false (fun s => tenantSetOk s b = true))
    ∧ (∀ t, ownerAccepts (.tenantUnbind h t) h false false (fun s => (∃ b, tenOf s t = some b) ∧ ownsIndex s t = false))
    ∧ (∀ b x, ownerAccepts (.operatorBind h b x) h false false (fun s => operBindOk s b x = true))
    ∧ (∀ b, ownerAccepts (.operatorSet h b) h false false (fun s => operSetOk s b = true))
    ∧ (∀ n, ownerAccepts (.operatorUnbind h n) h false false (fun s => ∃ b, operOf s n = some b))
    ∧ (∀ r p x, ownerAccepts (.credentialSet h r p x) h false false (fun s => credSetOk s r.toNat p x = true))
    ∧ (∀ n, ownerAccepts (.protectionExport h n) h false false (fun s => ∃ t, s.prot.store = some t))
    ∧ (∀ mac, ∀ (s s' : State) (c : Ctx), taken s h 0x0D .opened false s' c → formOk h false = true → c.sess.role = 0 →
        resetMac s' c.sess.id = some mac → exec (.protectionReset h mac) s = .next (accepted s' h c 0x0D none none (.config (.protectionReset h mac))))

/-- R424, R425, R427, R443, R444: the owner's CONFIG subfunctions on Glades and profiles; INDEX_DROP, and INDEX_RETAIN and
INDEX_MERGE_POLICY for a session with the right on the index (R372). -/
def Sys2Proof.Claims.gladeProfileAndIndexConfigsAreAccepted : Prop :=
  ∀ (h : MsgHead),
    (∀ g, ownerAccepts (.gladeDefine h g) h false false (fun s => gladeDefineOk s g = true))
    ∧ (∀ g, ownerAccepts (.gladeSet h g) h false false (fun s => gladeSetOk s g = true))
    ∧ (∀ g, ownerAccepts (.gladeRemove h g) h false false (fun s => gladeRemoveOk s g = true))
    ∧ (∀ p, ownerAccepts (.profileSet h p) h false false (fun _ => profileValid p = true))
    ∧ (∀ n, ownerAccepts (.profileRemove h n) h false false (fun s => 8 ≤ n ∧ ∃ p, AMap.get none s.glades.profiles n = some p))
    ∧ (∀ n, ownerAccepts (.indexDrop h n) h false false (fun s => ∃ i, loadedIndex s n = some i))
    ∧ (∀ n secs, ∀ (s s' : State) (c : Ctx) (i : Index), taken s h 0x0D .opened false s' c → formOk h false = true →
        loadedIndex s' n = some i → indexRight s' c.sess i = true → secs ≤ 86400 →
        exec (.indexRetain h n secs) s = .next (accepted s' h c 0x0D none none (.config (.indexRetain h n secs))))
    ∧ (∀ n x, ∀ (s s' : State) (c : Ctx) (i : Index), taken s h 0x0D .opened false s' c → formOk h false = true →
        loadedIndex s' n = some i → indexRight s' c.sess i = true → (x = 0 ∨ 65536 ≤ x ∧ x ≤ 67108864) →
        exec (.indexMergePolicy h n x) s = .next (accepted s' h c 0x0D none none (.config (.indexMergePolicy h n x))))

/-- R372, R424: the CONFIG subfunctions other than those on tables. -/
def Obligations.OwnerConfigsAreAccepted : Prop := protectionConfigsAreAccepted ∧ gladeProfileAndIndexConfigsAreAccepted

/-- R191, R197, R200, R204: the table subfunctions, for the owner or an operator with the TABLE right, are accepted with their claims
(a replacement becomes a change with its commit); in a set the peers are told, which changes ports and what leaves them alone. -/
def Obligations.TableConfigsAreAccepted : Prop :=
  ∀ (h : MsgHead) (s s' : State) (c : Ctx), taken s h 0x0D .opened false s' c → tableRole s' c.sess = true →
    (∀ table rows, updateForm s' h table rows = true → s'.tabs.stepRows + rows.length ≤ 4096 →
      ∃ t, exec (.tableUpdate h table rows) s = .next t
        ∧ t.reqs = s'.reqs ++ [newReq s' h c 0x0D none none (.table (.tableUpdate h table rows) [])]
        ∧ t.changes = s'.changes ++ [.request ⟨h.func, h.rid⟩] ∧ t.tabs = { s'.tabs with stepRows := s'.tabs.stepRows + rows.length }
        ∧ t.media = s'.media ∧ t.chip = s'.chip)
    ∧ (∀ table code width rows, replaceForm s' h table code width rows = true → replaceBusy s' table = false →
      ∃ t, exec (.tableReplace h table code width rows) s = .next t
        ∧ t.reqs = s'.reqs ++ [newReq s' h c 0x0D none none (.table (.tableReplace h table code width rows) [])]
        ∧ t.changes = s'.changes
        ∧ t.tabs = { s'.tabs with replaces :=
            s'.tabs.replaces ++ [⟨⟨h.func, h.rid⟩, table, code, width, rows, 0, tableBytes rows width code, none⟩] }
        ∧ t.media = s'.media ∧ t.chip = s'.chip)
    ∧ (∀ table rows, pinForm s' h table rows true = true →
      ∃ t, exec (.hotPin h table rows) s = .next t ∧ t.reqs = s'.reqs ++ [newReq s' h c 0x0D none none (.table (.hotPin h table rows) [])]
        ∧ t.changes = s'.changes ++ [.request ⟨h.func, h.rid⟩] ∧ t.tabs = s'.tabs ∧ t.media = s'.media ∧ t.chip = s'.chip)
    ∧ (∀ table rows, pinForm s' h table rows false = true →
      ∃ t, exec (.hotUnpin h table rows) s = .next t
        ∧ t.reqs = s'.reqs ++ [newReq s' h c 0x0D none none (.table (.hotUnpin h table rows) [])]
        ∧ t.changes = s'.changes ++ [.request ⟨h.func, h.rid⟩] ∧ t.tabs = s'.tabs ∧ t.media = s'.media ∧ t.chip = s'.chip)

/-- R374, R377, R399, R400, R559: HELLO draws a session ID and a nonce (free values) and keeps the challenge; a correct PROOF and a
CLOSE_SESSION wait for the boundary; CANCEL too. -/
def Sys2Proof.Claims.sessionMessages : Prop :=
  (∀ (h : MsgHead) (b : HelloBody) (s s' : State) (c : Ctx), taken s h 0x01 .hello true s' c → helloCheck s' h b = none → h.func ≠ 0xFF#8 →
    ∃ t, exec (.hello h b) s = .next t ∧ t.prot.nextSession = s'.prot.nextSession + 1
      ∧ t.prot.challenges = s'.prot.challenges ++ [⟨s'.prot.nextSession, b.role.toNat, b.principal.toNat, h.func, b.hostNonce,
          Config.freeNonce s'.freeCount, b.blob.map blobCred, false⟩]
      ∧ t.freeCount = s'.freeCount + 1 ∧ t.reqs = s'.reqs ∧ t.prot.sessions = s'.prot.sessions ∧ t.media = s'.media ∧ t.chip = s'.chip)
  ∧ (∀ (h : MsgHead) (p : BitVec 256) (s s' : State) (c : Ctx) (ch : Challenge) (k : Cred), taken s h 0x01 .proof true s' c →
    formOk h false = true → s'.prot.challenges.find? (fun x => x.id == h.session.toNat && x.func == h.func && !x.proved) = some ch →
    lockedPrincipal s' ch.role ch.principal = false → (ch.first = none ∨ credOf s' 0 0 = none) → challengeCred s' ch = some k →
    proofOf s' ch k.key = p → breach (policyOf s') ch.role k = false →
    ∃ t, exec (.proof h p) s = .next t ∧ t.reqs = s'.reqs ++ [newReq s' h c 0x01 none none (.proof ch.id)]
      ∧ t.changes = s'.changes ++ [.request ⟨h.func, h.rid⟩]
      ∧ t.prot.challenges = s'.prot.challenges.map (fun x => if x.id == ch.id then { x with proved := true } else x)
      ∧ t.prot.sessions = s'.prot.sessions ∧ t.prot.fails = s'.prot.fails)
  ∧ (∀ (h : MsgHead) (mode : Byte) (s s' : State) (c : Ctx), taken s h 0x02 .opened true s' c → formOk h false = true → mode.toNat ≤ 1 →
    exec (.closeSession h mode) s
      = .next (accepted s' h c 0x02 (sessionGlade s' c.sess) (sessionTenant c.sess) (.closing c.sess.id (mode == 1#8))))
  ∧ (∀ (h : MsgHead) (target : W64) (f : Byte) (s s' : State) (c : Ctx), taken s h 0x0C .opened false s' c → formOk h false = true →
    cancelScope s' h c.sess f = true → cancelAllowed s' c.sess ⟨f, target⟩ = true →
    exec (.cancel h target f) s
      = .next (accepted s' h c 0x0C (sessionGlade s' c.sess) (sessionTenant c.sess) (.cancel ⟨f, target⟩)))

/-- R375: a wrong PROOF consumes its challenge and opens nothing; the fifth within 60 s locks the principal. -/
def Sys2Proof.Claims.wrongProofCountsAndLocks : Prop :=
  ∀ (h : MsgHead) (p : BitVec 256) (s s' : State) (c : Ctx) (ch : Challenge) (k : Cred), taken s h 0x01 .proof true s' c →
    formOk h false = true → s'.prot.challenges.find? (fun x => x.id == h.session.toNat && x.func == h.func && !x.proved) = some ch →
    lockedPrincipal s' ch.role ch.principal = false → (ch.first = none ∨ credOf s' 0 0 = none) → challengeCred s' ch = some k →
    proofOf s' ch k.key ≠ p →
    ∃ t, exec (.proof h p) s = .next t ∧ t.prot.challenges = s'.prot.challenges.filter (fun x => x.id != ch.id)
      ∧ t.prot.sessions = s'.prot.sessions ∧ t.reqs = s'.reqs
      ∧ (4 ≤ (s'.prot.fails.filter (fun f => f.1 == ch.role && f.2.1 == ch.principal && decide (s'.time < f.2.2 + 60000000))).length ↔
          (ch.role, ch.principal) ∈ t.prot.locks)

/-- R374, R375, R377: the messages on sessions, and a wrong PROOF. -/
def Obligations.SessionsOpenAndClose : Prop := sessionMessages ∧ wrongProofCountsAndLocks

/-- R24, R27, R29, R316: QUERY, ASK and GENERATE that pass their checks in order are admitted: a request with its pins and reservations. -/
def Obligations.RetrievalAndGenerationAreAdmitted : Prop :=
  (∀ (h : MsgHead) (b : QueryBody) (ask : Bool) (s s' : State) (c : Ctx) (i : Index) (ver : IdxVer) (img : Img) (p : Profile) (g : Nat),
    taken s h (if ask then 0x0B else 0x09) .opened false s' c → queryChecks s' h b ask c.sess = .ok (i, ver, img, p, g) →
    strain s' (queryAsk s' b ask i ver { img with info := planned s' img.info } p g) (isFlash i.body)
      (queryCost s' b ask i { img with info := planned s' img.info } p) = none →
    ∃ t v, exec (if ask then .ask h b else .query h b) s = .next t
      ∧ t.reqs = s'.reqs ++ [newReq s' h c (if ask then 0x0B else 0x09) (some g) (sessionTenant c.sess) (.serve v)]
      ∧ v.handle = i.handle ∧ v.version = ver.num ∧ v.image = img.serial ∧ v.k = b.k ∧ v.maxNew = b.maxNew ∧ v.prompt = [] ∧ v.gen = []
      ∧ v.kind = (if ask then 2 else 0) ∧ t.changes = s'.changes ∧ t.media = s'.media ∧ t.chip = s'.chip ∧ t.idx = s'.idx)
  ∧ (∀ (h : MsgHead) (b : GenBody) (s s' : State) (c : Ctx) (img : Img) (g : Nat),
    taken s h 0x0A .opened false s' c → genForm s' h b = true → tenRight s' c.sess 1 = true → modelCheck s' = none →
    s'.images.current = some img → sessionGlade s' c.sess = some g → coresReady s' = true → (inSet s' = false ∨ setAllReady s' = true) →
    strain s' (genAsk s' b { img with info := planned s' img.info } g) false
      (!(chunkRows (planned s' img.info)).isEmpty) = none →
    ∃ t v, exec (.generate h b) s = .next t ∧ t.reqs = s'.reqs ++ [newReq s' h c 0x0A (some g) (sessionTenant c.sess) (.serve v)]
      ∧ v.kind = 1 ∧ v.image = img.serial ∧ v.maxNew = b.maxNew ∧ v.outLen = b.outLen ∧ v.prompt = [] ∧ v.gen = []
      ∧ t.changes = s'.changes ∧ t.media = s'.media ∧ t.chip = s'.chip)

/-- R67, R246, R284, R286, R289, R295, R402, R403: LOAD_MODEL, LOAD_INDEX, INGEST, INSERT, DELETE and MERGE that pass their checks are taken
as requests in progress; a DELETE on an index that is not durable, and a MERGE's snapshot, take effect at the next boundary. -/
def Obligations.LoadsItemsDeletesAndMergesAreTaken : Prop :=
  (∀ (h : MsgHead) (b : LoadModelBody) (s s' : State) (c : Ctx), taken s h 0x03 .opened false s' c → loadCheck s' h b c.sess = none →
    ∃ t j, exec (.loadModel h b) s = .next t ∧ t.reqs = s'.reqs ++ [newReq s' h c 0x03 none none (.load j)] ∧ j.body = b ∧ j.chunks = 0
      ∧ j.info = none ∧ t.images = s'.images ∧ t.media = s'.media ∧ t.changes = s'.changes)
  ∧ (∀ (h : MsgHead) (b : LoadIndexBody) (s s' : State) (c : Ctx), taken s h 0x04 .opened false s' c → indexCheck s' h b c.sess = none →
    ∃ t, exec (.loadIndex h b) s = .next t
      ∧ t.reqs = s'.reqs ++ [newReq s' h c 0x04 none none (.index b (loadingIndex s' b).handle false)]
      ∧ t.idx.loaded = s'.idx.loaded.filter (fun x => x.handle != (loadingIndex s' b).handle) ++ [loadingIndex s' b]
      ∧ t.changes = s'.changes ∧ t.media = s'.media)
  ∧ (∀ (h : MsgHead) (b : IngestBody) (insert : Bool) (s s' : State) (c : Ctx) (i : Index) (img : Img) (g : Nat),
    taken s h (if insert then 0x06 else 0x05) .opened false s' c → ingestChecks s' h b insert c.sess = .ok (i, img, g) →
    ingestStrain s' b insert i { img with info := planned s' img.info } g = none → (∃ e ∈ b.items, entryStatus s' c.sess i e = none) →
    (∀ q ∈ s'.reqs, q.id ≠ ⟨h.func, h.rid⟩) →
    exec (if insert then .insert h b else .ingest h b) s = .next { s' with
      reqs := s'.reqs ++ [newReq s' h c (if insert then 0x06 else 0x05) (some g) (sessionTenant c.sess)
        (.items insert b img.serial (b.items.map (itemNew s' c.sess i)))]
      sched := { s'.sched with admits := s'.sched.admits + 1 } })
  ∧ (∀ (h : MsgHead) (b : DeleteBody) (s s' : State) (c : Ctx) (i : Index), taken s h 0x07 .opened false s' c →
    loadedIndex s' b.handle = some i → formOk h false = true → rangesOk b.ranges = true → 16 * b.ranges.length ≤ b.reportLen →
    deleteRight s' c.sess i = true → i.lost = false →
    ∃ t, exec (.delete h b) s = .next t
      ∧ t.reqs = s'.reqs ++ [newReq s' h c 0x07 (indexGlade s' i) (sessionTenant c.sess) (.delete b (!isDurable i.body))]
      ∧ t.changes = (if isDurable i.body then s'.changes else s'.changes ++ [.request ⟨h.func, h.rid⟩]) ∧ t.idx = s'.idx)
  ∧ (∀ (h : MsgHead) (b : MergeBody) (s s' : State) (c : Ctx) (i : Index), taken s h 0x08 .opened false s' c →
    mergeCheck s' h b c.sess = none → loadedIndex s' b.handle = some i →
    ∃ t m, exec (.merge h b) s = .next t ∧ t.reqs = s'.reqs ++ [newReq s' h c 0x08 (indexGlade s' i) none (.merge b.handle)]
      ∧ t.changes = s'.changes ++ [.snapshot b.handle] ∧ m.req = some ⟨h.func, h.rid⟩ ∧ m.target = b.target.toNat ∧ m.committed = false
      ∧ t.idx.loaded = s'.idx.loaded.map (fun x => if x.handle == i.handle then { i with merge := some m } else x) ∧ t.media = s'.media)

/-- R412, R413, R414, R453, R456, R364: STATUS and LOG_READ answer at once and change nothing but records and outputs; SHUTDOWN begins the
drain; SET_FORM begins the formation; SET_DISSOLVE waits for its boundary; PROTECTION_RESTORE puts an exported store in force, and the
vault counter is at least its generation. -/
def Obligations.StatusShutdownSetAndRestore : Prop :=
  (∀ (h : MsgHead) (sel n arg : Nat) (s s' : State) (c : Ctx) (size : Nat) (l : List (List Byte)), taken s h 0x0E .opened true s' c →
    formOk h false = true → sel ≤ 7 → (sel = 6 → arg ≤ 1) → 16 ≤ n → statusRecords s' c.sess sel arg = some (size, l) → h.func ≠ 0xFF#8 →
    c.pair ≠ 64 →
    ∃ t more, exec (.status h sel n arg) s = .next t ∧ t.reqs = s'.reqs ∧ t.media = s'.media ∧ t.prot = s'.prot ∧ t.chip = s'.chip
      ∧ t.kt = s'.kt ∧ t.log = s'.log ∧ t.host = s'.host ++ [.output ⟨h.func, h.rid⟩
          (leBytes 4 (min l.length (if size = 0 then 0 else (n - 16) / size)) ++ leBytes 4 l.length ++ leBytes 4 size ++ leBytes 4 0
            ++ (l.take (min l.length (if size = 0 then 0 else (n - 16) / size))).flatten)] ++ more)
  ∧ (∀ (h : MsgHead) (first max n : Nat) (s s' : State) (c : Ctx), taken s h 0x0F .opened true s' c → formOk h false = true →
    (c.sess.role = 0 ∨ operRight s' c.sess 4 = true) → h.func ≠ 0xFF#8 → c.pair ≠ 64 → first < 2 ^ 63 →
    ∃ t more, exec (.logRead h first max n) s = .next t ∧ t.reqs = s'.reqs ∧ t.log = s'.log ∧ t.prot = s'.prot
      ∧ t.host = s'.host ++ [.output ⟨h.func, h.rid⟩ (((s'.log.recs.filter (fun r => decide (first ≤ r.seq) && seesLog s' c.sess r)).take
          (min max (n / 64))).flatMap logBytes)] ++ more)
  ∧ (∀ (h : MsgHead) (limit : Nat) (s s' : State) (c : Ctx), taken s h 0x10 .opened false s' c → formOk h false = true → limit ≤ 600000 →
    c.sess.role = 0 → s'.kt.shut = none →
    ∃ t, exec (.shutdown h 0#8 limit) s = .next t ∧ t.kt.shut = some ⟨some ⟨h.func, h.rid⟩, false, limit, false⟩
      ∧ t.reqs = s'.reqs ++ [newReq s' h c 0x10 none none (.shutdown false)] ∧ t.prot = s'.prot ∧ t.media = s'.media)
  ∧ (∀ (h : MsgHead) (b : SetBody) (s s' : State) (c : Ctx), taken s h 0x0D .opened false s' c → setFormCheck s' h b c.sess = none →
    ∃ t, exec (.setForm h b) s = .next t ∧ t.reqs = s'.reqs ++ [newReq s' h c 0x0D none none (.setForm b)]
      ∧ t.grove.forming = some ⟨⟨h.func, h.rid⟩, b, [], none⟩ ∧ t.grove.state = 1)
  ∧ (∀ (h : MsgHead) (id : Nat) (s s' : State) (c : Ctx) (b : SetBody), taken s h 0x0D .opened false s' c → formOk h false = true →
    c.sess.role = 0 → storedSet s' = some b → b.setId = id →
    ∃ t, exec (.setDissolve h id) s = .next t ∧ t.reqs = s'.reqs ++ [newReq s' h c 0x0D none none (.config (.setDissolve h id))]
      ∧ t.changes = s'.changes ++ [.request ⟨h.func, h.rid⟩] ∧ t.prot = s'.prot)
  ∧ (∀ (h : MsgHead) (gen : Nat) (s s' : State) (c : Ctx) (x : StoreImage), taken s h 0x0D .restore true s' c → formOk h false = true →
    s'.prot.store = none → s'.kt.vaultCounter ≤ gen → s'.prot.exports.find? (fun i => i.store.generation == gen) = some x →
    exec (.protectionRestore h true gen) s = .next (accepted s' h c 0x0D none none (.config (.protectionRestore h true gen))))
  ∧ (∀ (s : State) (q : Req) (gen : Nat) (x : StoreImage), s.prot.exports.find? (fun i => i.store.generation == gen) = some x →
    (applyRestore s q gen).prot.store = some x.store ∧ gen ≤ (applyRestore s q gen).kt.vaultCounter
      ∧ s.kt.vaultCounter ≤ (applyRestore s q gen).kt.vaultCounter ∧ ∀ y ∈ (applyRestore s q gen).reqs, y.id ≠ q.id)

/-! ### Registers, doorbells and interrupts (R18, R387 to R389, R394, R416 to R420) -/

/-- R388: GO on CD_QCOMMIT takes the selected pair's shadow for the next boundary, or sets DISAGREE or BUSY and leaves the pair. -/
def Sys2Proof.Claims.queueCommitChecksAndStages : Prop :=
  ∀ (s : State) (func : Byte) (value : W64) (n : Nat),
    reached s func.toNat = true → bitOf value 0 = true → pairNumber func.toNat (funcAt s func.toNat).qsel = some n →
    ∃ t, exec (.cdQcommit func value) s = .next t ∧ (pairAt t n).force = (pairAt s n).force ∧ (∀ m, m ≠ n → pairAt t m = pairAt s m)
      ∧ t.reqs = s.reqs ∧ t.media = s.media
      ∧ (if commitDisagrees func.toNat (pairAt s n).shadow = true ∨ ((pairAt s n).active = true ∧ inflight s n ≠ 0)
         then (pairAt t n).commit = (pairAt s n).commit ∧ t.changes = s.changes
           ∧ (pairAt t n).disagree = ((pairAt s n).disagree || commitDisagrees func.toNat (pairAt s n).shadow)
           ∧ (pairAt t n).busy = ((pairAt s n).busy || ((pairAt s n).active && inflight s n != 0))
         else (pairAt t n).commit = some (pairAt s n).shadow ∧ .pair n ∈ t.changes ∧ (pairAt t n).disagree = (pairAt s n).disagree)

/-- R389: a doorbell of an active pair moves the submission tail or the completion head, or sets BADDB when it lies beyond the ring; a
completion doorbell that frees a place has the oldest held record written. -/
def Sys2Proof.Claims.doorbellsMoveTheRings : Prop :=
  ∀ (s : State) (func : Byte) (loc : Nat) (value : W64) (n : Nat),
    reached s func.toNat = true → pairNumber func.toNat loc = some n → (pairAt s n).active = true →
    (fld value 0 12 < (pairAt s n).sqSize →
      exec (.cdSqdb func loc value) s = .next (setPair s n { pairAt s n with tail := fld value 0 12 }))
    ∧ ((pairAt s n).sqSize ≤ fld value 0 12 → exec (.cdSqdb func loc value) s = .next (setPair s n { pairAt s n with baddb := true }))
    ∧ ((pairAt s n).cqSize ≤ fld value 0 12 → exec (.cdCqdb func loc value) s = .next (setPair s n { pairAt s n with baddb := true }))
    ∧ (fld value 0 12 < (pairAt s n).cqSize → (pairAt s n).held = [] →
      exec (.cdCqdb func loc value) s = .next (setPair s n { pairAt s n with cqHead := fld value 0 12 }))
    ∧ (∀ c r, fld value 0 12 < (pairAt s n).cqSize → (pairAt s n).held = c :: r →
      ((pairAt s n).cqTail + 1) % (pairAt s n).cqSize ≠ fld value 0 12 →
      ∃ t more, exec (.cdCqdb func loc value) s = .next t ∧ (pairAt t n).cqHead = fld value 0 12
        ∧ t.host = s.host ++ [.record n (pairAt s n).cqTail (pairAt s n).phase c] ++ more)

/-- R386 to R389: CD_QCOMMIT and the doorbells. -/
def Obligations.QueuePairsTakeTheirRegisters : Prop := queueCommitChecksAndStages ∧ doorbellsMoveTheRings

/-- R418: PW_COMMIT stages the limits for the next boundary when 1,200 ≤ SUST ≤ PEAK ≤ 3,000, and sets DISAGREE otherwise. -/
def Sys2Proof.Claims.powerCommitChecksTheLimits : Prop :=
  ∀ (s : State) (value : W64), kettlePowered s = true → bitOf value 0 = true →
    exec (.pwCommit value) s = .next (
      if 1200 ≤ s.power.sustShadow ∧ s.power.sustShadow ≤ s.power.peakShadow ∧ s.power.peakShadow ≤ 3000
      then { wake s with changes := s.changes ++ [.power s.power.sustShadow s.power.peakShadow] }
      else { s with power := { s.power with disagree := true } })

/-- R385, R416, R419: host writes through BAR0: KT_SCRATCH takes the halves written, CD_QSEL its three bits, the limits their shadows; a
VF's write to the PF's registers and a write that does not reach the module change nothing. -/
def Sys2Proof.Claims.registerWritesReachTheirRegister : Prop :=
  ∀ (s : State) (func : Byte) (value : W64),
    (reached s func.toNat = false → ∀ off half, exec (.registerWrite func off half value) s = .next s)
    ∧ (reached s func.toNat = true →
      (func ≠ 0#8 → ∀ (off : W16) half, 0x100 ≤ off.toNat → off.toNat < 0x800 → exec (.registerWrite func off half value) s = .next s)
      ∧ (func = 0#8 → ∃ t, exec (.registerWrite func 0x118#16 none value) s = .next t ∧ readReg t 0 0x118 = value
          ∧ t = { s with kt := { s.kt with scratch := value } })
      ∧ (func = 0#8 → ∃ t, exec (.registerWrite func 0x118#16 (some true) value) s = .next t
          ∧ readReg t 0 0x118 = (value &&& 0xFFFFFFFF00000000#64) ||| (s.kt.scratch &&& 0xFFFFFFFF#64))
      ∧ (func = 0#8 → exec (.registerWrite func 0x200#16 none value) s
          = .next { s with power := { s.power with sustShadow := fld value 0 16 } })
      ∧ (∃ t, exec (.registerWrite func 0x10#16 none value) s = .next t ∧ (funcAt t func.toNat).qsel = fld value 0 3
          ∧ readReg t func.toNat 0x10 = BitVec.ofNat 64 (fld value 0 3)))

/-- R420: VL_STAT shows whether a store is loaded, whether it holds an owner credential, and the low 32 bits of its generation; it is 0 at
reset, its other bits are 0, and a write changes nothing. -/
def Sys2Proof.Claims.vlStatShowsTheStore : Prop :=
  readReg State.reset 0 0x400 = 0#64
  ∧ ∀ (s : State),
    bitOf (readReg s 0 0x400) 0 = s.prot.store.isSome ∧ bitOf (readReg s 0 0x400) 1 = (s.prot.store.bind (fun t => t.owner)).isSome
    ∧ fld (readReg s 0 0x400) 2 30 = 0
    ∧ fld (readReg s 0 0x400) 32 32 = (match s.prot.store with | some t => t.generation % 2 ^ 32 | none => 0)
    ∧ ∀ func half value, exec (.registerWrite func 0x400#16 half value) s = .next s

/-- R385, R416 to R420, R474: host writes, PW_COMMIT, and VL_STAT. -/
def Obligations.RegistersAndLimits : Prop := powerCommitChecksTheLimits ∧ registerWritesReachTheirRegister ∧ vlStatShowsTheStore

/-- R491: a block that RC_BLOCK names and that is idle has its reset begun; a busy one sets NOTIDLE, one that is not there BADSEL; nothing
else changes. -/
def Sys2Proof.Claims.blockResetsBegin : Prop :=
  ∀ (s : State) (index : W16) (engine : BitVec 4), alive s = true → s.rc.block = none →
    ∀ (i : Instr) (type e : Nat), (i, type, e) ∈ [(Instr.blockResetCore index, 1, 0), (.blockResetEngine index engine, 2, engine.toNat),
        (.blockResetGrovePort index, 3, 0), (.blockResetT2Channel index, 4, 0), (.blockResetFlashChannel index, 5, 0)] →
      exec i s = .next (
        if blockNamed s type index.toNat e = false then { s with rc := { s.rc with badSel := true } }
        else if blockIdle s type index.toNat = false then { s with rc := { s.rc with notIdle := true } }
        else { s with rc := { s.rc with block := some (type, index.toNat, e) } })

/-- R491: when the reset is done the block is as after reset: a core has lost everything, an engine its queue and registers; RC_STAT DONE. -/
def Sys2Proof.Claims.blockResetDoneClearsTheBlock : Prop :=
  (∀ (s : State) (c e : Nat), s.rc.block = some (1, c, e) →
    ∃ t, exec .blockResetDone s = .next t ∧ coreOf t c = coreOff ∧ (∀ n, n ≠ c → coreOf t n = coreOf s n)
      ∧ t.rc = { s.rc with done := true, block := none } ∧ t.media = s.media)
  ∧ (∀ (s : State) (c : Nat), s.rc.block = some (2, c, 1) →
    ∃ t, exec .blockResetDone s = .next t ∧ (∀ n, scalarOf (coreOf t c) n = 0#32) ∧ (coreOf t c).bytes = (coreOf s c).bytes
      ∧ (coreOf t c).tokens = (coreOf s c).tokens ∧ (∀ n, n ≠ c → coreOf t n = coreOf s n)
      ∧ t.rc = { s.rc with done := true, block := none })

/-- R491: block resets begin, or are turned away, and end. -/
def Obligations.BlockResets : Prop := blockResetsBegin ∧ blockResetDoneClearsTheBlock

/-- R383, R394, R528: a configuration request is answered with CRS until the controllers run, and by an existing function then; MSI-X goes
out for a pair with records not yet raised, or waits while masked; BI_ONLINE of a fenced site is noted. -/
def Obligations.RequestsInterruptsAndOnlineTests : Prop :=
  (∀ (s : State) (f : Byte), kettlePowered s = true → f.toNat ≤ 8 →
    (readyBit s 2 = false → exec (.pcieConfigRequest f) s = .next { s with host := s.host ++ [.config f.toNat true] })
    ∧ (readyBit s 2 = true → (funcAt s f.toNat).enabled = true →
        exec (.pcieConfigRequest f) s = .next { s with host := s.host ++ [.config f.toNat false] }))
  ∧ (∀ (s : State) (n : Nat), n < 64 → (pairAt s n).unraised ≠ 0 →
    ∃ t, exec (.msixRaise n) s = .next t ∧ (pairAt t n).unraised = 0
      ∧ (if (vecAt s (funcOfPair n) (pairAt s n).force.vec).masked = true ∨ readyBit s 3 = false
         then (vecAt t (funcOfPair n) (pairAt s n).force.vec).pending = true ∧ t.host = s.host
         else t.host = s.host ++ [.msix (funcOfPair n) (pairAt s n).force.vec]))
  ∧ (∀ (s : State) (site : BitVec 10), reached s 0 = true → alive s = true → s.kt.life ≠ .recovery → s.bi.testing = none →
    site.toNat ∈ s.chip.fenced →
    ∃ t, exec (.biOnline site) s = .next t ∧ site.toNat ∈ t.bi.wanted ∧ t.bi.refused = s.bi.refused ∧ t.chip = s.chip)

/-- R421, R422, R539: the sideband's transactions with a valid PEC, while the Kettle has power. -/
def Obligations.SidebandTransactions : Prop :=
  ∀ (s : State), kettlePowered s = true →
    (∀ off : W16, sideReg off.toNat = true → exec (.regAddr off true) s = .next { s with side := { s.side with reg := off.toNat } })
    ∧ (sideReg s.side.reg = true → s.side.reg ≠ 0x220 →
        exec (.regData none true) s = .next { s with host := s.host ++ [.smbus (leBytes 8 (readReg s 0 s.side.reg).toNat)] })
    ∧ (∀ v, s.side.reg = 0x118 → exec (.regData (some v) true) s = .next { s with kt := { s.kt with scratch := v } })
    ∧ (∀ l, l ≠ [] → l.length ≤ 255 → s.side.buffer.length + l.length ≤ 65536 →
        exec (.msgPut l true) s = .next { s with side := { s.side with buffer := s.side.buffer ++ l } })
    ∧ (∀ l, l ≠ [] → l.length ≤ 255 → 65536 < s.side.buffer.length + l.length →
        exec (.msgPut l true) s = .next { s with side := { s.side with overflow := true } })
    ∧ (s.side.running = false → s.side.reply = [] →
        exec (.msgGo true) s = .next { s with side := { s.side with running := true, buffer := [], overflow := false } })
    ∧ (exec (.msgGet true) s = .next { s with
        side := { s.side with reply := s.side.reply.drop 255 }, host := s.host ++ [.smbus (s.side.reply.take 255)] })
    ∧ (∃ n, exec (.msgStat true) s = .next { s with host := s.host ++ [.smbus (leBytes 2 n)] }
        ∧ n % 2 = (if s.side.reply = [] then 0 else 1) ∧ n / 2 % 2 = (if s.side.overflow then 1 else 0))
    ∧ (s.side.alert = true → exec .smbusAlertResponse s = .next { s with
        side := { s.side with alert := false, ready := false }
        host := s.host ++ [.smbus (leBytes 1 (2 * (0x40 + s.pins.slotId.toNat)))] })
    ∧ exec .smbClkTimeout s = .next s
    ∧ (∀ off w l, exec (.regAddr off false) s = .next s ∧ exec (.regData w false) s = .next s ∧ exec (.msgPut l false) s = .next s
        ∧ exec (.msgGo false) s = .next s ∧ exec (.msgGet false) s = .next s ∧ exec (.msgStat false) s = .next s)

/-! ### Pins and the test access port (R490, R518, R536, R540, R541) -/

/-- R540, R541: the instructions of the port that leave the pins alone select themselves and change nothing else; internal scan is refused
while CLEARED is 0 (R518). -/
def Sys2Proof.Claims.tapInstructionsSelect : Prop :=
  ∀ (s : State), kettlePowered s = true →
    exec .bypass s = .next { s with tap := { s.tap with instr := .bypass } }
    ∧ exec .idcode s = .next { s with tap := { s.tap with instr := .idcode } }
    ∧ exec .testLogicReset s = .next { s with tap := { s.tap with instr := .idcode } }
    ∧ (∀ cells, exec (.samplePreload cells) s = .next { s with tap := { s.tap with instr := .sample, cells := cells } })
    ∧ exec .internalScanInstruction s = .next (if s.kt.cleared then { s with tap := { s.tap with instr := .scan } } else s)
    ∧ ∀ low, exec (.locateN low) s = .next { s with pins := { s.pins with locate := low } }

/-- R541: an instruction that disconnects the pins takes the Grove ports down and resets the host link; the cells keep their values. -/
def Sys2Proof.Claims.tapCutTakesTheLinksDown : Prop :=
  ∀ (s : State) (i : Instr) (x : TapInstr), kettlePowered s = true →
    (i, x) ∈ [(Instr.extest, TapInstr.extest), (.clamp, .clamp), (.highz, .highz), (.extestPulse, .extestPulse), (.extestTrain, .extestTrain)] →
    ∃ t, exec i s = .next t ∧ t.tap = { s.tap with instr := x, cut := true } ∧ (∀ p, p < 8 → portUp t p = false ∧ (portAt t p).state ≠ 1)
      ∧ (alive s = true → readyBit s 3 = true → .linkReset ∈ t.changes) ∧ t.reqs = s.reqs ∧ t.media = s.media ∧ t.chip = s.chip

/-- R540, R541: the instructions of the test access port. -/
def Obligations.TestAccessPort : Prop := tapInstructionsSelect ∧ tapCutTakesTheLinksDown

/-! ### Resets, starts and recovery (R466, R487 to R511) -/

/-- R487, R492, R498: a start with nothing failing, fewer than three failed starts behind it and no unorderly end, completes: all its steps
are done, FAILS is 0, and KT_BOOT shows the cause. -/
def Obligations.CleanColdStartsComplete : Prop :=
  ∀ (s : State), s.kt.journal.fails < 3 → s.kt.running = false → s.kt.unorderly = false → s.kt.bist.fresh = false →
    (controllersUp s (cleanReport s) ≠ []) →
    (s.kt.good = false → s.kt.latch = false → s.kt.life ≠ .held →
      ∃ t, exec (.powerGoodAssert []) s = .next t ∧ t.kt.life = .running ∧ t.kt.complete = true ∧ t.kt.step = 14 ∧ t.kt.cause = 1
        ∧ t.kt.journal.fails = 0 ∧ t.kt.good = true)
    ∧ (s.kt.life = .held → s.kt.good = true →
      ∃ t, exec (.mrstNRelease []) s = .next t ∧ t.kt.life = .running ∧ t.kt.complete = true ∧ t.kt.step = 14 ∧ t.kt.cause = 2
        ∧ t.kt.journal.fails = 0)
    ∧ (s.kt.life = .kettleOnly → s.kt.good = true → s.pins.perst = true →
      ∃ t, exec (.perstNDeassert []) s = .next t ∧ t.kt.life = .running ∧ t.kt.complete = true ∧ t.kt.step = 14 ∧ t.kt.cause = 3
        ∧ t.kt.journal.fails = 0 ∧ t.pins.perst = false)

/-- R487, R507: a fault of the running module begins a module recovery in the mode that is set; with nothing failing it completes, with
the summary written and the cause of R487. -/
def Obligations.ModuleRecoveriesComplete : Prop :=
  ∀ (s : State) (i : Instr) (cause : Nat), s.kt.life = .running → clearingNow s = false → s.kt.journal.fails < 3 →
    s.kt.bist.fresh = false → controllersUp s (cleanReport s) ≠ [] →
    (i, cause) ∈ [(Instr.kettleWatchdog [], 5), (.firmwareDeviceReset 0xD15E#64 [], 6), (.allControllersSilent [], 8), (.boundaryStall [], 8),
      (.wenikConsistencyFailure [], 8)] →
    ∃ t sm, exec i s = .next t ∧ t.kt.life = .running ∧ t.kt.step = 14 ∧ t.kt.cause = cause ∧ t.kt.journal.fails = 0
      ∧ t.kt.summary = some sm ∧ sm.cause = cause ∧ sm.step = s.chip.step ∧ t.reqs = [] ∧ t.prot.sessions = []

/-- R466, R475, R490: what stops the rails: power-good loss, MRST_N, THERMTRIP at 115 °C or more: only the Kettle runs, no request is left,
T2 and the sessions are gone; the loss of Kettle power and an overvoltage stop take the Kettle too. -/
def Obligations.RailStopsLeaveTheKettle : Prop :=
  ∀ (s : State),
    (s.kt.good = true → s.kt.life ≠ .held →
      ∃ t, exec .powerGoodLoss s = .next t ∧ t.kt.life = .kettleOnly ∧ t.kt.good = false ∧ t.reqs = [] ∧ t.prot.sessions = [] ∧ t.changes = []
        ∧ t.prot.store = s.prot.store ∧ t.kt.vaultCounter = s.kt.vaultCounter)
    ∧ (s.kt.life ≠ .off → s.kt.life ≠ .held →
      ∃ t, exec .mrstNHeld s = .next t ∧ t.kt.life = .held ∧ t.reqs = [] ∧ t.prot.sessions = [] ∧ t.prot.store = s.prot.store)
    ∧ (∀ j : Int, 1150 ≤ j → s.kt.life ≠ .off → s.kt.life ≠ .kettleOnly → s.kt.life ≠ .held →
      ∃ t, exec (.thermtrip j) s = .next t ∧ t.kt.life = .kettleOnly ∧ t.power.tripped = true ∧ t.power.junction = j ∧ t.reqs = [])
    ∧ (∃ t, exec .kettlePowerLoss s = .next t ∧ t.kt.life = .off ∧ t.kt.ready = 0#64 ∧ t.kt.latch = false ∧ t.prot.store = none ∧ t.reqs = []
        ∧ t.kt.vaultCounter = s.kt.vaultCounter)
    ∧ (∀ mv, 62000 < mv → mv ≤ 72000 →
      ∃ t, exec (.overvoltageStop mv) s = .next t ∧ t.kt.life = .off ∧ t.kt.latch = true ∧ t.reqs = [] ∧ t.kt.ready = 0#64)
    ∧ ∀ mv, 72000 < mv → exec (.overvoltageStop mv) s = .fault .damaged

/-- R487, R511: PERST_N, a hot reset and the loss of the link clear HOSTLINK at once and leave the rest to the next boundary; a link that
trains sets it. -/
def Obligations.LinkResetsAndTraining : Prop :=
  (∀ (s : State) (i : Instr), alive s = true → readyBit s 3 = true → (∀ c ∈ s.changes, c ≠ .linkReset) →
    i ∈ [Instr.perstNAssert, .hotReset, .linkDown false, .linkDown true] →
    ∃ t, exec i s = .next t ∧ readyBit t 3 = false ∧ t.changes = s.changes ++ [.linkReset] ∧ t.reqs = s.reqs ∧ t.media = s.media
      ∧ t.chip = s.chip ∧ (∀ b, b < 64 → b ≠ 3 → readyBit t b = readyBit s b))
  ∧ (∀ (s : State) (rate : Nat), alive s = true → s.pins.perst = false → readyBit s 3 = false → s.tap.cut = false →
    (∀ c ∈ s.changes, c ≠ .linkReset) →
    ∃ t, exec (.hostLinkTrained rate) s = .next t ∧ readyBit t 3 = true ∧ t.glades.hostCap = min 98000 rate ∧ t.reqs = s.reqs
      ∧ (∀ b, b < 64 → b ≠ 3 → readyBit t b = readyBit s b))
  ∧ (∀ (s : State) (rate : Nat), readyBit s 3 = true → rate < s.glades.hostCap →
    ∃ t, exec (.hostLinkDowntrain rate) s = .next t ∧ t.glades.hostCap = rate ∧ t.glades.sets = s.glades.sets ∧ t.reqs = s.reqs
      ∧ t.changes = (if rate < sumRates s (fun g => g.hostOut) ∨ rate < sumRates s (fun g => g.hostIn) then s.changes ++ [.hostScale]
        else s.changes))

/-! ### Power, clocks and ageing (R475 to R484) -/

/-- R475, R477, R480 to R483: temperatures set and clear the warning with their hysteresis, the crystal's fall-back and the hours shadow,
the loss of one of several controllers, DEEP IDLE when nothing is left, and the monitors' samples. -/
def Sys2Proof.Claims.conditionsOfTheModule : Prop :=
  ∀ (s : State),
    (∀ j st : Int, (1000 ≤ j ∨ 900 ≤ st) → s.power.warning = false →
      ∃ t, exec (.thermalWarningSet j st) s = .next t ∧ t.power.warning = true ∧ t.power.junction = j ∧ t.power.stack = st
        ∧ t.side.alert = true ∧ t.log.next = s.log.next + 1 ∧ t.reqs = s.reqs)
    ∧ (∀ j st : Int, j ≤ 950 → st ≤ 850 → exec (.thermalWarningClear j st) s
        = .next { s with power := { s.power with junction := j, stack := st, warning := false } })
    ∧ (s.kt.life ≠ .off → s.kt.fallback = false →
      ∃ t, exec .crystalFallback s = .next t ∧ t.kt.fallback = true ∧ t.log.next = s.log.next + 1 ∧ t.reqs = s.reqs ∧ t.media = s.media)
    ∧ (alive s = true → ∃ t, exec .operatingHoursShadow s = .next t ∧ t.kt.shadowHours = opSeconds s / 3600
        ∧ t.kt.otpHours = max s.kt.otpHours (opSeconds s / 3600 / 8 * 8) ∧ t.reqs = s.reqs)
    ∧ (∀ c, alive s = true → c ∈ s.kt.ctrls → 2 ≤ s.kt.ctrls.length →
      ∃ t, exec (.controllerHeartbeatLoss c) s = .next t ∧ t.kt.ctrls = s.kt.ctrls.filter (· != c)
        ∧ (s.kt.journal.decisions.length < 384 → ∃ d ∈ t.kt.journal.decisions, d.kind = 6 ∧ d.comp = c) ∧ t.reqs = s.reqs)
    ∧ (idleNow s = true → exec .deepIdleEntry s = .next { s with power := { s.power with deep := true } })
    ∧ (∀ site slack, alive s = true → site < 528 → slack ≤ 189 →
      ∃ t, exec (.monitorSample [(site, slack)]) s = .next t ∧ AMap.get 189 t.power.worst site = slack
        ∧ (∀ x, x ≠ site → AMap.get 189 t.power.worst x = AMap.get 189 s.power.worst x)
        ∧ (slack < 12 → groupOfSite site ∈ t.power.skipping) ∧ t.reqs = s.reqs ∧ t.chip = s.chip)
    ∧ (s.kt.life = .running → ∀ l site slack, exec (.replan l site slack) s
        = .next { wake s with changes := s.changes ++ [.replan l site slack] })

/-- R483: skipping that persists fences the site of a core that runs no unit; its logical core moves at the next boundary. -/
def Sys2Proof.Claims.skipPersistFencesTheSite : Prop :=
  ∀ (s : State) (site c : Nat), alive s = true → site < 528 → site ∉ s.chip.fenced → slackOf s site < 12 → coreAt s site = some c →
    (coreOf s c).run = none →
    ∃ t, exec (.skipPersist site) s = .next t ∧ site ∈ t.chip.fenced ∧ c ∈ t.chip.moves ∧ (coreOf t c).power = .powerGated
      ∧ (∀ n, n ≠ c → coreOf t n = coreOf s n) ∧ t.reqs = s.reqs ∧ t.media = s.media

/-- R475 to R484: temperatures, clocks, hours, monitors and skipping. -/
def Obligations.ModuleConditions : Prop := conditionsOfTheModule ∧ skipPersistFencesTheSite

/-! ### Expiries and the limits of a set (R66, R204, R294, R306, R374 to R376, R453) -/

/-- R374, R375: a challenge not proved, and the lock of a principal, expire. R376: a session whose lifetime has ended, or one that is idle, is
closed at the next boundary. R294: a retained version is retained no longer. -/
def Sys2Proof.Claims.expiriesTakeEffect : Prop :=
  ∀ (s : State),
    (∀ n : W32, ∃ t, exec (.challengeExpiry n) s = .next t ∧ t = { s with prot := { s.prot with challenges := t.prot.challenges } }
      ∧ ∀ c, c ∈ t.prot.challenges ↔ c ∈ s.prot.challenges ∧ (c.id ≠ n.toNat ∨ c.proved = true))
    ∧ (∀ (role : Byte) (p : W16), ∃ t, exec (.principalLockExpiry role p) s = .next t ∧ t = { s with prot := { s.prot with locks := t.prot.locks } }
      ∧ ∀ x, x ∈ t.prot.locks ↔ x ∈ s.prot.locks ∧ x ≠ (role.toNat, p.toNat))
    ∧ (∀ n : W32, (∃ x ∈ s.prot.sessions, x.id = n.toNat) → (∀ r, Change.expire n.toNat r ∉ s.changes) →
      exec (.sessionLifetimeExpiry n) s = .next { s with changes := s.changes ++ [.expire n.toNat dtLifetime] }
      ∧ ((∀ q ∈ s.reqs, q.session ≠ n.toNat) →
          exec (.sessionIdleExpiry n) s = .next { s with changes := s.changes ++ [.expire n.toNat dtIdle] }))
    ∧ (∀ n : W32, (∃ q ∈ s.reqs, q.session = n.toNat) → exec (.sessionIdleExpiry n) s = .next s)
    ∧ ∀ (handle version : Nat) (i : Index), heldIndex s handle = some i →
      ∃ t, exec (.indexRetainExpiry handle version) s = .next t
        ∧ heldIndex t handle
            = some { i with versions := i.versions.map (fun v => if v.num = version then { v with retained := false } else v) }
        ∧ (∀ n, n ≠ handle → heldIndex t n = heldIndex s n) ∧ t.reqs = s.reqs ∧ t.media = s.media ∧ t.changes = s.changes

/-- R66, R204, R306, R453: a change that the set has not completed within its limit ends without effect. -/
def Sys2Proof.Claims.setTimeoutsEndTheirChange : Prop :=
  ∀ (s : State),
    (∀ f, s.grove.forming = some f →
      ∃ t, exec .setFormTimeout s = .next t ∧ t.grove.forming = none ∧ t.grove.state = 4 ∧ (∀ q ∈ t.reqs, q.id ≠ f.req)
        ∧ t.prot.store = s.prot.store ∧ t.media = s.media ∧ t.chip = s.chip)
    ∧ (∀ r q j, reqOf s r = some q → q.job = .load j → inSet s = true →
      ∃ t, exec (.loadModelSetTimeout r) s = .next t ∧ (∀ x ∈ t.reqs, x.id ≠ r) ∧ t.images = s.images ∧ t.media = s.media ∧ t.tabs = s.tabs)
    ∧ (∀ r q i p, reqOf s r = some q → q.job = .table i p → inSet s = true → (∀ a ∈ s.tabs.applying, a.req ≠ r) →
      ∃ t, exec (.tableSetTimeout r) s = .next t ∧ (∀ x ∈ t.reqs, x.id ≠ r) ∧ (∀ x ∈ t.tabs.replaces, x.req ≠ r)
        ∧ t.tabs.versions = s.tabs.versions ∧ t.media.bytes = s.media.bytes ∧ .request r ∉ t.changes)
    ∧ ∀ handle i m, heldIndex s handle = some i → i.merge = some m → i.body.shardCount ≠ 1 →
      (∀ q, m.req.bind (reqOf s) = some q → q.job = .merge handle) →
      ∃ t, exec (.mergeSetTimeout handle) s = .next t ∧ heldIndex t handle = some { i with merge := none }
        ∧ (∀ q ∈ t.reqs, some q.id ≠ m.req) ∧ .swap handle ∉ t.changes ∧ .snapshot handle ∉ t.changes ∧ t.media = s.media

/-- R66, R204, R294, R306, R374 to R376, R453: what the passing of time ends. -/
def Obligations.ExpiriesAndSetTimeouts : Prop := expiriesTakeEffect ∧ setTimeoutsEndTheirChange

/-! ### Models, indexes, items and merges under way (R66 to R71, R285 to R289, R296, R341, R556) -/

/-- R66, R68: chunks of an image that arrive, the verified content, and the components of an index. -/
def Obligations.LoadsReceiveTheirContent : Prop :=
  ∀ (s : State) (r : ReqId),
    (∀ q j, loadJob s r = some (q, j) →
      (∀ tiles, j.body.source = 0#8 → ∃ t, exec (.imageChunkArrival r false tiles) s = .next t ∧ (∀ x ∈ t.reqs, x.id ≠ r) ∧ t.images = s.images ∧ t.media = s.media)
      ∧ (∀ tiles, j.body.source ≠ 0#8 → ∀ ok, exec (.imageChunkArrival r ok tiles) s = .next s)
      ∧ (∀ x : TileImage, j.body.source = 0#8 → tilePopulated s x.key = true → dState (tileDesc s x.key) = 0 →
        ∃ t, exec (.imageChunkArrival r true [x]) s = .next t
          ∧ reqOf t r = some { q with job := .load { j with chunks := j.chunks + 1 } }
          ∧ tileDesc t x.key = x.desc ∧ (∀ n, n ≠ x.key → tileDesc t n = tileDesc s n)
          ∧ (∀ i, i < 16384 → readByte t.media.bytes (16384 * x.key + i) = (x.bytes[i]?).getD 0#8)
          ∧ sameOutside s.media.bytes t.media.bytes (16384 * x.key) 16384 ∧ t.changes = s.changes)
      ∧ (∀ m, contentCheck s j (loadedImage s j.body m) = none →
        ∃ t, exec (.loadModelContentVerified r m) s = .next t ∧ t.changes = s.changes ++ [.request r]
          ∧ reqOf t r = some { q with job := .load { j with info := some (loadedImage s j.body m), swap := true } }
          ∧ t.images.current = s.images.current
          ∧ t.media = s.media ∧ t.tabs = s.tabs)
      ∧ (∀ m n, contentCheck s j (loadedImage s j.body m) = some n →
        ∃ t, exec (.loadModelContentVerified r m) s = .next t ∧ (∀ x ∈ t.reqs, x.id ≠ r) ∧ t.images = s.images ∧ t.media = s.media))
    ∧ ∀ q b n i regions lists residual flat parts, parts = indexPartsOf regions lists residual flat → reqOf s r = some q → q.job = .index b n false → heldIndex s n = some i →
      (b.action = 1#8 →
        ∃ t, exec (.loadIndexWritten r regions lists residual flat) s = .next t ∧ t.changes = s.changes ++ [.request r]
          ∧ reqOf t r = some { q with job := .index b n true } ∧ t.idx = s.idx)
      ∧ (b.action ≠ 1#8 → componentsOk b parts = true →
        ∃ t, exec (.loadIndexWritten r regions lists residual flat) s = .next t ∧ t.changes = s.changes ++ [.request r]
          ∧ reqOf t r = some { q with job := .index b n true }
          ∧ heldIndex t n = some { i with parts := parts }
          ∧ ∀ m, m ≠ n → heldIndex t m = heldIndex s m)
      ∧ (b.action ≠ 1#8 → componentsOk b parts = false →
        ∃ t, exec (.loadIndexWritten r regions lists residual flat) s = .next t ∧ ∀ x ∈ t.reqs, x.id ≠ r)

/-- R285 to R289: the text of an item, its staged passages with consecutive passage IDs once the unit that the event names has ended (log
12), its journal record; a host read that fails ends the request whose body it was to bring. -/
def Obligations.ItemsAdvance : Prop :=
  ∀ (s : State) (r : ReqId) (q : Req), reqOf s r = some q →
    (∀ e text ok ft path obj, e ≠ .data →
      ∃ t, exec (.hostMemoryReadCompletion r .body e text ok ft path obj) s = .next t ∧ ∀ x ∈ t.reqs, x.id ≠ r)
    ∧ (∀ text ok ft path, ∃ t, exec (.hostMemoryReadCompletion r .body .data text ok ft path none) s = .next t ∧ t = { s with regs := t.regs })
    ∧ ∀ ins b img l n x, q.job = .items ins b img l → l[n]? = some x → x.status = none →
      (∀ text ft path, x.text = none → ft.length ≤ 32 → path.length ≤ 4095 → text.length ≤ maxItem →
        (ins = true → text.length ≤ 65536) →
        ∃ t, exec (.hostMemoryReadCompletion r (.object (some n)) .data text true ft path none) s = .next t
          ∧ reqOf t r = some { q with job := .items ins b img (l.set n
              { x with text := some (cutText text), fileType := ft, path := path, truncated := decide (textLimit < text.length), key := 0 }) }
          ∧ t.media = s.media ∧ t.changes = s.changes)
      ∧ (∀ i m text passages s1 i1 unit, unitStands s unit = false → heldIndex s b.handle = some i → imageOf s img = some m → x.text = some text → x.staged = none →
        earlierDone l n = true → passagesOf m.info b text = passages → passages ≠ [] → passageKey s i x.entry.tenant.toNat = (s1, i1) →
        (itemFragments i1 m.info x passages).all recordFits = true →
        itemFits s i passages.length (itemPlacing s1 i1 m.info x passages).2 = true →
        ∃ t recs i', exec (.itemStaged r n unit) s = .next t
          ∧ reqOf t r = some { q with job := .items ins b img (l.set n
              { x with staged := some recs, accepted := !isDurable i.body, first := nextPid i }) }
          ∧ recs.length = passages.length ∧ (∀ k (hk : k < recs.length), recs[k].pid = nextPid i + k ∧ recs[k].place = none ∧ recs[k].tomb = false)
          ∧ recs.map (·.vec) = passages.map (fun p => (embedVector m.info p).map toBf16)
          ∧ heldIndex t b.handle = some i' ∧ i'.seqNo = i.seqNo + passages.length ∧ i'.versions = i.versions
          ∧ t.changes = if isDurable i.body then s.changes else s.changes ++ [.item r n])
      ∧ (x.staged.isSome = true → x.accepted = false →
        ∃ t, exec (.journalProgrammed r n) s = .next t ∧ t.changes = s.changes ++ [.item r n]
          ∧ reqOf t r = some { q with job := .items ins b img (l.set n { x with accepted := true }) }
          ∧ ∀ h i, heldIndex s h = some i → ∃ i', heldIndex t h = some i' ∧ i'.versions = i.versions ∧ i'.seqNo = i.seqNo ∧ i'.current = i.current)

/-- R189, R296, R297: a merge whose last unit has ended (log 12) and whose replay has gone over every change commits, with the time it was
made, and asks for its swap; it loses no live record and brings none back. -/
def Obligations.MergesKeepEveryLiveRecord : Prop :=
  (∀ (s : State) (handle unit : Nat) (made : Int) (i : Index) (m : Merge) (snap : List IRec), unitStands s unit = false →
    heldIndex s handle = some i → i.merge = some m → m.snap = some snap → m.committed = false →
    ∃ t, exec (.mergeCommit handle unit m.log.length made) s = .next t ∧ t.changes = s.changes ++ [.swap handle]
      ∧ heldIndex t handle = some { i with merge := some { m with
          committed := true, built := (buildMerge i m snap).1, fresh := (buildMerge i m snap).2.1
          lists := (buildMerge i m snap).2.1.length, moved := (buildMerge i m snap).2.2, made := made } }
      ∧ (∀ n, n ≠ handle → heldIndex t n = heldIndex s n) ∧ t.reqs = s.reqs ∧ t.media = s.media)
  ∧ ∀ (i : Index) (m : Merge) (snap : List IRec) (p : Nat),
    (∃ x ∈ (buildMerge i m snap).1, x.pid = p ∧ x.tomb = false) ↔ ∃ x ∈ snap, x.pid = p ∧ x.tomb = false

/-! ### Tables and hot rows (R190 to R204) -/

/-- R192: with an empty directory, a row that takes every sample of the last second is promoted: twelve replicas, the first being copied.
R195: a copy that is done is VALID, and holds the row. -/
def Obligations.HotRowsAreCopied : Prop :=
  (∀ (s : State) (home st : Nat), s.tabs.hot = [] → (∀ x ∈ s.tabs.samples, x.2 = home) → (∃ x ∈ s.tabs.samples, s.time < x.1 + 1000000) →
    strideAt s home = some st → rowSpace st ≤ 2 ^ 27 → (∀ c, channelGone s c = false) →
    ∃ t e, exec .hotRowRank s = .next t ∧ hotAt t home = some e ∧ e.stride = st ∧ e.pinned = false ∧ e.repl.length = 12
      ∧ e.repl[0]? = some .copying ∧ (∀ k, 0 < k → k < 12 → e.repl[k]? = some .absent) ∧ (∀ h, h ≠ home → hotAt t h = none)
      ∧ t.media = s.media ∧ t.tabs.versions = s.tabs.versions ∧ t.reqs = s.reqs)
  ∧ ∀ (s : State) (home stack : Nat) (e : HotRow), hotAt s home = some e → e.lock.head? = some (.copy stack) → .copy stack ∉ e.lock.tail →
    e.repl[stack]? = some .copying → e.leaving = false →
    ∃ t e', exec (.replicaCopyDone home stack) s = .next t ∧ hotAt t home = some e' ∧ e'.repl[stack]? = some .valid
      ∧ e'.offset = e.offset ∧ e'.stride = e.stride
      ∧ readBytes t.media.bytes (replicaBase stack + e.offset) e.stride = readBytes s.media.bytes home e.stride
      ∧ sameOutside s.media.bytes t.media.bytes (replicaBase stack + e.offset) e.stride
      ∧ (∀ h, h ≠ home → hotAt t h = hotAt s h) ∧ t.media.tiles = s.media.tiles ∧ t.reqs = s.reqs

/-- R198: the end of an apply writes the row home and completes the message. R200: the commit of a replacement fills its tiles, names its
version, and asks for the swap; the current version stays. -/
def Obligations.TableChangesAreWritten : Prop :=
  (∀ (s : State) (table : Nat) (a : Apply) (row : RowRecord) (v : TableVer) (q : Req),
    s.tabs.applying.filter (fun a => a.table == table) = [a] → a.rows = [row] → applyReady s a = true → restAll s →
    s.tabs.versions.find? (fun v => v.table == a.table && v.version == a.version) = some v → hotAt s (rowHome v row.index) = none →
    reqOf s a.req = some q →
    ∃ t, exec (.tableUpdateApplyEnd table) s = .next t
      ∧ readBytes t.media.bytes (rowHome v row.index) (rowImage row).length = rowImage row
      ∧ sameOutside s.media.bytes t.media.bytes (rowHome v row.index) (rowImage row).length
      ∧ t.tabs.applying = s.tabs.applying.filter (fun a => a.table != table)
      ∧ t.tabs.versions = s.tabs.versions.map (fun x =>
          if x.table == a.table && x.version == a.version then { x with updated := x.updated + 1 } else x)
      ∧ (∀ x ∈ t.reqs, x.id ≠ a.req) ∧ t.media.tiles = s.media.tiles)
  ∧ ∀ (s u : State) (r : ReqId) (rows : List RowRecord) (base : Nat) (x : Replace) (v : TableVer),
    s.tabs.replaces.find? (fun x => x.req == r) = some x → commitOk s x rows base = true → builtReplace s x rows base = (u, v) →
    (replicated u v = true →
      ∃ t, exec (.tableReplaceCommit r rows base) s = .next t ∧ t.changes = s.changes ++ [.request r]
        ∧ (∀ y ∈ t.tabs.replaces, y.req = r → y.base = base ∧ y.ready = some v)
        ∧ v.table = x.table ∧ v.version = nextVersion s x.table ∧ v.base = base ∧ v.rows = x.rows ∧ v.width = x.width ∧ v.code = x.code
        ∧ (∀ i, i < x.bytes / 16384 → tileDesc t (base / 16384 + i) = tableTile x.table v.version i)
        ∧ t.tabs.versions = s.tabs.versions ∧ t.reqs = s.reqs)
    ∧ (replicated u v = false →
      ∃ t, exec (.tableReplaceCommit r rows base) s = .next t ∧ t.changes = s.changes ∧ t.tabs.replaces = s.tabs.replaces
        ∧ t.tabs.versions = s.tabs.versions ∧ t.media = s.media ∧ t.reqs = s.reqs)

/-! ### Faults of T2 and T3 (R214, R240 to R245, R304, R506) -/

/-- The stack of a channel holds no spare in use and no other rebuild (R242). -/
def Sys2Proof.Claims.stackFree (s : State) (c : Nat) : Prop :=
  s.media.spareInUse.contains (stackOfChannel c) = false
    ∧ s.media.channels.any (fun p => p.1 / 32 == stackOfChannel c && p.2 == .rebuilding) = false

/-- No core runs, and no program of a committed unit is lost: what a fault of the media does is all that happens. -/
def Sys2Proof.Claims.settled (s : State) : Prop := restAll s ∧ ∀ u ∈ s.chip.units, poisonedProgram s u.desc = false

/-- R240 to R245, R304: what the scrub finds, the watch on corrected errors, the end of a rebuild, a failed die, channels out of service. -/
def Obligations.MediaFaultsAreContained : Prop :=
  ∀ (s : State),
    (alive s = true → settled s → ∀ found,
      (∀ f ∈ found, (f.2 = .good ∨ f.2 = .corrected) ∧ (f.1 < t2All → dState (tileDesc s f.1) ≠ 3)) → exec (.t2Scrub found) s = .next s)
    ∧ (∀ key l, alive s = true → settled s → key < t2Tiles → chanOf s (t2Channel key) = .live l → dState (tileDesc s key) ≠ 3 →
      groupShort s key = false →
      ((l.filter (fun t => decide (s.time < t + 1000000))).length < 2 →
        exec (.t2Scrub [(key, .uncorrectable)]) s = .next (setChan s (t2Channel key)
          (.live (l.filter (fun t => decide (s.time < t + 1000000)) ++ [s.time]))))
      ∧ (2 ≤ (l.filter (fun t => decide (s.time < t + 1000000))).length → stackFree s (t2Channel key) →
        ∃ t, exec (.t2Scrub [(key, .uncorrectable)]) s = .next t ∧ chanOf t (t2Channel key) = .rebuilding
          ∧ t.log.next = s.log.next + 1 ∧ t.media.bytes = s.media.bytes ∧ t.reqs = s.reqs))
    ∧ (∀ key, alive s = true → settled s → key < t2Tiles → programTile s key = false → tableOfTile s key = none →
      dKind (tileDesc s key) ≠ 1 → dKind (tileDesc s key) ≠ 3 →
      ∃ t, exec (.t2Scrub [(key, .poisoned)]) s = .next t ∧ dState (tileDesc t key) = 3
        ∧ (∀ n, n ≠ key → tileDesc t n = tileDesc s n) ∧ t.media.bytes = s.media.bytes ∧ t.reqs = s.reqs)
    ∧ (∀ c rate l, c < 384 → settled s → chanOf s c = .live l → (∀ i, i < 32 → chanOf s (32 * stackOfChannel c + i) ≠ .retired) →
      (rate ≤ 1000 → exec (.t2CorrectedRateWatch c rate) s = .next s)
      ∧ (1000 < rate → stackFree s c →
        ∃ t, exec (.t2CorrectedRateWatch c rate) s = .next t ∧ chanOf t c = .rebuilding ∧ (∀ n, n ≠ c → chanOf t n = chanOf s n)
          ∧ t.log.next = s.log.next + 1 ∧ t.reqs = s.reqs)
      ∧ (1000 < rate → s.media.spareInUse.contains (stackOfChannel c) = true →
        (∀ i, i < 32 → chanOf s (32 * stackOfChannel c + i) ≠ .rebuilding) →
        ∃ t, exec (.t2CorrectedRateWatch c rate) s = .next t ∧ chanOf t c = .retired ∧ stackOfChannel c ∈ t.media.unprotected
          ∧ (∀ n, n ≠ c → chanOf t n = chanOf s n) ∧ t.reqs = s.reqs))
    ∧ (∀ c, chanOf s c = .rebuilding →
      ∃ t, exec (.t2RebuildEnd c) s = .next t ∧ chanOf t c = .rebuilt ∧ stackOfChannel c ∈ t.media.spareInUse
        ∧ (∀ n, n ≠ c → chanOf t n = chanOf s n) ∧ t.media.spareCost = s.media.spareCost ∧ t.media.bytes = s.media.bytes)
    ∧ (∀ c d, s.flash = true → c < 256 → d < 8 →
      ∃ t u, exec (.t3DieFail c d true) s = .next t ∧ (c, d) ∈ t.media.failedDies ∧ t.changes = s.changes ∧ t.log.next = s.log.next + 1
        ∧ exec (.t3DieFail c d false) s = .next u ∧ (c, d) ∈ u.media.failedDies ∧ u.changes = s.changes ++ [.channelOut c])
    ∧ (∀ c, s.flash = true → c < 256 → AMap.get none s.under.out c = none → .channelOut c ∉ s.changes →
      ∃ t, exec (.flashChannelOutOfService c) s = .next t ∧ t.changes = s.changes ++ [.channelOut c] ∧ t.log.next = s.log.next + 1
        ∧ t.under = s.under ∧ t.media = s.media)
    ∧ ∀ c x, AMap.get none s.under.out c = some x → c ∉ s.under.moved → .moveEnd c ∉ s.changes →
      ∃ t, exec (.t3MoveEnd c) s = .next t ∧ t.changes = s.changes ++ [.moveEnd c] ∧ t.log.next = s.log.next + 1 ∧ t.under = s.under
        ∧ t.media = s.media

/-! ### The Understory (R300 to R304) -/

/-- R300 to R302: a scan opens with an empty collector, takes its table sets, skips or scores its segments, drains its best into a T2
tile, and closes. -/
def Obligations.UnderstoryScans : Prop :=
  ∀ (s : State) (c : Byte) (tag : W64),
    (∀ o u, o.tag = tag → unitFor s c.toNat = some u → openOk o = true → (unitScans s u).length < 64 →
      ∃ t x, exec (.understoryOpen c o) s = .next t ∧ findScan t c.toNat tag = some x
        ∧ x.coll = ⟨true, o.k, [], 0, 0, 0, 0, 0, openDesc o⟩ ∧ x.desc = openDesc o ∧ x.tables = [] ∧ x.todo = []
        ∧ (∀ d g, (d ≠ c.toNat ∨ g ≠ tag) → findScan t d g = findScan s d g) ∧ t.media = s.media)
    ∧ (∃ t, exec (.understoryClose c tag) s = .next t ∧ findScan t c.toNat tag = none
        ∧ (∀ d g, (d ≠ c.toNat ∨ g ≠ tag) → findScan t d g = findScan s d g) ∧ t.media = s.media ∧ t.reqs = s.reqs)
    ∧ ∀ u x, unitFor s c.toNat = some u → findScan s c.toNat tag = some x →
      (∀ ts, pagesUsed s u + tablePages x.desc ≤ 1024 →
        ∃ t, exec (.understoryTables c tag ts) s = .next t ∧ findScan t c.toNat tag = some { x with tables := x.tables ++ [ts] }
          ∧ t.media = s.media)
      ∧ (x.todo = [] →
        (∀ n ts seg, x.tables[n]? = some ts → skips x.coll (setBound x.desc (viewOf ts)) = true →
          ∃ t, exec (.understorySegments c tag n [seg]) s = .next t
            ∧ findScan t c.toNat tag = some { x with coll := { x.coll with skipped := x.coll.skipped + 1 } } ∧ t.media = s.media)
        ∧ (∀ n ts seg s2, x.tables[n]? = some ts → skips x.coll (setBound x.desc (viewOf ts)) = false →
          t3Channel seg.tile = x.channel → channelLost s x.channel = false → dState (tileDesc s (t3Base + seg.tile)) = 2 →
          scanDraw s x .t3 (16384 * pageReads s x.channel) 0 = some s2 →
          tagOk x.desc (tileDesc s (t3Base + seg.tile)) (viewOf ts).word (segCount (unitView s x seg.tile) ((t3Base + seg.tile) * 16384))
            (segWord (unitView s x seg.tile) ((t3Base + seg.tile) * 16384)) = true →
          ∃ t, exec (.understorySegments c tag n [seg]) s = .next t
            ∧ findScan t c.toNat tag = some { x with
                coll := scanSegment (viewOf ts) (unitView s x seg.tile) ((t3Base + seg.tile) * 16384) (tombBytes seg.tombs) x.coll }
            ∧ t.media = s.media)
        ∧ (∀ dest s2, dest < t2Tiles → dState (tileDesc s dest) = 0 → x.coll.k ≤ 256 → x.coll.entries.length ≤ x.coll.k → restAll s →
          scanDraw s x .t2 (64 + 16 * x.coll.k) 1 = some s2 →
          ∃ t, exec (.understoryDrain c tag dest) s = .next t ∧ dState (tileDesc t dest) = 2 ∧ dKind (tileDesc t dest) = 0
            ∧ dLength (tileDesc t dest) = 64 + 16 * x.coll.k
            ∧ readBytes t.media.bytes (dest * 16384) (64 + 16 * x.coll.k) = drainBytes x.coll
            ∧ sameOutside s.media.bytes t.media.bytes (dest * 16384) 16384 ∧ findScan t c.toNat tag = some x))

/-! ### Frames of the Grove (R27, R447, R448, R453, R455, R463) -/

/-- The port, the sequence number and whether the tag held, of a frame that carries a sequence number. -/
def Sys2Proof.Claims.frameOf : Instr → Option (Nat × W64 × Bool)
  | .dataFrame p n ok _ _ => some (p.toNat, n, ok)
  | .boundaryFrame p n ok _ _ => some (p.toNat, n, ok)
  | .reserveFrame p n ok _ _ _ _ => some (p.toNat, n, ok)
  | .grantFrame p n ok _ _ _ => some (p.toNat, n, ok)
  | .controlFrame p n ok _ => some (p.toNat, n, ok)
  | .heartbeatFrame p n ok => some (p.toNat, n, ok)
  | _ => none

/-- The state after a frame that arrives in order: acknowledged, the next number expected. -/
def Sys2Proof.Claims.inOrder (s : State) (p : Nat) : State :=
  { setPort s p { portAt s p with rxSeq := (portAt s p).rxSeq + 1, fails := 0 } with
    host := s.host ++ [.frame p (leBytes 1 6 ++ leBytes 8 ((portAt s p).rxSeq + 1))] }

/-- The port is up, and the frame is the next one expected on it. -/
def Sys2Proof.Claims.nextFrame (s : State) (p : Nat) (n : W64) : Prop := portUp s p = true ∧ n.toNat = (portAt s p).rxSeq + 1

/-- R448: a frame takes effect once, in order: one received before is acknowledged again, one ahead of its turn asks for the missing one,
one whose tag fails is asked for again until the eighth failure in a row retrains the port; a port that is down receives none. -/
def Obligations.FramesAreTakenOnceInOrder : Prop :=
  ∀ (s : State) (i : Instr) (p : Nat) (n : W64) (ok : Bool), frameOf i = some (p, n, ok) →
    (portUp s p = false → exec i s = .next s)
    ∧ (portUp s p = true → ok = true → n.toNat ≤ (portAt s p).rxSeq →
        exec i s = .next { s with host := s.host ++ [.frame p (leBytes 1 6 ++ leBytes 8 n.toNat)] })
    ∧ (portUp s p = true → ok = true → (portAt s p).rxSeq + 1 < n.toNat →
        exec i s = .next { s with host := s.host ++ [.frame p (leBytes 1 7 ++ leBytes 8 ((portAt s p).rxSeq + 1))] })
    ∧ (portUp s p = true → ok = false → (portAt s p).fails < 7 →
        exec i s = .next { setPort s p { portAt s p with fails := (portAt s p).fails + 1 } with
          host := s.host ++ [.frame p (leBytes 1 7 ++ leBytes 8 n.toNat)] })
    ∧ (portUp s p = true → ok = false → 7 ≤ (portAt s p).fails →
        ∃ t, exec i s = .next t ∧ (portAt t p).state = 1 ∧ (portAt t p).fails = 0
          ∧ (portAt t p).retrains = min 65535 ((portAt s p).retrains + 1) ∧ (∀ x, x ≠ p → portAt t x = portAt s x)
          ∧ t.log.next = s.log.next + 1 ∧ t.reqs = s.reqs ∧ t.media = s.media)

/-- R27, R447, R453, R455: what each kind of frame does when its turn has come; ACK and NAK; and the HEARTBEAT of every idle port. -/
def Obligations.FramesHaveTheirEffect : Prop :=
  (∀ (s : State) (p : BitVec 3) (n : W64), nextFrame s p.toNat n →
    exec (.heartbeatFrame p n true) s = .next (inOrder s p.toNat)
    ∧ (∀ step commit, exec (.boundaryFrame p n true step commit) s
        = .next { inOrder s p.toNat with grove := { (inOrder s p.toNat).grove with proposed := some step } })
    ∧ (∀ dest bytes, tilePopulated s dest = true → restAll s →
      ∃ t, exec (.dataFrame p n true dest bytes) s = .next t ∧ dState (tileDesc t dest) = 2 ∧ dLength (tileDesc t dest) = min bytes.length 16384
        ∧ (∀ i, i < 16384 → readByte t.media.bytes (16384 * dest + i) = (bytes[i]?).getD 0#8)
        ∧ sameOutside s.media.bytes t.media.bytes (16384 * dest) 16384 ∧ (∀ x, x ≠ dest → tileDesc t x = tileDesc s x)
        ∧ (portAt t p.toNat).rxSeq = n.toNat ∧ t.reqs = s.reqs)
    ∧ (∀ from_ r handle search, ∃ t, exec (.reserveFrame p n true from_ r handle search) s = .next t
        ∧ t.grove.reserves = s.grove.reserves ++ (farReservation (inOrder s p.toNat) from_ r handle search).toList
        ∧ (portAt t p.toNat).rxSeq = n.toNat ∧ t.reqs = s.reqs ∧ t.media = s.media)
    ∧ (∀ from_ r q v, reqOf s r = some q → q.job = .serve v → from_ ∈ v.awaits →
      (∃ t, exec (.grantFrame p n true from_ r true) s = .next t
        ∧ reqOf t r = some { q with job := .serve { v with awaits := v.awaits.filter (· != from_) } } ∧ t.media = s.media)
      ∧ (∃ t, exec (.grantFrame p n true from_ r false) s = .next t ∧ (∀ x ∈ t.reqs, x.id ≠ r) ∧ t.media = s.media))
    ∧ (∀ m on, ∃ t, exec (.controlFrame p n true (.ready m on)) s = .next t ∧ t.grove.ready = putBit s.grove.ready m on
        ∧ t.reqs = s.reqs ∧ t.media = s.media)
    ∧ (∀ m r, ∃ t, exec (.controlFrame p n true (.accepted m r)) s = .next t ∧ (m, r) ∈ t.grove.accepts ∧ t.reqs = s.reqs)
    ∧ (∀ m x, ∃ t, exec (.controlFrame p n true (.verified m (some x))) s = .next t ∧ (m, x) ∈ t.grove.verifies ∧ t.reqs = s.reqs)
    ∧ (∀ m f, s.grove.forming = some f →
      (∃ t g, exec (.controlFrame p n true (.digest m (setDigest f.body) Config.wenikVersion.toNat true)) s = .next t
        ∧ t.grove.forming = some g ∧ m ∈ g.match_ ∧ g.req = f.req ∧ g.fault = f.fault)
      ∧ (∀ d w up, d ≠ setDigest f.body → f.fault = none →
        ∃ t, exec (.controlFrame p n true (.digest m d w up)) s = .next t
          ∧ t.grove.forming = some { f with fault := some dtDigest } ∧ t.changes = s.changes))
    ∧ (∀ m r q i l, reqOf s r = some q → q.job = .table i l →
      ∃ t, exec (.controlFrame p n true (.failed m r)) s = .next t ∧ (m, r) ∈ t.grove.failed ∧ ∀ x ∈ t.reqs, x.id ≠ r))
  ∧ (∀ (s : State) (p : BitVec 3) (n : W64), portUp s p.toNat = true →
    exec (.ackFrame p n) s = .next (setPort s p.toNat { portAt s p.toNat with
      unacked := (portAt s p.toNat).unacked.filter (fun f => decide (n.toNat < f.1)), fails := 0 })
    ∧ (∀ f, (portAt s p.toNat).unacked.find? (fun f => f.1 == n.toNat) = some f → (portAt s p.toNat).fails < 7 →
      ∃ t, exec (.nakFrame p n) s = .next t ∧ t.host = s.host ++ [.frame p.toNat f.2]
        ∧ (portAt t p.toNat).resent = min 4294967295 ((portAt s p.toNat).resent + 1)
        ∧ (portAt t p.toNat).unacked = (portAt s p.toNat).unacked ∧ t.reqs = s.reqs ∧ t.media = s.media))
  ∧ ∀ (s : State), ∃ t, exec .heartbeatSend s = .next t
    ∧ (∀ p, p < 8 → portAt t p = if portUp s p = true ∧ (portAt s p).unacked = []
        then { portAt s p with
          txSeq := (portAt s p).txSeq + 1, unacked := [((portAt s p).txSeq + 1, frameBytes s p ((portAt s p).txSeq + 1) [])] }
        else portAt s p)
    ∧ t.reqs = s.reqs ∧ t.media = s.media

/-! ### Ports, members and link units (R446, R449, R458 to R460, R463, R464) -/

/-- R449, R463, R464: a port that trains comes up with its peer and a new key, or is off or miscabled; a lane that fails halves a port of
eight lanes and takes any other down; a member declared out takes its ports and its link units with it. -/
def Obligations.PortsAndMembers : Prop :=
  (∀ (s : State) (p : BitVec 3) (peer far : Nat), (portAt s p.toNat).state = 1 → bitOf s.grove.porten p.toNat = true → s.tap.cut = false →
    (∃ t, exec (.grovePortTrained p false peer far) s = .next t ∧ (portAt t p.toNat).state = 0 ∧ (portAt t p.toNat).auth = true
      ∧ t.reqs = s.reqs)
    ∧ (∀ n me, layoutOf s = some (n, me) → layoutPeer n me p.toNat ≠ (peer, far) →
      ∃ t, exec (.grovePortTrained p true peer far) s = .next t ∧ (portAt t p.toNat).state = 5 ∧ (portAt t p.toNat).miscable = true
        ∧ t.reqs = s.reqs)
    ∧ ((∀ n me, layoutOf s = some (n, me) → layoutPeer n me p.toNat = (peer, far)) →
      ∃ t, exec (.grovePortTrained p true peer far) s = .next t ∧ portUp t p.toNat = true ∧ (portAt t p.toNat).peer = peer
        ∧ (portAt t p.toNat).peerPort = far ∧ (portAt t p.toNat).width = (if (portAt s p.toNat).laneFail = 0#8 then 8 else 4)
        ∧ t.freeCount = s.freeCount + 2 ∧ t.reqs = s.reqs))
  ∧ (∀ (s : State) (p lane : BitVec 3), portUp s p.toNat = true → bitOf (portAt s p.toNat).laneFail lane.toNat = false →
    ((portAt s p.toNat).width = 8 →
      ∃ t, exec (.groveLaneFail p lane) s = .next t ∧ portUp t p.toNat = true ∧ (portAt t p.toNat).width = 4
        ∧ bitOf (portAt t p.toNat).laneFail lane.toNat = true ∧ (∀ x, x ≠ p.toNat → portAt t x = portAt s x) ∧ t.reqs = s.reqs)
    ∧ ((portAt s p.toNat).width ≠ 8 →
      ∃ t, exec (.groveLaneFail p lane) s = .next t ∧ (portAt t p.toNat).state = 4 ∧ (portAt t p.toNat).lost = true
        ∧ t.grove.recheck = true ∧ t.reqs = s.reqs))
  ∧ ∀ (s : State) (m n me : Nat), presentMember s m = true → layoutOf s = some (n, me) → m ≠ me → m < n → m ∉ s.grove.out →
    ∃ t, exec (.memberOut m) s = .next t ∧ t.grove.out = s.grove.out ++ [m]
      ∧ (∀ p, p < 8 → (layoutPeer n me p).1 = m → portUp t p = false ∧ (portAt t p).state ≠ 1)
      ∧ (∀ p, p < 8 → (layoutPeer n me p).1 ≠ m →
        portAt t p = { portAt s p with txSeq := (portAt t p).txSeq, unacked := (portAt t p).unacked })
      ∧ (∀ u ∈ t.chip.links, linkInvolves u m = false) ∧ t.reqs = s.reqs ∧ t.media = s.media

/-- A link unit that may run: committed, its predecessors ended, its sources FULL, its bytes drawn; it ends, its successors have one
predecessor less, and the bytes it brings here stand in its destination tiles, which are FULL. -/
def Sys2Proof.Claims.linkEnds (s : State) (i : Instr) (kind : LinkKind) (d : LinkDesc) (sent src : Nat) (out : List Byte) : Prop :=
  ∀ (u : LinkState) (s1 : State),
    s.chip.links.find? (fun u => u.desc.unitId == d.unitId && u.kind == kind) = some u → u.left = 0 → u.desc = d →
    sourceFull s d src = true → linkDraw s d sent = some s1 → restAll s → d.dest % 16384 = 0 →
    (∀ t ∈ tileRange d.dest out.length, tilePopulated s t = true) →
    ∃ t, exec i s = .next t
      ∧ t.chip.links = (s.chip.links.filter (fun x => x.desc.unitId != d.unitId)).map
          (fun x => if d.succs.contains x.desc.unitId then { x with left := x.left - 1 } else x)
      ∧ t.chip.units = s.chip.units.map (fun x => if d.succs.contains x.desc.unitId then { x with left := x.left - 1 } else x)
      ∧ readBytes t.media.bytes d.dest out.length = out ∧ (∀ x ∈ tileRange d.dest out.length, dState (tileDesc t x) = 2)
      ∧ sameOutside s.media.bytes t.media.bytes d.dest (16384 * (tileRange d.dest out.length).length)
      ∧ (∀ x, x ∉ tileRange d.dest out.length → tileDesc t x = tileDesc s x) ∧ t.reqs = s.reqs ∧ t.log = s.log

/-- R458 to R460: the five collectives: their results on this member, the bytes they send, and their end; the reduction adds pairs of
partials, the lower member on the left. -/
def Sys2Proof.Claims.linkUnitsRun : Prop :=
  ∀ (s : State) (d : LinkDesc) (n me : Nat), layoutOf s = some (n, me) →
    (∀ peers l, allParts n me (wordsOf (devBytes s d.source d.bytes)) peers = some l → linkBytesOk d n = true → d.format = 9#8 →
      (∀ v ∈ l, v.length = d.bytes / 4) →
      linkEnds s (.allreduce d peers) .allreduce d (2 * d.bytes * (n - 1) / n) d.bytes ((treeSum n l).flatMap (fun w => leBytes 4 w.toNat)))
    ∧ (∀ peers l, allParts n me (devBytes s d.source (d.bytes / n)) peers = some l → linkBytesOk d n = true →
      (∀ v ∈ l, v.length = d.bytes / n) →
      linkEnds s (.allgather d peers) .allgather d (d.bytes * (n - 1) / n) (d.bytes / n) (l.flatMap id))
    ∧ (∀ peers l, d.root.toNat = me → allParts n me (devBytes s d.source (d.bytes / n)) peers = some l →
      linkEnds s (.gather d peers) .gather d 0 (d.bytes / n) (l.flatMap id))
    ∧ (∀ peers, d.root.toNat ≠ me → linkEnds s (.gather d peers) .gather d (d.bytes / n) (d.bytes / n) [])
    ∧ (∀ data, d.root.toNat = me → linkEnds s (.broadcast d data) .broadcast d d.bytes d.bytes [])
    ∧ (∀ data, d.root.toNat ≠ me → data.length = d.bytes → linkEnds s (.broadcast d data) .broadcast d 0 0 data)
    ∧ (∀ data, d.root.toNat % 16 = me → linkEnds s (.send d data) .send d d.bytes d.bytes [])
    ∧ (∀ data, d.root.toNat % 16 ≠ me → d.root.toNat / 16 = me → data.length = d.bytes → linkEnds s (.send d data) .send d 0 0 data)
    ∧ (∀ a b : List W32, treeSum 2 [a, b] = List.zipWith fpAdd a b)

/-- R459, R463: a link unit that overruns its time is given it once more; the second time it is abandoned, and its owner request ends. -/
def Sys2Proof.Claims.linkUnitOverrunsEndTheirOwner : Prop :=
  ∀ (s : State) (n : Nat) (u : LinkState), s.chip.links.find? (fun u => u.desc.unitId == n) = some u →
    (u.overran = false → exec (.linkUnitOverrun n) s = .next { s with chip := { s.chip with
      links := s.chip.links.map (fun x => if x.desc.unitId = n then { x with overran := true } else x) } })
    ∧ (u.overran = true → ∀ r, u.desc.owner = some r →
      ∃ t, exec (.linkUnitOverrun n) s = .next t ∧ (∀ x ∈ t.chip.links, x.desc.unitId ≠ n) ∧ (∀ q ∈ t.reqs, q.id ≠ r)
        ∧ (∀ q ∈ s.reqs, q.id ≠ r → q ∈ t.reqs) ∧ t.media.bytes = s.media.bytes)

/-- R458 to R460: link units run, or overrun. -/
def Obligations.LinkUnits : Prop := linkUnitsRun ∧ linkUnitOverrunsEndTheirOwner

/-! ### Shutdown and self-test (R505, R514 to R529) -/

/-- R514 to R519: SHDN_REQ_N starts a drain or brings its limit forward; the end of the drain ends every request and session, closes the
host link's work, forgets T2 and leaves the secrets to be cleared; when all reads back zero the self-test begins, otherwise scan stays locked
and the rails stop. -/
def Obligations.ShutdownDrainsAndClears : Prop :=
  ∀ (s : State),
    (alive s = true → pinLimit s ≠ 0 →
      (s.kt.shut = none → exec .shdnReqNHeld s = .next { s with kt := { s.kt with shut := some ⟨none, false, pinLimit s, false⟩ } })
      ∧ ∀ x, s.kt.shut = some x →
        exec .shdnReqNHeld s = .next { s with kt := { s.kt with shut := some { x with limit := min x.limit (pinLimit s) } } })
    ∧ (∀ x, s.kt.shut = some x → x.clearing = false → s.sched.inside = false →
      ∃ t, exec .shutdownDrainEnd s = .next t ∧ t.reqs = [] ∧ t.prot.sessions = [] ∧ t.changes = [] ∧ t.keys.t2Key = 0
        ∧ t.kt.shut = some { x with clearing := true } ∧ t.kt.complete = true ∧ t.media.bytes = s.media.bytes.filter (fun c => decide (2 ^ 46 ≤ c.1))
        ∧ (∀ b, b < 64 → readyBit t b = (readyBit s b && (b == 0 || b == 3))) ∧ t.prot.store = s.prot.store
        ∧ t.kt.vaultCounter = s.kt.vaultCounter)
    ∧ (clearingNow s = true → s.kt.run = none →
      (∃ t, exec (.zeroizationDone true) s = .next t ∧ t.kt.cleared = true ∧ t.kt.run = some ⟨false, 0⟩
        ∧ (∀ b, b < 64 → readyBit t b = (readyBit s b && b == 0)) ∧ t.kt.shut = s.kt.shut)
      ∧ ∃ t, exec (.zeroizationDone false) s = .next t ∧ t.kt.life = .kettleOnly ∧ t.kt.cleared = false ∧ t.kt.bist.clearFail = true)

/-- R520 to R526: each of the eight groups records its sites and the next one follows; after the last, the partitions are recorded, and a
shutdown's run ends in an orderly shutdown. -/
def Sys2Proof.Claims.selfTestRecordsItsGroups : Prop :=
  ∀ (s : State) (r : BistRun) (fails : List (Nat × Nat)) (misrs : List (Nat × W64)) (starts : List StartReport), s.kt.run = some r →
    (r.next < 8 → ∃ t, exec (.bistGroupDone fails misrs starts) s = .next t ∧ t.kt.run = some { r with next := r.next + 1 }
      ∧ (∀ p, AMap.get (0, 0, 0) t.kt.bist.sites p = if p < 528 ∧ groupOfSite p = r.next
          then (bistResult fails p, if r.atStart then 1 else 0, fld (bistMisr misrs p 0) 0 32) else AMap.get (0, 0, 0) s.kt.bist.sites p)
      ∧ t.kt.bist.parts = s.kt.bist.parts ∧ t.media = s.media ∧ t.reqs = s.reqs)
    ∧ (8 ≤ r.next → r.atStart = false → ∃ t, exec (.bistGroupDone fails misrs starts) s = .next t ∧ t.kt.life = .kettleOnly
      ∧ t.kt.lastShut = 1 ∧ t.kt.running = false ∧ t.kt.run = none ∧ t.kt.cleared = false ∧ t.kt.bist.kind = 1 ∧ t.kt.bist.fresh = true
      ∧ ∀ p, p < 16 → AMap.get (0, 0) t.kt.bist.parts p
          = if partTested s p then (bistResult fails p, (bistMisr misrs p (p + 1)).toNat) else (0, 0))

/-- R505, R528, R529: the online test starts on the next fenced site once its power fits; a pass unfences the site at the next boundary, a
failure counts, and queues the site again until the second in a row. -/
def Sys2Proof.Claims.onlineTestsUnfenceOrFail : Prop :=
  (∀ (s : State) (p : Nat), s.kt.life = .running → clearingNow s = false → s.bi.testing = none → nextTest s = some p →
    (10 * powerHeld s + 71 ≤ 10 * s.power.sust →
      ∃ t, exec .onlineTestStart s = .next t ∧ t.bi.testing = some p ∧ p ∉ t.bi.wanted ∧ p ∉ t.bi.queue
        ∧ (coreOf t (512 + p)).power = .issuing ∧ (∀ n, n ≠ 512 + p → coreOf t n = coreOf s n)
        ∧ t.chip = { s.chip with cores := t.chip.cores } ∧ t.reqs = s.reqs)
    ∧ (10 * s.power.sust < 10 * powerHeld s + 71 → exec .onlineTestStart s = .next s))
  ∧ ∀ (s : State) (p : Nat) (misr : W32), s.bi.testing = some p →
    (∃ t, exec (.onlineTestDone true false misr) s = .next t ∧ t.bi.testing = none ∧ t.bi.done = true ∧ t.bi.pass = true
      ∧ AMap.get 0 t.bi.fails p = 0 ∧ t.changes = s.changes ++ [.unfence p] ∧ AMap.get (0, 0, 0) t.kt.bist.sites p = (1, 2, misr.toNat)
      ∧ (coreOf t (512 + p)).power = .powerGated ∧ (∀ n, n ≠ 512 + p → coreOf t n = coreOf s n)
      ∧ t.chip = { s.chip with cores := t.chip.cores })
    ∧ (∃ t, exec (.onlineTestDone false false misr) s = .next t ∧ t.bi.testing = none ∧ t.bi.pass = false
      ∧ AMap.get 0 t.bi.fails p = AMap.get 0 s.bi.fails p + 1 ∧ t.changes = s.changes
      ∧ t.bi.queue = (if AMap.get 0 s.bi.fails p + 1 < 2 then s.bi.queue ++ [p] else s.bi.queue)
      ∧ AMap.get (0, 0, 0) t.kt.bist.sites p = (2, 2, misr.toNat))
    ∧ ∃ t, exec (.onlineTestDone false true misr) s = .next t ∧ AMap.get (0, 0, 0) t.kt.bist.sites p = (3, 2, misr.toNat)

/-- R505, R520 to R529: the self-tests and the online test. -/
def Obligations.SelfTests : Prop := selfTestRecordsItsGroups ∧ onlineTestsUnfenceOrFail

/-! ### Clearing (R501) -/

/-- R501: a whole replay that completes clears every suspect; one that stops is split in two while it has two suspects or more, and a lone
suspect ends; the site is queued for the online test. -/
def Obligations.ReplaysFindTheSuspect : Prop :=
  ∀ (s : State) (unit : Nat) (cl : Clearing),
    s.chip.clearings.find? (fun x => x.unit.unitId == unit && x.quarantine.isSome) = some cl → cl.whole = true →
    (cl.result = .none →
      ∃ t, exec (.replayComplete unit .completed) s = .next t ∧ (∀ x ∈ t.chip.clearings, x.unit.unitId ≠ unit)
        ∧ t.chip.units = ((s.chip.units.filter (fun u => u.desc.unitId != unit)).map
            (fun u => if cl.unit.succs.contains u.desc.unitId then { u with left := u.left - 1 } else u))
        ∧ t.bi.queue = s.bi.queue.filter (· != cl.site) ++ [cl.site] ∧ t.media.bytes = s.media.bytes)
    ∧ (∀ code same, 2 ≤ cl.current.length →
      ∃ t r, exec (.replayComplete unit (.stopped code same)) s = .next t
        ∧ t.chip.clearings = s.chip.clearings.map (fun x => if x.unit.unitId = unit then { cl with
            sameAll := cl.sameAll && same, whole := false, current := lowerHalf cl.current, other := upperHalf cl.current } else x)
        ∧ (coreOf t (replayCore cl)).run = some r ∧ r.replay = true ∧ r.pc = 0
        ∧ r.desc.members = (if cl.unit.members.isEmpty then [] else lowerHalf cl.current)
        ∧ (∀ n, n ≠ replayCore cl → coreOf t n = coreOf s n) ∧ t.reqs = s.reqs)
    ∧ ∀ code same r, cl.current = [r] →
      ∃ t, exec (.replayComplete unit (.stopped code same)) s = .next t ∧ (∀ q ∈ t.reqs, q.id ≠ r)
        ∧ (∀ x ∈ t.chip.clearings, x.unit.unitId ≠ unit) ∧ t.media.bytes = s.media.bytes

/-! ### The step boundary (R8 to R12, R319, R558) -/

/-- R8, R9, R319: a boundary advances the step by one and the time to at least 250 µs after the boundary before (20 ms in DEEP IDLE); the
new step is 250 µs to 20 ms long, and the next of its run, or the first of a new one. -/
def Sys2Proof.Claims.boundariesAdvanceTheStep : Prop :=
  ∀ (s : State) (p : BoundaryPlan),
    (boundaryRuns s = false → exec (.stepBoundary p) s = .next s)
    ∧ (boundaryRuns s = true →
      ∃ t, exec (.stepBoundary p) s = .next t ∧ t.chip.step = s.chip.step + 1 ∧ t.sched.start = t.time
        ∧ t.time = max s.time (s.sched.start + if s.power.deep then 20000 else 250)
        ∧ 250 ≤ t.sched.length ∧ t.sched.length ≤ 20000 ∧ t.sched.runAt = (if iterationEnds s then 0 else s.sched.runAt + 1)
        ∧ t.kt.life = s.kt.life)

/-- R319, R558: on a module with no request and no change, a boundary commits the plan: its units wait for their predecessors, in order, and
the module leaves DEEP IDLE. -/
def Sys2Proof.Claims.boundariesCommitTheirPlan : Prop :=
  ∀ (s : State) (p : BoundaryPlan), boundaryRuns s = true → mayWork s = true → s.reqs = [] → s.changes = [] → s.idx.loaded = [] →
    s.tabs.hot = [] → s.tabs.versions = [] → s.images.current = none → s.images.outgoing = none → s.under.scans = [] → inSet s = false →
    s.grove.recheck = false → s.chip.cores = [] → s.chip.moves = [] → s.chip.units = [] → s.prot.dying = [] → p.links = [] → p.groups = [] →
    p.tiles = [] → p.work = [] → p.units ≠ [] →
    ∃ t, exec (.stepBoundary p) s = .next t
      ∧ t.chip.units = (p.units.take 65536).map (fun d => ⟨d, d.preds, false, s.sched.admits + 1⟩)
      ∧ t.power.deep = false ∧ t.reqs = [] ∧ t.changes = [] ∧ t.media.bytes = s.media.bytes ∧ t.chip.cores = []

/-- R8, R9, R319, R558: what a step boundary does to the step, the time and the plan. -/
def Obligations.Boundaries : Prop := boundariesAdvanceTheStep ∧ boundariesCommitTheirPlan

/-! ### The queue, the words, reset, and every step -/

/-- The step takes the command at the front of the queue and runs it on the state with the rest; on an empty queue it idles (log 1). -/
def Obligations.StepRunsTheFrontCommand : Prop :=
  ∀ (s : State) (i : Instr) (rest : List Instr),
    step { s with pending := i :: rest } = exec i { s with pending := rest } ∧ step { s with pending := [] } = .next { s with pending := [] }

/-- R83: the word of an instruction of the module's own program, decoded, is that instruction, whatever its fields and operands; and a word
that decodes is the word of what it decodes to. -/
def Obligations.DecodeOfEncode : Prop :=
  (∀ (i : Instr) (w : W128), encodeEngine i = some w → decodeEngine (coreOfInstr i) w = some i)
  ∧ ∀ (c : CoreId) (w : W128) (i : Instr), decodeEngine c w = some i → encodeEngine i = some w ∧ coreOfInstr i = c

/-- R208, R416, R418, R465, R530: what the spec gives for reset: nothing is ready, no power is applied, and the registers hold their reset
values. -/
def Obligations.ResetLeavesTheRegisters : Prop :=
  readReg State.reset 0 0x100 = 0#64 ∧ readReg State.reset 0 0x200 = 3000#64 ∧ readReg State.reset 0 0x208 = 3000#64
  ∧ State.reset.kt.life = .off ∧ State.reset.kt.vaultCounter = 0 ∧ State.reset.reqs = [] ∧ State.reset.pending = []
  ∧ (∀ c, (coreOf State.reset c).power = .powerGated) ∧ (∀ a, readByte State.reset.media.bytes a = 0#8) ∧ State.reset.bi.auto = true
  ∧ State.reset.grove.porten = 0xFF#8 ∧ State.reset.grove.state = 0

/-- The state at reset is in canonical form. -/
def Obligations.ResetIsWellFormed : Prop := stateWf State.reset = true

/-- Every step keeps the byte stores, the tiles of every copy in flight, and the tile descriptors in canonical form: keys strictly rising, and
no entry equal to what an unlisted one reads as. -/
def Obligations.StepsKeepTheStoresCanonical : Prop := ∀ (s t : State), stateWf s = true → step s = .next t → stateWf t = true

/-- No command stops the module but an input beyond the absolute ratings (R531): every other step answers a next state. -/
def Obligations.OnlyOvervoltageStops : Prop :=
  ∀ (s : State) (i : Instr), (∃ t, exec i s = .next t) ∨ ∃ mv, i = .overvoltageStop mv ∧ 72000 < mv ∧ exec i s = .fault .damaged
end

