-- ==== Sys2Proof/Laws/Memory.lean ====
section
/-!
SUPPORT. The laws of the finite tables and the byte stores: a read after a write to the same place gives the value written, a write leaves
every other place alone, and every operation keeps the canonical form.
-/
namespace Sys2Proof.Machine

/-! ### Reading a table -/

variable {α : Type}

@[simp] theorem AMap.get_nil (d : α) (x : Nat) : AMap.get d [] x = d := rfl

theorem AMap.get_cons (d : α) (k : Nat) (v : α) (r : AMap α) (x : Nat) :
    AMap.get d ((k, v) :: r) x = if k = x then v else AMap.get d r x := rfl

/-- A key that is not listed reads as the default. -/
theorem AMap.get_of_not_mem (d : α) (m : AMap α) (x : Nat) (h : ∀ p ∈ m, p.1 ≠ x) : AMap.get d m x = d := by
  induction m with
  | nil => rfl
  | cons p r ih =>
    obtain ⟨k, v⟩ := p
    have hk : k ≠ x := h (k, v) (List.mem_cons_self ..)
    rw [AMap.get_cons, if_neg hk, ih (fun q hq => h q (List.mem_cons_of_mem _ hq))]

theorem AMap.get_append_left (d : α) (a b : AMap α) (x : Nat) (h : ∀ p ∈ b, p.1 ≠ x) :
    AMap.get d (a ++ b) x = AMap.get d a x := by
  induction a with
  | nil => exact AMap.get_of_not_mem d b x h
  | cons p r ih => obtain ⟨k, v⟩ := p; simp only [List.cons_append, AMap.get_cons, ih]

theorem AMap.get_append_right (d : α) (a b : AMap α) (x : Nat) (h : ∀ p ∈ a, p.1 ≠ x) :
    AMap.get d (a ++ b) x = AMap.get d b x := by
  induction a with
  | nil => rfl
  | cons p r ih =>
    obtain ⟨k, v⟩ := p
    have hk : k ≠ x := h (k, v) (List.mem_cons_self ..)
    rw [List.cons_append, AMap.get_cons, if_neg hk, ih (fun q hq => h q (List.mem_cons_of_mem _ hq))]

/-- The entries whose keys a predicate keeps. -/
theorem AMap.get_filter (d : α) (m : AMap α) (P : Nat → Bool) (x : Nat) :
    AMap.get d (m.filter (fun p => P p.1)) x = if P x then AMap.get d m x else d := by
  induction m with
  | nil => simp
  | cons p r ih =>
    obtain ⟨k, v⟩ := p
    by_cases hk : P k = true
    · rw [List.filter_cons_of_pos (by simpa using hk), AMap.get_cons, AMap.get_cons]
      by_cases he : k = x
      · subst he; simp [hk]
      · simp only [if_neg he, ih]
    · rw [List.filter_cons_of_neg (by simpa using hk), ih, AMap.get_cons]
      by_cases he : k = x
      · subst he; simp [hk]
      · simp only [if_neg he]

theorem AMap.below_lt (m : AMap α) (k : Nat) : ∀ p ∈ m.below k, p.1 < k := by
  intro p hp; simpa using (List.mem_filter.1 hp).2

theorem AMap.from_le (m : AMap α) (k : Nat) : ∀ p ∈ m.from k, k ≤ p.1 := by
  intro p hp; simpa using (List.mem_filter.1 hp).2

theorem AMap.get_below (d : α) (m : AMap α) (k x : Nat) : AMap.get d (m.below k) x = if x < k then AMap.get d m x else d := by
  have h := AMap.get_filter d m (fun y => decide (y < k)) x
  simp only [decide_eq_true_eq] at h; exact h

theorem AMap.get_from (d : α) (m : AMap α) (k x : Nat) : AMap.get d (m.from k) x = if k ≤ x then AMap.get d m x else d := by
  have h := AMap.get_filter d m (fun y => decide (k ≤ y)) x
  simp only [decide_eq_true_eq] at h; exact h

/-! ### Writing a table -/

variable [DecidableEq α]

/-- A read of the key just put. -/
@[simp] theorem AMap.get_put_same (d : α) (m : AMap α) (k : Nat) (v : α) : AMap.get d (AMap.put d m k v) k = v := by
  unfold AMap.put
  rw [AMap.get_append_right d _ _ k (fun p hp => by have := AMap.below_lt m k p hp; omega)]
  by_cases hv : v = d
  · rw [if_pos hv, List.nil_append, AMap.get_of_not_mem d _ k (fun p hp => by have := AMap.from_le m (k + 1) p hp; omega), hv]
  · rw [if_neg hv]; simp [AMap.get_cons]

/-- Every other key reads as before. -/
theorem AMap.get_put_other (d : α) (m : AMap α) (k x : Nat) (v : α) (h : x ≠ k) : AMap.get d (AMap.put d m k v) x = AMap.get d m x := by
  unfold AMap.put
  have hmid : ∀ p ∈ (if v = d then [] else [(k, v)]), p.1 ≠ x := by
    intro p hp
    by_cases hv : v = d
    · rw [if_pos hv] at hp; exact absurd hp (List.not_mem_nil)
    · rw [if_neg hv, List.mem_singleton] at hp; subst hp; exact fun e => h e.symm
  by_cases hx : x < k
  · rw [AMap.get_append_left, AMap.get_below, if_pos hx]
    intro p hp
    rcases List.mem_append.1 hp with hp | hp
    · exact hmid p hp
    · have := AMap.from_le m (k + 1) p hp; omega
  · rw [AMap.get_append_right d _ _ x (fun p hp => by have := AMap.below_lt m k p hp; omega),
      AMap.get_append_right d _ _ x hmid, AMap.get_from, if_pos (by omega)]

theorem AMap.get_put (d : α) (m : AMap α) (k x : Nat) (v : α) : AMap.get d (AMap.put d m k v) x = if x = k then v else AMap.get d m x := by
  by_cases h : x = k
  · subst h; simp
  · rw [if_neg h, AMap.get_put_other d m k x v h]

/-! ### The canonical form -/

/-- Keys strictly rising, and no default listed. -/
theorem AMap.wf_iff (d : α) (m : AMap α) : AMap.wf d m = true ↔ m.Pairwise (fun a b => a.1 < b.1) ∧ ∀ p ∈ m, p.2 ≠ d := by
  induction m with
  | nil => simp [AMap.wf]
  | cons p r ih =>
    obtain ⟨k, v⟩ := p
    cases r with
    | nil => simp [AMap.wf]
    | cons q r =>
      obtain ⟨k', v'⟩ := q
      simp only [AMap.wf, Bool.and_eq_true, decide_eq_true_eq, ih]
      constructor
      · rintro ⟨⟨hk, hv⟩, hp, hd⟩
        refine ⟨List.pairwise_cons.2 ⟨fun x hx => ?_, hp⟩, fun x hx => ?_⟩
        · rcases List.mem_cons.1 hx with rfl | hx
          · exact hk
          · exact Nat.lt_trans hk ((List.pairwise_cons.1 hp).1 x hx)
        · rcases List.mem_cons.1 hx with rfl | hx
          · exact hv
          · exact hd x hx
      · rintro ⟨hp, hd⟩
        exact ⟨⟨(List.pairwise_cons.1 hp).1 _ (List.mem_cons_self ..), hd _ (List.mem_cons_self ..)⟩, (List.pairwise_cons.1 hp).2,
          fun x hx => hd x (List.mem_cons_of_mem _ hx)⟩

omit [DecidableEq α] in
theorem AMap.pairwise_three (a b c : AMap α) (k l : Nat) (ha : a.Pairwise (fun x y => x.1 < y.1)) (hb : b.Pairwise (fun x y => x.1 < y.1))
    (hc : c.Pairwise (fun x y => x.1 < y.1)) (hak : ∀ p ∈ a, p.1 < k) (hbk : ∀ p ∈ b, k ≤ p.1 ∧ p.1 < l) (hcl : ∀ p ∈ c, l ≤ p.1)
    (hkl : k ≤ l) : (a ++ (b ++ c)).Pairwise (fun x y => x.1 < y.1) := by
  refine List.pairwise_append.2 ⟨ha, List.pairwise_append.2 ⟨hb, hc, fun x hx y hy => ?_⟩, fun x hx y hy => ?_⟩
  · have := hbk x hx; have := hcl y hy; omega
  · have h1 := hak x hx
    rcases List.mem_append.1 hy with hy | hy
    · have := hbk y hy; omega
    · have := hcl y hy; omega

theorem AMap.wf_filter (d : α) (m : AMap α) (P : Nat × α → Bool) (h : AMap.wf d m = true) : AMap.wf d (m.filter P) = true := by
  rw [AMap.wf_iff] at h ⊢
  exact ⟨h.1.filter P, fun p hp => h.2 p (List.mem_filter.1 hp).1⟩

/-- A put keeps the canonical form. -/
theorem AMap.put_wf (d : α) (m : AMap α) (k : Nat) (v : α) (h : AMap.wf d m = true) : AMap.wf d (AMap.put d m k v) = true := by
  have hb := (AMap.wf_iff d _).1 (AMap.wf_filter d m (fun p => decide (p.1 < k)) h)
  have hf := (AMap.wf_iff d _).1 (AMap.wf_filter d m (fun p => decide (k + 1 ≤ p.1)) h)
  rw [AMap.wf_iff]
  by_cases hv : v = d
  · refine ⟨?_, ?_⟩
    · unfold AMap.put; rw [if_pos hv]
      exact AMap.pairwise_three _ [] _ k (k + 1) hb.1 List.Pairwise.nil hf.1 (AMap.below_lt m k) (by simp) (AMap.from_le m (k + 1)) (by omega)
    · intro p hp; unfold AMap.put at hp; rw [if_pos hv, List.nil_append] at hp
      rcases List.mem_append.1 hp with hp | hp
      · exact hb.2 p hp
      · exact hf.2 p hp
  · refine ⟨?_, ?_⟩
    · unfold AMap.put; rw [if_neg hv]
      exact AMap.pairwise_three _ [(k, v)] _ k (k + 1) hb.1 (List.pairwise_singleton _ _) hf.1 (AMap.below_lt m k) (by simp)
        (AMap.from_le m (k + 1)) (by omega)
    · intro p hp; unfold AMap.put at hp; rw [if_neg hv] at hp
      rcases List.mem_append.1 hp with hp | hp
      · exact hb.2 p hp
      · rcases List.mem_append.1 hp with hp | hp
        · rw [List.mem_singleton] at hp; subst hp; exact hv
        · exact hf.2 p hp

/-! ### Bytes -/

/-- The cells put at `a` read as they stand, keyed from `a`. -/
theorem readByte_putCells_inside (m : List Host.Cell) (a n : Nat) (c : List Host.Cell) (i : Nat) (h : i < n) :
    readByte (putCells m a n c) (a + i) = AMap.get 0#8 c i := by
  unfold readByte putCells
  rw [AMap.get_append_right _ _ _ _ (fun p hp => by have := AMap.below_lt m a p hp; omega),
    AMap.get_append_left _ _ _ _ (fun p hp => by have := AMap.from_le m (a + n) p hp; omega)]
  induction c with
  | nil => rfl
  | cons p r ih =>
    obtain ⟨k, v⟩ := p
    simp only [List.map_cons, AMap.get_cons, ih]
    by_cases hk : k = i
    · rw [if_pos hk, if_pos (by omega)]
    · rw [if_neg hk, if_neg (by omega)]

/-- Outside `[a, a+n)` nothing changes, when the cells lie within. -/
theorem readByte_putCells_outside (m : List Host.Cell) (a n : Nat) (c : List Host.Cell) (x : Nat) (hc : ∀ p ∈ c, p.1 < n)
    (h : x < a ∨ a + n ≤ x) : readByte (putCells m a n c) x = readByte m x := by
  unfold readByte putCells
  have hmid : ∀ p ∈ c.map (fun p => (p.1 + a, p.2)), p.1 ≠ x := by
    intro p hp
    obtain ⟨q, hq, rfl⟩ := List.mem_map.1 hp
    have := hc q hq
    show q.1 + a ≠ x
    omega
  rcases h with h | h
  · rw [AMap.get_append_left, AMap.get_below, if_pos h]
    intro p hp
    rcases List.mem_append.1 hp with hp | hp
    · exact hmid p hp
    · have := AMap.from_le m (a + n) p hp; omega
  · rw [AMap.get_append_right _ _ _ _ (fun p hp => by have := AMap.below_lt m a p hp; omega),
      AMap.get_append_right _ _ _ _ hmid, AMap.get_from, if_pos h]

theorem cellsOf_cons (a : Nat) (b : Byte) (r : List Byte) :
    cellsOf a (b :: r) = if b = 0#8 then cellsOf (a + 1) r else (a, b) :: cellsOf (a + 1) r := rfl

/-- The cells of a list read as its bytes. -/
theorem get_cellsOf (l : List Byte) (a x : Nat) : AMap.get 0#8 (cellsOf a l) x = if a ≤ x then (l[x - a]?).getD 0#8 else 0#8 := by
  induction l generalizing a with
  | nil => simp [cellsOf]
  | cons b r ih =>
    have hstep : AMap.get 0#8 (cellsOf a (b :: r)) x = if a = x then b else AMap.get 0#8 (cellsOf (a + 1) r) x := by
      rw [cellsOf_cons]
      by_cases hb : b = 0#8
      · rw [if_pos hb]
        by_cases hax : a = x
        · rw [if_pos hax, ih, if_neg (by omega), hb]
        · rw [if_neg hax]
      · rw [if_neg hb, AMap.get_cons]
    rw [hstep, ih]
    by_cases hax : a = x
    · subst hax; simp
    · rw [if_neg hax]
      by_cases hle : a ≤ x
      · rw [if_pos hle, if_pos (by omega)]
        obtain ⟨i, rfl⟩ : ∃ i, x = a + 1 + i := ⟨x - a - 1, by omega⟩
        rw [show a + 1 + i - (a + 1) = i by omega, show a + 1 + i - a = i + 1 by omega, List.getElem?_cons_succ]
      · rw [if_neg hle, if_neg (by omega)]

theorem cellsOf_keys (l : List Byte) (a : Nat) : ∀ p ∈ cellsOf a l, a ≤ p.1 ∧ p.1 < a + l.length := by
  induction l generalizing a with
  | nil => intro p hp; simp [cellsOf] at hp
  | cons b r ih =>
    intro p hp
    rw [cellsOf_cons] at hp
    by_cases hb : b = 0#8
    · rw [if_pos hb] at hp
      have := ih (a + 1) p hp
      simp only [List.length_cons]; omega
    · rw [if_neg hb] at hp
      rcases List.mem_cons.1 hp with rfl | hp
      · simp only [List.length_cons]; omega
      · have := ih (a + 1) p hp
        simp only [List.length_cons]; omega

theorem cellsOf_lt (l : List Byte) : ∀ p ∈ cellsOf 0 l, p.1 < l.length := by
  intro p hp; have := cellsOf_keys l 0 p hp; omega

/-- A read of a byte just written. -/
theorem readByte_writeBytes_inside (m : List Host.Cell) (a : Nat) (l : List Byte) (i : Nat) (h : i < l.length) :
    readByte (writeBytes m a l) (a + i) = (l[i]?).getD 0#8 := by
  unfold writeBytes
  rw [readByte_putCells_inside m a _ _ i h, get_cellsOf, if_pos (Nat.zero_le i), Nat.sub_zero]

/-- A write leaves every other byte alone. -/
theorem readByte_writeBytes_outside (m : List Host.Cell) (a : Nat) (l : List Byte) (x : Nat) (h : x < a ∨ a + l.length ≤ x) :
    readByte (writeBytes m a l) x = readByte m x :=
  readByte_putCells_outside m a _ _ x (cellsOf_lt l) h

/-- Reading back what was written. -/
@[simp] theorem readBytes_writeBytes (m : List Host.Cell) (a : Nat) (l : List Byte) : readBytes (writeBytes m a l) a l.length = l := by
  unfold readBytes
  apply List.ext_getElem
  · simp
  · intro i h1 h2
    rw [List.getElem_map, List.getElem_range, readByte_writeBytes_inside m a l i h2, List.getElem?_eq_getElem h2]
    rfl

theorem readByte_clearBytes_inside (m : List Host.Cell) (a n i : Nat) (h : i < n) : readByte (clearBytes m a n) (a + i) = 0#8 := by
  unfold clearBytes; rw [readByte_putCells_inside m a n [] i h]; rfl

theorem readByte_clearBytes_outside (m : List Host.Cell) (a n x : Nat) (h : x < a ∨ a + n ≤ x) :
    readByte (clearBytes m a n) x = readByte m x :=
  readByte_putCells_outside m a n [] x (by simp) h

/-- The cells cut out of a range read as the range did. -/
theorem get_cutCells (m : List Host.Cell) (a n i : Nat) (h : i < n) : AMap.get 0#8 (cutCells m a n) i = readByte m (a + i) := by
  unfold cutCells readByte
  induction m with
  | nil => rfl
  | cons p r ih =>
    obtain ⟨k, v⟩ := p
    by_cases hk : a ≤ k ∧ k < a + n
    · rw [List.filter_cons_of_pos (by simpa using hk), List.map_cons, AMap.get_cons, AMap.get_cons, ih]
      by_cases he : k - a = i
      · rw [if_pos he, if_pos (by omega)]
      · rw [if_neg he, if_neg (by omega)]
    · rw [List.filter_cons_of_neg (by simpa using hk), ih, AMap.get_cons, if_neg (by omega)]

theorem cutCells_lt (m : List Host.Cell) (a n : Nat) : ∀ p ∈ cutCells m a n, p.1 < n := by
  intro p hp
  obtain ⟨q, hq, rfl⟩ := List.mem_map.1 hp
  have := (List.mem_filter.1 hq).2
  simp only [Bool.and_eq_true, decide_eq_true_eq] at this
  show q.1 - a < n
  omega

/-! ### Byte stores keep their form -/

theorem putCells_wf (m : List Host.Cell) (a n : Nat) (c : List Host.Cell) (hm : memWf m = true) (hc : memWf c = true) (hn : ∀ p ∈ c, p.1 < n) :
    memWf (putCells m a n c) = true := by
  have hb := (AMap.wf_iff 0#8 _).1 (AMap.wf_filter 0#8 m (fun p => decide (p.1 < a)) hm)
  have hf := (AMap.wf_iff 0#8 _).1 (AMap.wf_filter 0#8 m (fun p => decide (a + n ≤ p.1)) hm)
  have hc' := (AMap.wf_iff 0#8 c).1 hc
  unfold memWf
  rw [AMap.wf_iff]
  refine ⟨?_, ?_⟩
  · refine AMap.pairwise_three _ _ _ a (a + n) hb.1 ?_ hf.1 (AMap.below_lt m a) ?_ (AMap.from_le m (a + n)) (by omega)
    · exact List.pairwise_map.2 (hc'.1.imp (fun {x y} h => by show x.1 + a < y.1 + a; omega))
    · intro p hp
      obtain ⟨q, hq, rfl⟩ := List.mem_map.1 hp
      have := hn q hq
      show a ≤ q.1 + a ∧ q.1 + a < a + n
      omega
  · intro p hp
    rcases List.mem_append.1 hp with hp | hp
    · exact hb.2 p hp
    · rcases List.mem_append.1 hp with hp | hp
      · obtain ⟨q, hq, rfl⟩ := List.mem_map.1 hp
        exact hc'.2 q hq
      · exact hf.2 p hp

theorem cellsOf_wf (l : List Byte) (a : Nat) : memWf (cellsOf a l) = true := by
  unfold memWf
  induction l generalizing a with
  | nil => rfl
  | cons b r ih =>
    rw [cellsOf_cons]
    by_cases hb : b = 0#8
    · rw [if_pos hb]; exact ih (a + 1)
    · rw [if_neg hb, AMap.wf_iff]
      have h := (AMap.wf_iff 0#8 _).1 (ih (a + 1))
      refine ⟨List.pairwise_cons.2 ⟨fun p hp => ?_, h.1⟩, fun p hp => ?_⟩
      · have := cellsOf_keys r (a + 1) p hp
        show a < p.1
        omega
      · rcases List.mem_cons.1 hp with rfl | hp
        · exact hb
        · exact h.2 p hp

theorem cutCells_wf (m : List Host.Cell) (a n : Nat) (h : memWf m = true) : memWf (cutCells m a n) = true := by
  have hf := (AMap.wf_iff 0#8 _).1 (AMap.wf_filter 0#8 m (fun p => decide (a ≤ p.1) && decide (p.1 < a + n)) h)
  unfold memWf cutCells
  rw [AMap.wf_iff]
  refine ⟨List.pairwise_map.2 (List.Pairwise.imp_of_mem (fun {x y} hx hy hxy => ?_) hf.1), fun p hp => ?_⟩
  · have h1 := (List.mem_filter.1 hx).2
    simp only [Bool.and_eq_true, decide_eq_true_eq] at h1
    show x.1 - a < y.1 - a
    omega
  · obtain ⟨q, hq, rfl⟩ := List.mem_map.1 hp
    exact hf.2 q hq

theorem writeBytes_wf (m : List Host.Cell) (a : Nat) (l : List Byte) (h : memWf m = true) : memWf (writeBytes m a l) = true :=
  putCells_wf m a _ _ h (cellsOf_wf l 0) (cellsOf_lt l)

theorem clearBytes_wf (m : List Host.Cell) (a n : Nat) (h : memWf m = true) : memWf (clearBytes m a n) = true :=
  putCells_wf m a n [] h rfl (by simp)

theorem putRanges_wf (m : List Host.Cell) (l : List (Nat × List Byte)) (h : memWf m = true) : memWf (putRanges m l) = true := by
  unfold putRanges
  induction l generalizing m with
  | nil => exact h
  | cons r t ih => exact ih _ (writeBytes_wf m r.1 r.2 h)

/-! ### Cores and tiles -/

@[simp] theorem coreOf_setCore_same (s : State) (c : Nat) (k : Core) : coreOf (setCore s c k) c = k := AMap.get_put_same ..
theorem coreOf_setCore_other (s : State) (c n : Nat) (k : Core) (h : n ≠ c) : coreOf (setCore s c k) n = coreOf s n := AMap.get_put_other _ _ _ _ _ h
@[simp] theorem tokenOf_setToken_same (k : Core) (t : Nat) (v : Token) : tokenOf (setToken k t v) t = v := AMap.get_put_same ..
theorem tokenOf_setToken_other (k : Core) (t n : Nat) (v : Token) (h : n ≠ t) : tokenOf (setToken k t v) n = tokenOf k n := AMap.get_put_other _ _ _ _ _ h
@[simp] theorem slotOf_setSlot_same (k : Core) (t : Nat) (v : SlotState) : slotOf (setSlot k t v) t = v := AMap.get_put_same ..
theorem slotOf_setSlot_other (k : Core) (t n : Nat) (v : SlotState) (h : n ≠ t) : slotOf (setSlot k t v) n = slotOf k n := AMap.get_put_other _ _ _ _ _ h
@[simp] theorem slotDesc_setSlotDesc_same (k : Core) (t : Nat) (v : BitVec 512) : slotDesc (setSlotDesc k t v) t = v := AMap.get_put_same ..
theorem slotDesc_setSlotDesc_other (k : Core) (t n : Nat) (v : BitVec 512) (h : n ≠ t) : slotDesc (setSlotDesc k t v) n = slotDesc k n :=
  AMap.get_put_other _ _ _ _ _ h
@[simp] theorem scalarOf_setScalar_same (k : Core) (t : Nat) (v : W32) : scalarOf (setScalar k t v) t = v := AMap.get_put_same ..
theorem scalarOf_setScalar_other (k : Core) (t n : Nat) (v : W32) (h : n ≠ t) : scalarOf (setScalar k t v) n = scalarOf k n :=
  AMap.get_put_other _ _ _ _ _ h
@[simp] theorem tileDesc_setTile_same (s : State) (a : Nat) (d : BitVec 512) : tileDesc (setTile s a d) a = d := AMap.get_put_same ..
theorem tileDesc_setTile_other (s : State) (a n : Nat) (d : BitVec 512) (h : n ≠ a) : tileDesc (setTile s a d) n = tileDesc s n :=
  AMap.get_put_other _ _ _ _ _ h
@[simp] theorem pairAt_setPair_same (s : State) (n : Nat) (p : Pair) : pairAt (setPair s n p) n = p := AMap.get_put_same ..
@[simp] theorem funcAt_setFunc_same (s : State) (n : Nat) (p : Func) : funcAt (setFunc s n p) n = p := AMap.get_put_same ..
@[simp] theorem portAt_setPort_same (s : State) (n : Nat) (p : Port) : portAt (setPort s n p) n = p := AMap.get_put_same ..
theorem portAt_setPort_other (s : State) (n x : Nat) (p : Port) (h : x ≠ n) : portAt (setPort s n p) x = portAt s x := AMap.get_put_other _ _ _ _ _ h
@[simp] theorem chanOf_setChan_same (s : State) (n : Nat) (x : ChanState) : chanOf (setChan s n x) n = x := AMap.get_put_same ..
theorem chanOf_setChan_other (s : State) (n y : Nat) (x : ChanState) (h : y ≠ n) : chanOf (setChan s n x) y = chanOf s y := AMap.get_put_other _ _ _ _ _ h
@[simp] theorem hotAt_putHot_same (s : State) (h : Nat) (e : Option HotRow) : hotAt (putHot s h e) h = e := AMap.get_put_same ..
theorem hotAt_putHot_other (s : State) (h x : Nat) (e : Option HotRow) (hx : x ≠ h) : hotAt (putHot s h e) x = hotAt s x := AMap.get_put_other _ _ _ _ _ hx

/-! ### The form of the whole state -/

theorem setTile_stateWf (s : State) (a : Nat) (d : BitVec 512) (h : stateWf s = true) : stateWf (setTile s a d) = true := by
  simp only [stateWf, Bool.and_eq_true] at h ⊢
  exact ⟨⟨h.1.1, AMap.put_wf _ _ _ _ h.1.2⟩, h.2⟩

theorem setDevBytes_stateWf (s : State) (b : List Host.Cell) (hb : memWf b = true) (h : stateWf s = true) : stateWf (setDevBytes s b) = true := by
  simp only [stateWf, Bool.and_eq_true] at h ⊢
  exact ⟨⟨hb, h.1.2⟩, h.2⟩

/-- A core with its store in form keeps the state in form. -/
theorem setCore_stateWf (s : State) (c : Nat) (k : Core) (hk : coreWf k = true) (h : stateWf s = true) : stateWf (setCore s c k) = true := by
  simp only [stateWf, Bool.and_eq_true, List.all_eq_true] at h ⊢
  refine ⟨h.1, fun p hp => ?_⟩
  change p ∈ AMap.put coreOff s.chip.cores c k at hp
  unfold AMap.put at hp
  rcases List.mem_append.1 hp with hp | hp
  · exact h.2 p (List.mem_filter.1 hp).1
  · rcases List.mem_append.1 hp with hp | hp
    · by_cases hv : k = coreOff
      · rw [if_pos hv] at hp; exact absurd hp List.not_mem_nil
      · rw [if_neg hv, List.mem_singleton] at hp; subst hp; exact hk
    · exact h.2 p (List.mem_filter.1 hp).1

/-- The core at any number is in form. -/
theorem coreOf_coreWf (s : State) (c : Nat) (h : stateWf s = true) : coreWf (coreOf s c) = true := by
  simp only [stateWf, Bool.and_eq_true, List.all_eq_true] at h
  have key : ∀ m : AMap Core, (∀ p ∈ m, coreWf p.2 = true) → coreWf (AMap.get coreOff m c) = true := by
    intro m
    induction m with
    | nil => intro _; rfl
    | cons p r ih =>
      intro hm
      obtain ⟨k, v⟩ := p
      rw [AMap.get_cons]
      by_cases hk : k = c
      · rw [if_pos hk]; exact hm (k, v) (List.mem_cons_self ..)
      · rw [if_neg hk]; exact ih (fun q hq => hm q (List.mem_cons_of_mem _ hq))
  exact key _ h.2

end Sys2Proof.Machine
end

