-- ==== Sys2Proof/Laws/PerInstr.lean ====
section
/-!
SUPPORT. One family of statements made per instruction: the engine code and the opcode that an instruction's word carries name that
instruction again on its core (R83, R84). A command that is no engine instruction has no word.
-/
namespace Sys2Proof.Laws.PartsName

/-- The engine code, the opcode, the issue fields and the operands of `i`, where it has a word, name `i` on its core. -/
def Statement (i : Instr) : Prop :=
  ∀ e o h b, partsOf i = some (e, o, h, b) → operationOf e o (coreOfInstr i) h b = some i

theorem of_word (i : Instr) (e o : Nat) (h : Hdr) (b : BitVec 88) (hp : partsOf i = some (e, o, h, b))
    (ho : operationOf e o (coreOfInstr i) h b = some i) : Statement i := by
  intro e' o' h' b' hp'
  rw [hp] at hp'
  simp only [Option.some.injEq, Prod.mk.injEq] at hp'
  obtain ⟨rfl, rfl, rfl, rfl⟩ := hp'
  exact ho

theorem of_none (i : Instr) (hp : partsOf i = none) : Statement i := by
  intro e o h b hp'
  rw [hp] at hp'
  exact nomatch hp'

theorem nop (core : CoreId) (h : Hdr) (o : BitVec 88) : Statement (.nop core h o) := of_word _ _ _ h o rfl rfl
theorem endUnit (core : CoreId) (h : Hdr) (o : BitVec 88) : Statement (.endUnit core h o) := of_word _ _ _ h o rfl rfl
theorem loop (core : CoreId) (h : Hdr) (o : BitVec 88) : Statement (.loop core h o) := of_word _ _ _ h o rfl rfl
theorem slotfree (core : CoreId) (h : Hdr) (o : BitVec 88) : Statement (.slotfree core h o) := of_word _ _ _ h o rfl rfl
theorem tokclr (core : CoreId) (h : Hdr) (o : BitVec 88) : Statement (.tokclr core h o) := of_word _ _ _ h o rfl rfl
theorem drain (core : CoreId) (h : Hdr) (o : BitVec 88) : Statement (.drain core h o) := of_word _ _ _ h o rfl rfl
theorem mload (core : CoreId) (h : Hdr) (o : BitVec 88) : Statement (.mload core h o) := of_word _ _ _ h o rfl rfl
theorem mswap (core : CoreId) (h : Hdr) (o : BitVec 88) : Statement (.mswap core h o) := of_word _ _ _ h o rfl rfl
theorem mstream (core : CoreId) (h : Hdr) (o : BitVec 88) : Statement (.mstream core h o) := of_word _ _ _ h o rfl rfl
theorem macc (core : CoreId) (h : Hdr) (o : BitVec 88) : Statement (.macc core h o) := of_word _ _ _ h o rfl rfl
theorem vadd (core : CoreId) (h : Hdr) (o : BitVec 88) : Statement (.vadd core h o) := of_word _ _ _ h o rfl rfl
theorem vsub (core : CoreId) (h : Hdr) (o : BitVec 88) : Statement (.vsub core h o) := of_word _ _ _ h o rfl rfl
theorem vmul (core : CoreId) (h : Hdr) (o : BitVec 88) : Statement (.vmul core h o) := of_word _ _ _ h o rfl rfl
theorem vfma (core : CoreId) (h : Hdr) (o : BitVec 88) : Statement (.vfma core h o) := of_word _ _ _ h o rfl rfl
theorem vscale (core : CoreId) (h : Hdr) (o : BitVec 88) : Statement (.vscale core h o) := of_word _ _ _ h o rfl rfl
theorem vmax (core : CoreId) (h : Hdr) (o : BitVec 88) : Statement (.vmax core h o) := of_word _ _ _ h o rfl rfl
theorem vmin (core : CoreId) (h : Hdr) (o : BitVec 88) : Statement (.vmin core h o) := of_word _ _ _ h o rfl rfl
theorem vcvt (core : CoreId) (h : Hdr) (o : BitVec 88) : Statement (.vcvt core h o) := of_word _ _ _ h o rfl rfl
theorem vexp (core : CoreId) (h : Hdr) (o : BitVec 88) : Statement (.vexp core h o) := of_word _ _ _ h o rfl rfl
theorem vrsqrt (core : CoreId) (h : Hdr) (o : BitVec 88) : Statement (.vrsqrt core h o) := of_word _ _ _ h o rfl rfl
theorem vsilu (core : CoreId) (h : Hdr) (o : BitVec 88) : Statement (.vsilu core h o) := of_word _ _ _ h o rfl rfl
theorem vswiglu (core : CoreId) (h : Hdr) (o : BitVec 88) : Statement (.vswiglu core h o) := of_word _ _ _ h o rfl rfl
theorem vgelu (core : CoreId) (h : Hdr) (o : BitVec 88) : Statement (.vgelu core h o) := of_word _ _ _ h o rfl rfl
theorem vgeglu (core : CoreId) (h : Hdr) (o : BitVec 88) : Statement (.vgeglu core h o) := of_word _ _ _ h o rfl rfl
theorem vsum (core : CoreId) (h : Hdr) (o : BitVec 88) : Statement (.vsum core h o) := of_word _ _ _ h o rfl rfl
theorem vsumsq (core : CoreId) (h : Hdr) (o : BitVec 88) : Statement (.vsumsq core h o) := of_word _ _ _ h o rfl rfl
theorem vdot (core : CoreId) (h : Hdr) (o : BitVec 88) : Statement (.vdot core h o) := of_word _ _ _ h o rfl rfl
theorem vmaxr (core : CoreId) (h : Hdr) (o : BitVec 88) : Statement (.vmaxr core h o) := of_word _ _ _ h o rfl rfl
theorem vrmsnorm (core : CoreId) (h : Hdr) (o : BitVec 88) : Statement (.vrmsnorm core h o) := of_word _ _ _ h o rfl rfl
theorem vnorm2 (core : CoreId) (h : Hdr) (o : BitVec 88) : Statement (.vnorm2 core h o) := of_word _ _ _ h o rfl rfl
theorem vsoftmax (core : CoreId) (h : Hdr) (o : BitVec 88) : Statement (.vsoftmax core h o) := of_word _ _ _ h o rfl rfl
theorem vrope (core : CoreId) (h : Hdr) (o : BitVec 88) : Statement (.vrope core h o) := of_word _ _ _ h o rfl rfl
theorem packa (core : CoreId) (h : Hdr) (o : BitVec 88) : Statement (.packa core h o) := of_word _ _ _ h o rfl rfl
theorem dtip (core : CoreId) (h : Hdr) (o : BitVec 88) : Statement (.dtip core h o) := of_word _ _ _ h o rfl rfl
theorem dtl2 (core : CoreId) (h : Hdr) (o : BitVec 88) : Statement (.dtl2 core h o) := of_word _ _ _ h o rfl rfl
theorem sload (core : CoreId) (h : Hdr) (o : BitVec 88) : Statement (.sload core h o) := of_word _ _ _ h o rfl rfl
theorem sstore (core : CoreId) (h : Hdr) (o : BitVec 88) : Statement (.sstore core h o) := of_word _ _ _ h o rfl rfl
theorem topk (core : CoreId) (h : Hdr) (o : BitVec 88) : Statement (.topk core h o) := of_word _ _ _ h o rfl rfl
theorem argmax (core : CoreId) (h : Hdr) (o : BitVec 88) : Statement (.argmax core h o) := of_word _ _ _ h o rfl rfl
theorem thresh (core : CoreId) (h : Hdr) (o : BitVec 88) : Statement (.thresh core h o) := of_word _ _ _ h o rfl rfl
theorem gpool (core : CoreId) (h : Hdr) (o : BitVec 88) : Statement (.gpool core h o) := of_word _ _ _ h o rfl rfl
theorem qopen (core : CoreId) (h : Hdr) (o : BitVec 88) : Statement (.qopen core h o) := of_word _ _ _ h o rfl rfl
theorem qscan (core : CoreId) (h : Hdr) (o : BitVec 88) : Statement (.qscan core h o) := of_word _ _ _ h o rfl rfl
theorem qdrain (core : CoreId) (h : Hdr) (o : BitVec 88) : Statement (.qdrain core h o) := of_word _ _ _ h o rfl rfl
theorem ctile (core : CoreId) (h : Hdr) (o : BitVec 88) : Statement (.ctile core h o) := of_word _ _ _ h o rfl rfl
theorem clist (core : CoreId) (h : Hdr) (o : BitVec 88) : Statement (.clist core h o) := of_word _ _ _ h o rfl rfl
theorem cpart (core : CoreId) (h : Hdr) (o : BitVec 88) : Statement (.cpart core h o) := of_word _ _ _ h o rfl rfl
theorem cmcast (core : CoreId) (h : Hdr) (o : BitVec 88) : Statement (.cmcast core h o) := of_word _ _ _ h o rfl rfl
theorem crecv (core : CoreId) (h : Hdr) (o : BitVec 88) : Statement (.crecv core h o) := of_word _ _ _ h o rfl rfl
theorem csetd (core : CoreId) (h : Hdr) (o : BitVec 88) : Statement (.csetd core h o) := of_word _ _ _ h o rfl rfl
theorem xdec (core : CoreId) (h : Hdr) (o : BitVec 88) : Statement (.xdec core h o) := of_word _ _ _ h o rfl rfl
theorem xenc (core : CoreId) (h : Hdr) (o : BitVec 88) : Statement (.xenc core h o) := of_word _ _ _ h o rfl rfl
theorem xopen (core : CoreId) (h : Hdr) (o : BitVec 88) : Statement (.xopen core h o) := of_word _ _ _ h o rfl rfl
theorem xseal (core : CoreId) (h : Hdr) (o : BitVec 88) : Statement (.xseal core h o) := of_word _ _ _ h o rfl rfl
theorem instructionComplete (core : CoreId) (e : EngineId) (res : UnitResult) : Statement (.instructionComplete core e res) := of_none _ rfl
theorem memoryResponse (core : CoreId) (e : EngineId) (idx : Nat) (q : ReadQuality) : Statement (.memoryResponse core e idx q) := of_none _ rfl
theorem unitStart (core : CoreId) (unitId : Nat) : Statement (.unitStart core unitId) := of_none _ rfl
theorem engineStall (core : CoreId) (e : EngineId) : Statement (.engineStall core e) := of_none _ rfl
theorem unitBound (core : CoreId) : Statement (.unitBound core) := of_none _ rfl
theorem arrayStop (core : CoreId) : Statement (.arrayStop core) := of_none _ rfl
theorem coreClockGate (core : CoreId) : Statement (.coreClockGate core) := of_none _ rfl
theorem corePowerGate (core : CoreId) : Statement (.corePowerGate core) := of_none _ rfl
theorem stepBoundary (plan : BoundaryPlan) : Statement (.stepBoundary plan) := of_none _ rfl
theorem regulatorRefill : Statement (.regulatorRefill) := of_none _ rfl
theorem replayComplete (unitId : Nat) (o : ReplayOutcome) : Statement (.replayComplete unitId o) := of_none _ rfl
theorem hello (h : MsgHead) (b : HelloBody) : Statement (.hello h b) := of_none _ rfl
theorem proof (h : MsgHead) (p : BitVec 256) : Statement (.proof h p) := of_none _ rfl
theorem closeSession (h : MsgHead) (mode : Byte) : Statement (.closeSession h mode) := of_none _ rfl
theorem loadModel (h : MsgHead) (b : LoadModelBody) : Statement (.loadModel h b) := of_none _ rfl
theorem loadIndex (h : MsgHead) (b : LoadIndexBody) : Statement (.loadIndex h b) := of_none _ rfl
theorem ingest (h : MsgHead) (b : IngestBody) : Statement (.ingest h b) := of_none _ rfl
theorem insert (h : MsgHead) (b : IngestBody) : Statement (.insert h b) := of_none _ rfl
theorem delete (h : MsgHead) (b : DeleteBody) : Statement (.delete h b) := of_none _ rfl
theorem merge (h : MsgHead) (b : MergeBody) : Statement (.merge h b) := of_none _ rfl
theorem query (h : MsgHead) (b : QueryBody) : Statement (.query h b) := of_none _ rfl
theorem generate (h : MsgHead) (b : GenBody) : Statement (.generate h b) := of_none _ rfl
theorem ask (h : MsgHead) (b : QueryBody) : Statement (.ask h b) := of_none _ rfl
theorem cancel (h : MsgHead) (target : W64) (func : Byte) : Statement (.cancel h target func) := of_none _ rfl
theorem recoveryMode (h : MsgHead) (mode : Byte) : Statement (.recoveryMode h mode) := of_none _ rfl
theorem policySet (h : MsgHead) (p : Policy) : Statement (.policySet h p) := of_none _ rfl
theorem firmwareUpdate (h : MsgHead) (signatureOk : Bool) : Statement (.firmwareUpdate h signatureOk) := of_none _ rfl
theorem tenantBind (h : MsgHead) (b : TenantBody) (blob : Blob) : Statement (.tenantBind h b blob) := of_none _ rfl
theorem tenantSet (h : MsgHead) (b : TenantBody) : Statement (.tenantSet h b) := of_none _ rfl
theorem tenantUnbind (h : MsgHead) (tenant : Nat) : Statement (.tenantUnbind h tenant) := of_none _ rfl
theorem operatorBind (h : MsgHead) (b : OperatorBody) (blob : Blob) : Statement (.operatorBind h b blob) := of_none _ rfl
theorem operatorSet (h : MsgHead) (b : OperatorBody) : Statement (.operatorSet h b) := of_none _ rfl
theorem operatorUnbind (h : MsgHead) (operator : Nat) : Statement (.operatorUnbind h operator) := of_none _ rfl
theorem credentialSet (h : MsgHead) (role : Byte) (principal : Nat) (blob : Blob) : Statement (.credentialSet h role principal blob) := of_none _ rfl
theorem protectionExport (h : MsgHead) (outLen : Nat) : Statement (.protectionExport h outLen) := of_none _ rfl
theorem protectionReset (h : MsgHead) (mac : BitVec 256) : Statement (.protectionReset h mac) := of_none _ rfl
theorem protectionRestore (h : MsgHead) (sealOk : Bool) (generation : Nat) : Statement (.protectionRestore h sealOk generation) := of_none _ rfl
theorem gladeDefine (h : MsgHead) (g : GladeSettings) : Statement (.gladeDefine h g) := of_none _ rfl
theorem gladeSet (h : MsgHead) (g : GladeSettings) : Statement (.gladeSet h g) := of_none _ rfl
theorem gladeRemove (h : MsgHead) (glade : Nat) : Statement (.gladeRemove h glade) := of_none _ rfl
theorem profileSet (h : MsgHead) (p : Profile) : Statement (.profileSet h p) := of_none _ rfl
theorem profileRemove (h : MsgHead) (id : Nat) : Statement (.profileRemove h id) := of_none _ rfl
theorem tableUpdate (h : MsgHead) (table : Nat) (rows : List RowRecord) : Statement (.tableUpdate h table rows) := of_none _ rfl
theorem tableReplace (h : MsgHead) (table code width rows : Nat) : Statement (.tableReplace h table code width rows) := of_none _ rfl
theorem hotPin (h : MsgHead) (table : Nat) (rows : List Nat) : Statement (.hotPin h table rows) := of_none _ rfl
theorem hotUnpin (h : MsgHead) (table : Nat) (rows : List Nat) : Statement (.hotUnpin h table rows) := of_none _ rfl
theorem indexDrop (h : MsgHead) (handle : Nat) : Statement (.indexDrop h handle) := of_none _ rfl
theorem indexRetain (h : MsgHead) (handle seconds : Nat) : Statement (.indexRetain h handle seconds) := of_none _ rfl
theorem indexMergePolicy (h : MsgHead) (handle threshold : Nat) : Statement (.indexMergePolicy h handle threshold) := of_none _ rfl
theorem setForm (h : MsgHead) (b : SetBody) : Statement (.setForm h b) := of_none _ rfl
theorem setDissolve (h : MsgHead) (setId : Nat) : Statement (.setDissolve h setId) := of_none _ rfl
theorem status (h : MsgHead) (selector outLen arg : Nat) : Statement (.status h selector outLen arg) := of_none _ rfl
theorem logRead (h : MsgHead) (first max outLen : Nat) : Statement (.logRead h first max outLen) := of_none _ rfl
theorem shutdown (h : MsgHead) (mode : Byte) (limitMs : Nat) : Statement (.shutdown h mode limitMs) := of_none _ rfl
theorem cdQcommit (func : Byte) (value : W64) : Statement (.cdQcommit func value) := of_none _ rfl
theorem cdSqdb (func : Byte) (pair : Nat) (value : W64) : Statement (.cdSqdb func pair value) := of_none _ rfl
theorem cdCqdb (func : Byte) (pair : Nat) (value : W64) : Statement (.cdCqdb func pair value) := of_none _ rfl
theorem pwCommit (value : W64) : Statement (.pwCommit value) := of_none _ rfl
theorem firmwareDeviceReset (value : W64) (starts : List StartReport) : Statement (.firmwareDeviceReset value starts) := of_none _ rfl
theorem blockResetCore (index : W16) : Statement (.blockResetCore index) := of_none _ rfl
theorem blockResetEngine (index : W16) (engine : BitVec 4) : Statement (.blockResetEngine index engine) := of_none _ rfl
theorem blockResetGrovePort (index : W16) : Statement (.blockResetGrovePort index) := of_none _ rfl
theorem blockResetT2Channel (index : W16) : Statement (.blockResetT2Channel index) := of_none _ rfl
theorem blockResetFlashChannel (index : W16) : Statement (.blockResetFlashChannel index) := of_none _ rfl
theorem blockResetDone : Statement (.blockResetDone) := of_none _ rfl
theorem biOnline (site : BitVec 10) : Statement (.biOnline site) := of_none _ rfl
theorem registerWrite (func : Byte) (offset : W16) (half : Option Bool) (value : W64) : Statement (.registerWrite func offset half value) := of_none _ rfl
theorem pcieConfigRequest (func : Byte) : Statement (.pcieConfigRequest func) := of_none _ rfl
theorem msixRaise (pair : Nat) : Statement (.msixRaise pair) := of_none _ rfl
theorem regAddr (offset : W16) (pecOk : Bool) : Statement (.regAddr offset pecOk) := of_none _ rfl
theorem regData (write : Option W64) (pecOk : Bool) : Statement (.regData write pecOk) := of_none _ rfl
theorem msgPut (bytes : List Byte) (pecOk : Bool) : Statement (.msgPut bytes pecOk) := of_none _ rfl
theorem msgGo (pecOk : Bool) : Statement (.msgGo pecOk) := of_none _ rfl
theorem msgGet (pecOk : Bool) : Statement (.msgGet pecOk) := of_none _ rfl
theorem msgStat (pecOk : Bool) : Statement (.msgStat pecOk) := of_none _ rfl
theorem smbusAlertResponse : Statement (.smbusAlertResponse) := of_none _ rfl
theorem smbClkTimeout : Statement (.smbClkTimeout) := of_none _ rfl
theorem bypass : Statement (.bypass) := of_none _ rfl
theorem idcode : Statement (.idcode) := of_none _ rfl
theorem samplePreload (cells : List Bool) : Statement (.samplePreload cells) := of_none _ rfl
theorem extest : Statement (.extest) := of_none _ rfl
theorem clamp : Statement (.clamp) := of_none _ rfl
theorem highz : Statement (.highz) := of_none _ rfl
theorem extestPulse : Statement (.extestPulse) := of_none _ rfl
theorem extestTrain : Statement (.extestTrain) := of_none _ rfl
theorem internalScanInstruction : Statement (.internalScanInstruction) := of_none _ rfl
theorem testLogicReset : Statement (.testLogicReset) := of_none _ rfl
theorem locateN (low : Bool) : Statement (.locateN low) := of_none _ rfl
theorem powerGoodAssert (starts : List StartReport) : Statement (.powerGoodAssert starts) := of_none _ rfl
theorem powerGoodLoss : Statement (.powerGoodLoss) := of_none _ rfl
theorem overvoltageStop (millivolts : Nat) : Statement (.overvoltageStop millivolts) := of_none _ rfl
theorem kettlePowerLoss : Statement (.kettlePowerLoss) := of_none _ rfl
theorem mrstNHeld : Statement (.mrstNHeld) := of_none _ rfl
theorem mrstNRelease (starts : List StartReport) : Statement (.mrstNRelease starts) := of_none _ rfl
theorem perstNAssert : Statement (.perstNAssert) := of_none _ rfl
theorem perstNDeassert (starts : List StartReport) : Statement (.perstNDeassert starts) := of_none _ rfl
theorem hotReset : Statement (.hotReset) := of_none _ rfl
theorem linkDown (refclkLost : Bool) : Statement (.linkDown refclkLost) := of_none _ rfl
theorem hostLinkTrained (hostRate : Nat) : Statement (.hostLinkTrained hostRate) := of_none _ rfl
theorem shdnReqNHeld : Statement (.shdnReqNHeld) := of_none _ rfl
theorem thermalWarningSet (junction stack : Int) : Statement (.thermalWarningSet junction stack) := of_none _ rfl
theorem thermalWarningClear (junction stack : Int) : Statement (.thermalWarningClear junction stack) := of_none _ rfl
theorem thermtrip (junction : Int) : Statement (.thermtrip junction) := of_none _ rfl
theorem crystalFallback : Statement (.crystalFallback) := of_none _ rfl
theorem operatingHoursShadow : Statement (.operatingHoursShadow) := of_none _ rfl
theorem kettleWatchdog (starts : List StartReport) : Statement (.kettleWatchdog starts) := of_none _ rfl
theorem controllerHeartbeatLoss (controller : Nat) : Statement (.controllerHeartbeatLoss controller) := of_none _ rfl
theorem allControllersSilent (starts : List StartReport) : Statement (.allControllersSilent starts) := of_none _ rfl
theorem boundaryStall (starts : List StartReport) : Statement (.boundaryStall starts) := of_none _ rfl
theorem wenikConsistencyFailure (starts : List StartReport) : Statement (.wenikConsistencyFailure starts) := of_none _ rfl
theorem deepIdleEntry : Statement (.deepIdleEntry) := of_none _ rfl
theorem monitorSample (slacks : List (Nat × Nat)) : Statement (.monitorSample slacks) := of_none _ rfl
theorem skipPersist (site : Nat) : Statement (.skipPersist site) := of_none _ rfl
theorem replan (needed : List (Nat × Nat)) (worstSite worstSlack : Nat) : Statement (.replan needed worstSite worstSlack) := of_none _ rfl
theorem t2Scrub (found : List (Nat × ReadQuality)) : Statement (.t2Scrub found) := of_none _ rfl
theorem t2CorrectedRateWatch (channel : Nat) (rate : Nat) : Statement (.t2CorrectedRateWatch channel rate) := of_none _ rfl
theorem t2RebuildEnd (channel : Nat) : Statement (.t2RebuildEnd channel) := of_none _ rfl
theorem t3DieFail (channel die : Nat) (spare : Bool) : Statement (.t3DieFail channel die spare) := of_none _ rfl
theorem flashChannelOutOfService (channel : Nat) : Statement (.flashChannelOutOfService channel) := of_none _ rfl
theorem t3MoveEnd (channel : Nat) : Statement (.t3MoveEnd channel) := of_none _ rfl
theorem hotRowRank : Statement (.hotRowRank) := of_none _ rfl
theorem replicaCopyDone (home : Nat) (stack : Nat) : Statement (.replicaCopyDone home stack) := of_none _ rfl
theorem tableUpdateApplyEnd (table : Nat) : Statement (.tableUpdateApplyEnd table) := of_none _ rfl
theorem tableReplaceCommit (r : ReqId) (rows : List RowRecord) (base : Nat) : Statement (.tableReplaceCommit r rows base) := of_none _ rfl
theorem imageChunkArrival (r : ReqId) (tagOk : Bool) (tiles : List TileImage) : Statement (.imageChunkArrival r tagOk tiles) := of_none _ rfl
theorem loadModelContentVerified (r : ReqId) (image : ImageMeta) : Statement (.loadModelContentVerified r image) := of_none _ rfl
theorem loadModelSetTimeout (r : ReqId) : Statement (.loadModelSetTimeout r) := of_none _ rfl
theorem loadIndexWritten (r : ReqId) (regions : RegionParts) (lists : ListParts) (residual flat : List (List (List W32))) :
    Statement (.loadIndexWritten r regions lists residual flat) := of_none _ rfl
theorem itemStaged (r : ReqId) (item unit : Nat) : Statement (.itemStaged r item unit) := of_none _ rfl
theorem journalProgrammed (r : ReqId) (item : Nat) : Statement (.journalProgrammed r item) := of_none _ rfl
theorem mergeCommit (handle unit replayed : Nat) (made : Int) : Statement (.mergeCommit handle unit replayed made) := of_none _ rfl
theorem mergeSetTimeout (handle : Nat) : Statement (.mergeSetTimeout handle) := of_none _ rfl
theorem tableSetTimeout (r : ReqId) : Statement (.tableSetTimeout r) := of_none _ rfl
theorem indexRetainExpiry (handle version : Nat) : Statement (.indexRetainExpiry handle version) := of_none _ rfl
theorem challengeExpiry (session : W32) : Statement (.challengeExpiry session) := of_none _ rfl
theorem principalLockExpiry (role : Byte) (principal : W16) : Statement (.principalLockExpiry role principal) := of_none _ rfl
theorem sessionLifetimeExpiry (session : W32) : Statement (.sessionLifetimeExpiry session) := of_none _ rfl
theorem sessionIdleExpiry (session : W32) : Statement (.sessionIdleExpiry session) := of_none _ rfl
theorem understoryOpen (channel : Byte) (o : ScanOpen) : Statement (.understoryOpen channel o) := of_none _ rfl
theorem understoryTables (channel : Byte) (tag : W64) (t : TableSet) : Statement (.understoryTables channel tag t) := of_none _ rfl
theorem understorySegments (channel : Byte) (tag : W64) (table : Nat) (segs : List SegmentRef) : Statement (.understorySegments channel tag table segs) := of_none _ rfl
theorem understoryDrain (channel : Byte) (tag : W64) (dest : Nat) : Statement (.understoryDrain channel tag dest) := of_none _ rfl
theorem understoryClose (channel : Byte) (tag : W64) : Statement (.understoryClose channel tag) := of_none _ rfl
theorem dataFrame (port : BitVec 3) (seq : W64) (tagOk : Bool) (dest : Nat) (bytes : List Byte) : Statement (.dataFrame port seq tagOk dest bytes) := of_none _ rfl
theorem boundaryFrame (port : BitVec 3) (seq : W64) (tagOk : Bool) (step : Nat) (commit : Bool) : Statement (.boundaryFrame port seq tagOk step commit) := of_none _ rfl
theorem reserveFrame (port : BitVec 3) (seq : W64) (tagOk : Bool) (from_ : Nat) (r : ReqId) (handle : Nat) (search : FarSearch) :
    Statement (.reserveFrame port seq tagOk from_ r handle search) := of_none _ rfl
theorem grantFrame (port : BitVec 3) (seq : W64) (tagOk : Bool) (from_ : Nat) (r : ReqId) (granted : Bool) : Statement (.grantFrame port seq tagOk from_ r granted) := of_none _ rfl
theorem controlFrame (port : BitVec 3) (seq : W64) (tagOk : Bool) (info : ControlInfo) : Statement (.controlFrame port seq tagOk info) := of_none _ rfl
theorem heartbeatFrame (port : BitVec 3) (seq : W64) (tagOk : Bool) : Statement (.heartbeatFrame port seq tagOk) := of_none _ rfl
theorem ackFrame (port : BitVec 3) (upTo : W64) : Statement (.ackFrame port upTo) := of_none _ rfl
theorem nakFrame (port : BitVec 3) (seq : W64) : Statement (.nakFrame port seq) := of_none _ rfl
theorem heartbeatSend : Statement (.heartbeatSend) := of_none _ rfl
theorem memberOut (member : Nat) : Statement (.memberOut member) := of_none _ rfl
theorem groveLaneFail (port : BitVec 3) (lane : BitVec 3) : Statement (.groveLaneFail port lane) := of_none _ rfl
theorem grovePortTrained (port : BitVec 3) (authOk : Bool) (peer : Nat) (peerPort : Nat) : Statement (.grovePortTrained port authOk peer peerPort) := of_none _ rfl
theorem setFormTimeout : Statement (.setFormTimeout) := of_none _ rfl
theorem allreduce (d : LinkDesc) (peers : List (Nat × List W32)) : Statement (.allreduce d peers) := of_none _ rfl
theorem allgather (d : LinkDesc) (peers : List (Nat × List Byte)) : Statement (.allgather d peers) := of_none _ rfl
theorem gather (d : LinkDesc) (peers : List (Nat × List Byte)) : Statement (.gather d peers) := of_none _ rfl
theorem broadcast (d : LinkDesc) (data : List Byte) : Statement (.broadcast d data) := of_none _ rfl
theorem send (d : LinkDesc) (data : List Byte) : Statement (.send d data) := of_none _ rfl
theorem linkUnitOverrun (unitId : Nat) : Statement (.linkUnitOverrun unitId) := of_none _ rfl
theorem shutdownDrainEnd : Statement (.shutdownDrainEnd) := of_none _ rfl
theorem zeroizationDone (clean : Bool) : Statement (.zeroizationDone clean) := of_none _ rfl
theorem bistGroupDone (fails : List (Nat × Nat)) (misrs : List (Nat × W64)) (starts : List StartReport) : Statement (.bistGroupDone fails misrs starts) := of_none _ rfl
theorem onlineTestStart : Statement (.onlineTestStart) := of_none _ rfl
theorem onlineTestDone (passed : Bool) (memoryFail : Bool) (misr : W32) : Statement (.onlineTestDone passed memoryFail misr) := of_none _ rfl
theorem hostMemoryReadCompletion (r : ReqId) (what : ReadFor) (end_ : ReadEnd) (text : List Byte) (keyOk : Bool) (fileType path : List Byte) (obj : Option ObjectEntry) : Statement (.hostMemoryReadCompletion r what end_ text keyOk fileType path obj) := of_none _ rfl
theorem hostLinkDowntrain (hostRate : Nat) : Statement (.hostLinkDowntrain hostRate) := of_none _ rfl

end Sys2Proof.Laws.PartsName
end

