-- ==== Sys2Proof/Laws/State.lean ====
section
/-!
SUPPORT. What each update of the state leaves alone: one lemma per field and update, and what it puts there, so that no proof unfolds a
record update.
-/
namespace Sys2Proof.Machine

variable (s : State)

/-! ### setCore -/

@[simp] theorem setCore_media (c : Nat) (k : Core) : (setCore s c k).media = s.media := rfl
@[simp] theorem setCore_log (c : Nat) (k : Core) : (setCore s c k).log = s.log := rfl
@[simp] theorem setCore_tabs (c : Nat) (k : Core) : (setCore s c k).tabs = s.tabs := rfl
@[simp] theorem setCore_glades (c : Nat) (k : Core) : (setCore s c k).glades = s.glades := rfl
@[simp] theorem setCore_regs (c : Nat) (k : Core) : (setCore s c k).regs = s.regs := rfl
@[simp] theorem setCore_holds (c : Nat) (k : Core) : (setCore s c k).holds = s.holds := rfl
@[simp] theorem setCore_keys (c : Nat) (k : Core) : (setCore s c k).keys = s.keys := rfl
@[simp] theorem setCore_prot (c : Nat) (k : Core) : (setCore s c k).prot = s.prot := rfl
@[simp] theorem setCore_caddy (c : Nat) (k : Core) : (setCore s c k).caddy = s.caddy := rfl
@[simp] theorem setCore_side (c : Nat) (k : Core) : (setCore s c k).side = s.side := rfl
@[simp] theorem setCore_images (c : Nat) (k : Core) : (setCore s c k).images = s.images := rfl
@[simp] theorem setCore_idx (c : Nat) (k : Core) : (setCore s c k).idx = s.idx := rfl
@[simp] theorem setCore_reqs (c : Nat) (k : Core) : (setCore s c k).reqs = s.reqs := rfl
@[simp] theorem setCore_changes (c : Nat) (k : Core) : (setCore s c k).changes = s.changes := rfl
@[simp] theorem setCore_sched (c : Nat) (k : Core) : (setCore s c k).sched = s.sched := rfl
@[simp] theorem setCore_kt (c : Nat) (k : Core) : (setCore s c k).kt = s.kt := rfl
@[simp] theorem setCore_power (c : Nat) (k : Core) : (setCore s c k).power = s.power := rfl
@[simp] theorem setCore_grove (c : Nat) (k : Core) : (setCore s c k).grove = s.grove := rfl
@[simp] theorem setCore_pins (c : Nat) (k : Core) : (setCore s c k).pins = s.pins := rfl
@[simp] theorem setCore_rc (c : Nat) (k : Core) : (setCore s c k).rc = s.rc := rfl
@[simp] theorem setCore_bi (c : Nat) (k : Core) : (setCore s c k).bi = s.bi := rfl
@[simp] theorem setCore_tap (c : Nat) (k : Core) : (setCore s c k).tap = s.tap := rfl
@[simp] theorem setCore_under (c : Nat) (k : Core) : (setCore s c k).under = s.under := rfl
@[simp] theorem setCore_host (c : Nat) (k : Core) : (setCore s c k).host = s.host := rfl
@[simp] theorem setCore_flash (c : Nat) (k : Core) : (setCore s c k).flash = s.flash := rfl
@[simp] theorem setCore_serial (c : Nat) (k : Core) : (setCore s c k).serial = s.serial := rfl
@[simp] theorem setCore_time (c : Nat) (k : Core) : (setCore s c k).time = s.time := rfl
@[simp] theorem setCore_freeCount (c : Nat) (k : Core) : (setCore s c k).freeCount = s.freeCount := rfl
@[simp] theorem setCore_pending (c : Nat) (k : Core) : (setCore s c k).pending = s.pending := rfl

/-! ### setTile -/

@[simp] theorem setTile_chip (a : Nat) (d : BitVec 512) : (setTile s a d).chip = s.chip := rfl
@[simp] theorem setTile_log (a : Nat) (d : BitVec 512) : (setTile s a d).log = s.log := rfl
@[simp] theorem setTile_tabs (a : Nat) (d : BitVec 512) : (setTile s a d).tabs = s.tabs := rfl
@[simp] theorem setTile_glades (a : Nat) (d : BitVec 512) : (setTile s a d).glades = s.glades := rfl
@[simp] theorem setTile_regs (a : Nat) (d : BitVec 512) : (setTile s a d).regs = s.regs := rfl
@[simp] theorem setTile_holds (a : Nat) (d : BitVec 512) : (setTile s a d).holds = s.holds := rfl
@[simp] theorem setTile_keys (a : Nat) (d : BitVec 512) : (setTile s a d).keys = s.keys := rfl
@[simp] theorem setTile_prot (a : Nat) (d : BitVec 512) : (setTile s a d).prot = s.prot := rfl
@[simp] theorem setTile_caddy (a : Nat) (d : BitVec 512) : (setTile s a d).caddy = s.caddy := rfl
@[simp] theorem setTile_side (a : Nat) (d : BitVec 512) : (setTile s a d).side = s.side := rfl
@[simp] theorem setTile_images (a : Nat) (d : BitVec 512) : (setTile s a d).images = s.images := rfl
@[simp] theorem setTile_idx (a : Nat) (d : BitVec 512) : (setTile s a d).idx = s.idx := rfl
@[simp] theorem setTile_reqs (a : Nat) (d : BitVec 512) : (setTile s a d).reqs = s.reqs := rfl
@[simp] theorem setTile_changes (a : Nat) (d : BitVec 512) : (setTile s a d).changes = s.changes := rfl
@[simp] theorem setTile_sched (a : Nat) (d : BitVec 512) : (setTile s a d).sched = s.sched := rfl
@[simp] theorem setTile_kt (a : Nat) (d : BitVec 512) : (setTile s a d).kt = s.kt := rfl
@[simp] theorem setTile_power (a : Nat) (d : BitVec 512) : (setTile s a d).power = s.power := rfl
@[simp] theorem setTile_grove (a : Nat) (d : BitVec 512) : (setTile s a d).grove = s.grove := rfl
@[simp] theorem setTile_pins (a : Nat) (d : BitVec 512) : (setTile s a d).pins = s.pins := rfl
@[simp] theorem setTile_rc (a : Nat) (d : BitVec 512) : (setTile s a d).rc = s.rc := rfl
@[simp] theorem setTile_bi (a : Nat) (d : BitVec 512) : (setTile s a d).bi = s.bi := rfl
@[simp] theorem setTile_tap (a : Nat) (d : BitVec 512) : (setTile s a d).tap = s.tap := rfl
@[simp] theorem setTile_under (a : Nat) (d : BitVec 512) : (setTile s a d).under = s.under := rfl
@[simp] theorem setTile_host (a : Nat) (d : BitVec 512) : (setTile s a d).host = s.host := rfl
@[simp] theorem setTile_flash (a : Nat) (d : BitVec 512) : (setTile s a d).flash = s.flash := rfl
@[simp] theorem setTile_serial (a : Nat) (d : BitVec 512) : (setTile s a d).serial = s.serial := rfl
@[simp] theorem setTile_time (a : Nat) (d : BitVec 512) : (setTile s a d).time = s.time := rfl
@[simp] theorem setTile_freeCount (a : Nat) (d : BitVec 512) : (setTile s a d).freeCount = s.freeCount := rfl
@[simp] theorem setTile_pending (a : Nat) (d : BitVec 512) : (setTile s a d).pending = s.pending := rfl

/-! ### setDevBytes -/

@[simp] theorem setDevBytes_chip (b : List Host.Cell) : (setDevBytes s b).chip = s.chip := rfl
@[simp] theorem setDevBytes_log (b : List Host.Cell) : (setDevBytes s b).log = s.log := rfl
@[simp] theorem setDevBytes_tabs (b : List Host.Cell) : (setDevBytes s b).tabs = s.tabs := rfl
@[simp] theorem setDevBytes_glades (b : List Host.Cell) : (setDevBytes s b).glades = s.glades := rfl
@[simp] theorem setDevBytes_regs (b : List Host.Cell) : (setDevBytes s b).regs = s.regs := rfl
@[simp] theorem setDevBytes_holds (b : List Host.Cell) : (setDevBytes s b).holds = s.holds := rfl
@[simp] theorem setDevBytes_keys (b : List Host.Cell) : (setDevBytes s b).keys = s.keys := rfl
@[simp] theorem setDevBytes_prot (b : List Host.Cell) : (setDevBytes s b).prot = s.prot := rfl
@[simp] theorem setDevBytes_caddy (b : List Host.Cell) : (setDevBytes s b).caddy = s.caddy := rfl
@[simp] theorem setDevBytes_side (b : List Host.Cell) : (setDevBytes s b).side = s.side := rfl
@[simp] theorem setDevBytes_images (b : List Host.Cell) : (setDevBytes s b).images = s.images := rfl
@[simp] theorem setDevBytes_idx (b : List Host.Cell) : (setDevBytes s b).idx = s.idx := rfl
@[simp] theorem setDevBytes_reqs (b : List Host.Cell) : (setDevBytes s b).reqs = s.reqs := rfl
@[simp] theorem setDevBytes_changes (b : List Host.Cell) : (setDevBytes s b).changes = s.changes := rfl
@[simp] theorem setDevBytes_sched (b : List Host.Cell) : (setDevBytes s b).sched = s.sched := rfl
@[simp] theorem setDevBytes_kt (b : List Host.Cell) : (setDevBytes s b).kt = s.kt := rfl
@[simp] theorem setDevBytes_power (b : List Host.Cell) : (setDevBytes s b).power = s.power := rfl
@[simp] theorem setDevBytes_grove (b : List Host.Cell) : (setDevBytes s b).grove = s.grove := rfl
@[simp] theorem setDevBytes_pins (b : List Host.Cell) : (setDevBytes s b).pins = s.pins := rfl
@[simp] theorem setDevBytes_rc (b : List Host.Cell) : (setDevBytes s b).rc = s.rc := rfl
@[simp] theorem setDevBytes_bi (b : List Host.Cell) : (setDevBytes s b).bi = s.bi := rfl
@[simp] theorem setDevBytes_tap (b : List Host.Cell) : (setDevBytes s b).tap = s.tap := rfl
@[simp] theorem setDevBytes_under (b : List Host.Cell) : (setDevBytes s b).under = s.under := rfl
@[simp] theorem setDevBytes_host (b : List Host.Cell) : (setDevBytes s b).host = s.host := rfl
@[simp] theorem setDevBytes_flash (b : List Host.Cell) : (setDevBytes s b).flash = s.flash := rfl
@[simp] theorem setDevBytes_serial (b : List Host.Cell) : (setDevBytes s b).serial = s.serial := rfl
@[simp] theorem setDevBytes_time (b : List Host.Cell) : (setDevBytes s b).time = s.time := rfl
@[simp] theorem setDevBytes_freeCount (b : List Host.Cell) : (setDevBytes s b).freeCount = s.freeCount := rfl
@[simp] theorem setDevBytes_pending (b : List Host.Cell) : (setDevBytes s b).pending = s.pending := rfl

/-! ### dropLines -/

@[simp] theorem dropLines_media (a : Nat) : (dropLines s a).media = s.media := rfl
@[simp] theorem dropLines_log (a : Nat) : (dropLines s a).log = s.log := rfl
@[simp] theorem dropLines_tabs (a : Nat) : (dropLines s a).tabs = s.tabs := rfl
@[simp] theorem dropLines_glades (a : Nat) : (dropLines s a).glades = s.glades := rfl
@[simp] theorem dropLines_regs (a : Nat) : (dropLines s a).regs = s.regs := rfl
@[simp] theorem dropLines_holds (a : Nat) : (dropLines s a).holds = s.holds := rfl
@[simp] theorem dropLines_keys (a : Nat) : (dropLines s a).keys = s.keys := rfl
@[simp] theorem dropLines_prot (a : Nat) : (dropLines s a).prot = s.prot := rfl
@[simp] theorem dropLines_caddy (a : Nat) : (dropLines s a).caddy = s.caddy := rfl
@[simp] theorem dropLines_side (a : Nat) : (dropLines s a).side = s.side := rfl
@[simp] theorem dropLines_images (a : Nat) : (dropLines s a).images = s.images := rfl
@[simp] theorem dropLines_idx (a : Nat) : (dropLines s a).idx = s.idx := rfl
@[simp] theorem dropLines_reqs (a : Nat) : (dropLines s a).reqs = s.reqs := rfl
@[simp] theorem dropLines_changes (a : Nat) : (dropLines s a).changes = s.changes := rfl
@[simp] theorem dropLines_sched (a : Nat) : (dropLines s a).sched = s.sched := rfl
@[simp] theorem dropLines_kt (a : Nat) : (dropLines s a).kt = s.kt := rfl
@[simp] theorem dropLines_power (a : Nat) : (dropLines s a).power = s.power := rfl
@[simp] theorem dropLines_grove (a : Nat) : (dropLines s a).grove = s.grove := rfl
@[simp] theorem dropLines_pins (a : Nat) : (dropLines s a).pins = s.pins := rfl
@[simp] theorem dropLines_rc (a : Nat) : (dropLines s a).rc = s.rc := rfl
@[simp] theorem dropLines_bi (a : Nat) : (dropLines s a).bi = s.bi := rfl
@[simp] theorem dropLines_tap (a : Nat) : (dropLines s a).tap = s.tap := rfl
@[simp] theorem dropLines_under (a : Nat) : (dropLines s a).under = s.under := rfl
@[simp] theorem dropLines_host (a : Nat) : (dropLines s a).host = s.host := rfl
@[simp] theorem dropLines_flash (a : Nat) : (dropLines s a).flash = s.flash := rfl
@[simp] theorem dropLines_serial (a : Nat) : (dropLines s a).serial = s.serial := rfl
@[simp] theorem dropLines_time (a : Nat) : (dropLines s a).time = s.time := rfl
@[simp] theorem dropLines_freeCount (a : Nat) : (dropLines s a).freeCount = s.freeCount := rfl
@[simp] theorem dropLines_pending (a : Nat) : (dropLines s a).pending = s.pending := rfl

/-! ### drawn -/

@[simp] theorem drawn_chip : (drawn s).chip = s.chip := rfl
@[simp] theorem drawn_media : (drawn s).media = s.media := rfl
@[simp] theorem drawn_log : (drawn s).log = s.log := rfl
@[simp] theorem drawn_tabs : (drawn s).tabs = s.tabs := rfl
@[simp] theorem drawn_glades : (drawn s).glades = s.glades := rfl
@[simp] theorem drawn_regs : (drawn s).regs = s.regs := rfl
@[simp] theorem drawn_holds : (drawn s).holds = s.holds := rfl
@[simp] theorem drawn_keys : (drawn s).keys = s.keys := rfl
@[simp] theorem drawn_prot : (drawn s).prot = s.prot := rfl
@[simp] theorem drawn_caddy : (drawn s).caddy = s.caddy := rfl
@[simp] theorem drawn_side : (drawn s).side = s.side := rfl
@[simp] theorem drawn_images : (drawn s).images = s.images := rfl
@[simp] theorem drawn_idx : (drawn s).idx = s.idx := rfl
@[simp] theorem drawn_reqs : (drawn s).reqs = s.reqs := rfl
@[simp] theorem drawn_changes : (drawn s).changes = s.changes := rfl
@[simp] theorem drawn_sched : (drawn s).sched = s.sched := rfl
@[simp] theorem drawn_kt : (drawn s).kt = s.kt := rfl
@[simp] theorem drawn_power : (drawn s).power = s.power := rfl
@[simp] theorem drawn_grove : (drawn s).grove = s.grove := rfl
@[simp] theorem drawn_pins : (drawn s).pins = s.pins := rfl
@[simp] theorem drawn_rc : (drawn s).rc = s.rc := rfl
@[simp] theorem drawn_bi : (drawn s).bi = s.bi := rfl
@[simp] theorem drawn_tap : (drawn s).tap = s.tap := rfl
@[simp] theorem drawn_under : (drawn s).under = s.under := rfl
@[simp] theorem drawn_host : (drawn s).host = s.host := rfl
@[simp] theorem drawn_flash : (drawn s).flash = s.flash := rfl
@[simp] theorem drawn_serial : (drawn s).serial = s.serial := rfl
@[simp] theorem drawn_time : (drawn s).time = s.time := rfl
@[simp] theorem drawn_pending : (drawn s).pending = s.pending := rfl

/-! ### logAdd -/

@[simp] theorem logAdd_chip (r : LogRec) : (logAdd s r).chip = s.chip := rfl
@[simp] theorem logAdd_media (r : LogRec) : (logAdd s r).media = s.media := rfl
@[simp] theorem logAdd_tabs (r : LogRec) : (logAdd s r).tabs = s.tabs := rfl
@[simp] theorem logAdd_glades (r : LogRec) : (logAdd s r).glades = s.glades := rfl
@[simp] theorem logAdd_regs (r : LogRec) : (logAdd s r).regs = s.regs := rfl
@[simp] theorem logAdd_holds (r : LogRec) : (logAdd s r).holds = s.holds := rfl
@[simp] theorem logAdd_keys (r : LogRec) : (logAdd s r).keys = s.keys := rfl
@[simp] theorem logAdd_prot (r : LogRec) : (logAdd s r).prot = s.prot := rfl
@[simp] theorem logAdd_caddy (r : LogRec) : (logAdd s r).caddy = s.caddy := rfl
@[simp] theorem logAdd_side (r : LogRec) : (logAdd s r).side = s.side := rfl
@[simp] theorem logAdd_images (r : LogRec) : (logAdd s r).images = s.images := rfl
@[simp] theorem logAdd_idx (r : LogRec) : (logAdd s r).idx = s.idx := rfl
@[simp] theorem logAdd_reqs (r : LogRec) : (logAdd s r).reqs = s.reqs := rfl
@[simp] theorem logAdd_changes (r : LogRec) : (logAdd s r).changes = s.changes := rfl
@[simp] theorem logAdd_sched (r : LogRec) : (logAdd s r).sched = s.sched := rfl
@[simp] theorem logAdd_kt (r : LogRec) : (logAdd s r).kt = s.kt := rfl
@[simp] theorem logAdd_power (r : LogRec) : (logAdd s r).power = s.power := rfl
@[simp] theorem logAdd_grove (r : LogRec) : (logAdd s r).grove = s.grove := rfl
@[simp] theorem logAdd_pins (r : LogRec) : (logAdd s r).pins = s.pins := rfl
@[simp] theorem logAdd_rc (r : LogRec) : (logAdd s r).rc = s.rc := rfl
@[simp] theorem logAdd_bi (r : LogRec) : (logAdd s r).bi = s.bi := rfl
@[simp] theorem logAdd_tap (r : LogRec) : (logAdd s r).tap = s.tap := rfl
@[simp] theorem logAdd_under (r : LogRec) : (logAdd s r).under = s.under := rfl
@[simp] theorem logAdd_host (r : LogRec) : (logAdd s r).host = s.host := rfl
@[simp] theorem logAdd_flash (r : LogRec) : (logAdd s r).flash = s.flash := rfl
@[simp] theorem logAdd_serial (r : LogRec) : (logAdd s r).serial = s.serial := rfl
@[simp] theorem logAdd_time (r : LogRec) : (logAdd s r).time = s.time := rfl
@[simp] theorem logAdd_freeCount (r : LogRec) : (logAdd s r).freeCount = s.freeCount := rfl
@[simp] theorem logAdd_pending (r : LogRec) : (logAdd s r).pending = s.pending := rfl

/-! ### putDecisions -/

@[simp] theorem putDecisions_chip (l : List Decision) : (putDecisions s l).chip = s.chip := rfl
@[simp] theorem putDecisions_media (l : List Decision) : (putDecisions s l).media = s.media := rfl
@[simp] theorem putDecisions_log (l : List Decision) : (putDecisions s l).log = s.log := rfl
@[simp] theorem putDecisions_tabs (l : List Decision) : (putDecisions s l).tabs = s.tabs := rfl
@[simp] theorem putDecisions_glades (l : List Decision) : (putDecisions s l).glades = s.glades := rfl
@[simp] theorem putDecisions_regs (l : List Decision) : (putDecisions s l).regs = s.regs := rfl
@[simp] theorem putDecisions_holds (l : List Decision) : (putDecisions s l).holds = s.holds := rfl
@[simp] theorem putDecisions_keys (l : List Decision) : (putDecisions s l).keys = s.keys := rfl
@[simp] theorem putDecisions_prot (l : List Decision) : (putDecisions s l).prot = s.prot := rfl
@[simp] theorem putDecisions_caddy (l : List Decision) : (putDecisions s l).caddy = s.caddy := rfl
@[simp] theorem putDecisions_side (l : List Decision) : (putDecisions s l).side = s.side := rfl
@[simp] theorem putDecisions_images (l : List Decision) : (putDecisions s l).images = s.images := rfl
@[simp] theorem putDecisions_idx (l : List Decision) : (putDecisions s l).idx = s.idx := rfl
@[simp] theorem putDecisions_reqs (l : List Decision) : (putDecisions s l).reqs = s.reqs := rfl
@[simp] theorem putDecisions_changes (l : List Decision) : (putDecisions s l).changes = s.changes := rfl
@[simp] theorem putDecisions_sched (l : List Decision) : (putDecisions s l).sched = s.sched := rfl
@[simp] theorem putDecisions_power (l : List Decision) : (putDecisions s l).power = s.power := rfl
@[simp] theorem putDecisions_grove (l : List Decision) : (putDecisions s l).grove = s.grove := rfl
@[simp] theorem putDecisions_pins (l : List Decision) : (putDecisions s l).pins = s.pins := rfl
@[simp] theorem putDecisions_rc (l : List Decision) : (putDecisions s l).rc = s.rc := rfl
@[simp] theorem putDecisions_bi (l : List Decision) : (putDecisions s l).bi = s.bi := rfl
@[simp] theorem putDecisions_tap (l : List Decision) : (putDecisions s l).tap = s.tap := rfl
@[simp] theorem putDecisions_under (l : List Decision) : (putDecisions s l).under = s.under := rfl
@[simp] theorem putDecisions_host (l : List Decision) : (putDecisions s l).host = s.host := rfl
@[simp] theorem putDecisions_flash (l : List Decision) : (putDecisions s l).flash = s.flash := rfl
@[simp] theorem putDecisions_serial (l : List Decision) : (putDecisions s l).serial = s.serial := rfl
@[simp] theorem putDecisions_time (l : List Decision) : (putDecisions s l).time = s.time := rfl
@[simp] theorem putDecisions_freeCount (l : List Decision) : (putDecisions s l).freeCount = s.freeCount := rfl
@[simp] theorem putDecisions_pending (l : List Decision) : (putDecisions s l).pending = s.pending := rfl

/-! ### setPair -/

@[simp] theorem setPair_chip (n : Nat) (p : Pair) : (setPair s n p).chip = s.chip := rfl
@[simp] theorem setPair_media (n : Nat) (p : Pair) : (setPair s n p).media = s.media := rfl
@[simp] theorem setPair_log (n : Nat) (p : Pair) : (setPair s n p).log = s.log := rfl
@[simp] theorem setPair_tabs (n : Nat) (p : Pair) : (setPair s n p).tabs = s.tabs := rfl
@[simp] theorem setPair_glades (n : Nat) (p : Pair) : (setPair s n p).glades = s.glades := rfl
@[simp] theorem setPair_regs (n : Nat) (p : Pair) : (setPair s n p).regs = s.regs := rfl
@[simp] theorem setPair_holds (n : Nat) (p : Pair) : (setPair s n p).holds = s.holds := rfl
@[simp] theorem setPair_keys (n : Nat) (p : Pair) : (setPair s n p).keys = s.keys := rfl
@[simp] theorem setPair_prot (n : Nat) (p : Pair) : (setPair s n p).prot = s.prot := rfl
@[simp] theorem setPair_side (n : Nat) (p : Pair) : (setPair s n p).side = s.side := rfl
@[simp] theorem setPair_images (n : Nat) (p : Pair) : (setPair s n p).images = s.images := rfl
@[simp] theorem setPair_idx (n : Nat) (p : Pair) : (setPair s n p).idx = s.idx := rfl
@[simp] theorem setPair_reqs (n : Nat) (p : Pair) : (setPair s n p).reqs = s.reqs := rfl
@[simp] theorem setPair_changes (n : Nat) (p : Pair) : (setPair s n p).changes = s.changes := rfl
@[simp] theorem setPair_sched (n : Nat) (p : Pair) : (setPair s n p).sched = s.sched := rfl
@[simp] theorem setPair_kt (n : Nat) (p : Pair) : (setPair s n p).kt = s.kt := rfl
@[simp] theorem setPair_power (n : Nat) (p : Pair) : (setPair s n p).power = s.power := rfl
@[simp] theorem setPair_grove (n : Nat) (p : Pair) : (setPair s n p).grove = s.grove := rfl
@[simp] theorem setPair_pins (n : Nat) (p : Pair) : (setPair s n p).pins = s.pins := rfl
@[simp] theorem setPair_rc (n : Nat) (p : Pair) : (setPair s n p).rc = s.rc := rfl
@[simp] theorem setPair_bi (n : Nat) (p : Pair) : (setPair s n p).bi = s.bi := rfl
@[simp] theorem setPair_tap (n : Nat) (p : Pair) : (setPair s n p).tap = s.tap := rfl
@[simp] theorem setPair_under (n : Nat) (p : Pair) : (setPair s n p).under = s.under := rfl
@[simp] theorem setPair_host (n : Nat) (p : Pair) : (setPair s n p).host = s.host := rfl
@[simp] theorem setPair_flash (n : Nat) (p : Pair) : (setPair s n p).flash = s.flash := rfl
@[simp] theorem setPair_serial (n : Nat) (p : Pair) : (setPair s n p).serial = s.serial := rfl
@[simp] theorem setPair_time (n : Nat) (p : Pair) : (setPair s n p).time = s.time := rfl
@[simp] theorem setPair_freeCount (n : Nat) (p : Pair) : (setPair s n p).freeCount = s.freeCount := rfl
@[simp] theorem setPair_pending (n : Nat) (p : Pair) : (setPair s n p).pending = s.pending := rfl

/-! ### setFunc -/

@[simp] theorem setFunc_chip (f : Nat) (x : Func) : (setFunc s f x).chip = s.chip := rfl
@[simp] theorem setFunc_media (f : Nat) (x : Func) : (setFunc s f x).media = s.media := rfl
@[simp] theorem setFunc_log (f : Nat) (x : Func) : (setFunc s f x).log = s.log := rfl
@[simp] theorem setFunc_tabs (f : Nat) (x : Func) : (setFunc s f x).tabs = s.tabs := rfl
@[simp] theorem setFunc_glades (f : Nat) (x : Func) : (setFunc s f x).glades = s.glades := rfl
@[simp] theorem setFunc_regs (f : Nat) (x : Func) : (setFunc s f x).regs = s.regs := rfl
@[simp] theorem setFunc_holds (f : Nat) (x : Func) : (setFunc s f x).holds = s.holds := rfl
@[simp] theorem setFunc_keys (f : Nat) (x : Func) : (setFunc s f x).keys = s.keys := rfl
@[simp] theorem setFunc_prot (f : Nat) (x : Func) : (setFunc s f x).prot = s.prot := rfl
@[simp] theorem setFunc_side (f : Nat) (x : Func) : (setFunc s f x).side = s.side := rfl
@[simp] theorem setFunc_images (f : Nat) (x : Func) : (setFunc s f x).images = s.images := rfl
@[simp] theorem setFunc_idx (f : Nat) (x : Func) : (setFunc s f x).idx = s.idx := rfl
@[simp] theorem setFunc_reqs (f : Nat) (x : Func) : (setFunc s f x).reqs = s.reqs := rfl
@[simp] theorem setFunc_changes (f : Nat) (x : Func) : (setFunc s f x).changes = s.changes := rfl
@[simp] theorem setFunc_sched (f : Nat) (x : Func) : (setFunc s f x).sched = s.sched := rfl
@[simp] theorem setFunc_kt (f : Nat) (x : Func) : (setFunc s f x).kt = s.kt := rfl
@[simp] theorem setFunc_power (f : Nat) (x : Func) : (setFunc s f x).power = s.power := rfl
@[simp] theorem setFunc_grove (f : Nat) (x : Func) : (setFunc s f x).grove = s.grove := rfl
@[simp] theorem setFunc_pins (f : Nat) (x : Func) : (setFunc s f x).pins = s.pins := rfl
@[simp] theorem setFunc_rc (f : Nat) (x : Func) : (setFunc s f x).rc = s.rc := rfl
@[simp] theorem setFunc_bi (f : Nat) (x : Func) : (setFunc s f x).bi = s.bi := rfl
@[simp] theorem setFunc_tap (f : Nat) (x : Func) : (setFunc s f x).tap = s.tap := rfl
@[simp] theorem setFunc_under (f : Nat) (x : Func) : (setFunc s f x).under = s.under := rfl
@[simp] theorem setFunc_host (f : Nat) (x : Func) : (setFunc s f x).host = s.host := rfl
@[simp] theorem setFunc_flash (f : Nat) (x : Func) : (setFunc s f x).flash = s.flash := rfl
@[simp] theorem setFunc_serial (f : Nat) (x : Func) : (setFunc s f x).serial = s.serial := rfl
@[simp] theorem setFunc_time (f : Nat) (x : Func) : (setFunc s f x).time = s.time := rfl
@[simp] theorem setFunc_freeCount (f : Nat) (x : Func) : (setFunc s f x).freeCount = s.freeCount := rfl
@[simp] theorem setFunc_pending (f : Nat) (x : Func) : (setFunc s f x).pending = s.pending := rfl

/-! ### setVec -/

@[simp] theorem setVec_chip (f v : Nat) (x : Vec) : (setVec s f v x).chip = s.chip := rfl
@[simp] theorem setVec_media (f v : Nat) (x : Vec) : (setVec s f v x).media = s.media := rfl
@[simp] theorem setVec_log (f v : Nat) (x : Vec) : (setVec s f v x).log = s.log := rfl
@[simp] theorem setVec_tabs (f v : Nat) (x : Vec) : (setVec s f v x).tabs = s.tabs := rfl
@[simp] theorem setVec_glades (f v : Nat) (x : Vec) : (setVec s f v x).glades = s.glades := rfl
@[simp] theorem setVec_regs (f v : Nat) (x : Vec) : (setVec s f v x).regs = s.regs := rfl
@[simp] theorem setVec_holds (f v : Nat) (x : Vec) : (setVec s f v x).holds = s.holds := rfl
@[simp] theorem setVec_keys (f v : Nat) (x : Vec) : (setVec s f v x).keys = s.keys := rfl
@[simp] theorem setVec_prot (f v : Nat) (x : Vec) : (setVec s f v x).prot = s.prot := rfl
@[simp] theorem setVec_side (f v : Nat) (x : Vec) : (setVec s f v x).side = s.side := rfl
@[simp] theorem setVec_images (f v : Nat) (x : Vec) : (setVec s f v x).images = s.images := rfl
@[simp] theorem setVec_idx (f v : Nat) (x : Vec) : (setVec s f v x).idx = s.idx := rfl
@[simp] theorem setVec_reqs (f v : Nat) (x : Vec) : (setVec s f v x).reqs = s.reqs := rfl
@[simp] theorem setVec_changes (f v : Nat) (x : Vec) : (setVec s f v x).changes = s.changes := rfl
@[simp] theorem setVec_sched (f v : Nat) (x : Vec) : (setVec s f v x).sched = s.sched := rfl
@[simp] theorem setVec_kt (f v : Nat) (x : Vec) : (setVec s f v x).kt = s.kt := rfl
@[simp] theorem setVec_power (f v : Nat) (x : Vec) : (setVec s f v x).power = s.power := rfl
@[simp] theorem setVec_grove (f v : Nat) (x : Vec) : (setVec s f v x).grove = s.grove := rfl
@[simp] theorem setVec_pins (f v : Nat) (x : Vec) : (setVec s f v x).pins = s.pins := rfl
@[simp] theorem setVec_rc (f v : Nat) (x : Vec) : (setVec s f v x).rc = s.rc := rfl
@[simp] theorem setVec_bi (f v : Nat) (x : Vec) : (setVec s f v x).bi = s.bi := rfl
@[simp] theorem setVec_tap (f v : Nat) (x : Vec) : (setVec s f v x).tap = s.tap := rfl
@[simp] theorem setVec_under (f v : Nat) (x : Vec) : (setVec s f v x).under = s.under := rfl
@[simp] theorem setVec_host (f v : Nat) (x : Vec) : (setVec s f v x).host = s.host := rfl
@[simp] theorem setVec_flash (f v : Nat) (x : Vec) : (setVec s f v x).flash = s.flash := rfl
@[simp] theorem setVec_serial (f v : Nat) (x : Vec) : (setVec s f v x).serial = s.serial := rfl
@[simp] theorem setVec_time (f v : Nat) (x : Vec) : (setVec s f v x).time = s.time := rfl
@[simp] theorem setVec_freeCount (f v : Nat) (x : Vec) : (setVec s f v x).freeCount = s.freeCount := rfl
@[simp] theorem setVec_pending (f v : Nat) (x : Vec) : (setVec s f v x).pending = s.pending := rfl

/-! ### setChan -/

@[simp] theorem setChan_chip (c : Nat) (x : ChanState) : (setChan s c x).chip = s.chip := rfl
@[simp] theorem setChan_log (c : Nat) (x : ChanState) : (setChan s c x).log = s.log := rfl
@[simp] theorem setChan_tabs (c : Nat) (x : ChanState) : (setChan s c x).tabs = s.tabs := rfl
@[simp] theorem setChan_glades (c : Nat) (x : ChanState) : (setChan s c x).glades = s.glades := rfl
@[simp] theorem setChan_regs (c : Nat) (x : ChanState) : (setChan s c x).regs = s.regs := rfl
@[simp] theorem setChan_holds (c : Nat) (x : ChanState) : (setChan s c x).holds = s.holds := rfl
@[simp] theorem setChan_keys (c : Nat) (x : ChanState) : (setChan s c x).keys = s.keys := rfl
@[simp] theorem setChan_prot (c : Nat) (x : ChanState) : (setChan s c x).prot = s.prot := rfl
@[simp] theorem setChan_caddy (c : Nat) (x : ChanState) : (setChan s c x).caddy = s.caddy := rfl
@[simp] theorem setChan_side (c : Nat) (x : ChanState) : (setChan s c x).side = s.side := rfl
@[simp] theorem setChan_images (c : Nat) (x : ChanState) : (setChan s c x).images = s.images := rfl
@[simp] theorem setChan_idx (c : Nat) (x : ChanState) : (setChan s c x).idx = s.idx := rfl
@[simp] theorem setChan_reqs (c : Nat) (x : ChanState) : (setChan s c x).reqs = s.reqs := rfl
@[simp] theorem setChan_changes (c : Nat) (x : ChanState) : (setChan s c x).changes = s.changes := rfl
@[simp] theorem setChan_sched (c : Nat) (x : ChanState) : (setChan s c x).sched = s.sched := rfl
@[simp] theorem setChan_kt (c : Nat) (x : ChanState) : (setChan s c x).kt = s.kt := rfl
@[simp] theorem setChan_power (c : Nat) (x : ChanState) : (setChan s c x).power = s.power := rfl
@[simp] theorem setChan_grove (c : Nat) (x : ChanState) : (setChan s c x).grove = s.grove := rfl
@[simp] theorem setChan_pins (c : Nat) (x : ChanState) : (setChan s c x).pins = s.pins := rfl
@[simp] theorem setChan_rc (c : Nat) (x : ChanState) : (setChan s c x).rc = s.rc := rfl
@[simp] theorem setChan_bi (c : Nat) (x : ChanState) : (setChan s c x).bi = s.bi := rfl
@[simp] theorem setChan_tap (c : Nat) (x : ChanState) : (setChan s c x).tap = s.tap := rfl
@[simp] theorem setChan_under (c : Nat) (x : ChanState) : (setChan s c x).under = s.under := rfl
@[simp] theorem setChan_host (c : Nat) (x : ChanState) : (setChan s c x).host = s.host := rfl
@[simp] theorem setChan_flash (c : Nat) (x : ChanState) : (setChan s c x).flash = s.flash := rfl
@[simp] theorem setChan_serial (c : Nat) (x : ChanState) : (setChan s c x).serial = s.serial := rfl
@[simp] theorem setChan_time (c : Nat) (x : ChanState) : (setChan s c x).time = s.time := rfl
@[simp] theorem setChan_freeCount (c : Nat) (x : ChanState) : (setChan s c x).freeCount = s.freeCount := rfl
@[simp] theorem setChan_pending (c : Nat) (x : ChanState) : (setChan s c x).pending = s.pending := rfl

/-! ### setPort -/

@[simp] theorem setPort_chip (p : Nat) (x : Port) : (setPort s p x).chip = s.chip := rfl
@[simp] theorem setPort_media (p : Nat) (x : Port) : (setPort s p x).media = s.media := rfl
@[simp] theorem setPort_log (p : Nat) (x : Port) : (setPort s p x).log = s.log := rfl
@[simp] theorem setPort_tabs (p : Nat) (x : Port) : (setPort s p x).tabs = s.tabs := rfl
@[simp] theorem setPort_glades (p : Nat) (x : Port) : (setPort s p x).glades = s.glades := rfl
@[simp] theorem setPort_regs (p : Nat) (x : Port) : (setPort s p x).regs = s.regs := rfl
@[simp] theorem setPort_holds (p : Nat) (x : Port) : (setPort s p x).holds = s.holds := rfl
@[simp] theorem setPort_keys (p : Nat) (x : Port) : (setPort s p x).keys = s.keys := rfl
@[simp] theorem setPort_prot (p : Nat) (x : Port) : (setPort s p x).prot = s.prot := rfl
@[simp] theorem setPort_caddy (p : Nat) (x : Port) : (setPort s p x).caddy = s.caddy := rfl
@[simp] theorem setPort_side (p : Nat) (x : Port) : (setPort s p x).side = s.side := rfl
@[simp] theorem setPort_images (p : Nat) (x : Port) : (setPort s p x).images = s.images := rfl
@[simp] theorem setPort_idx (p : Nat) (x : Port) : (setPort s p x).idx = s.idx := rfl
@[simp] theorem setPort_reqs (p : Nat) (x : Port) : (setPort s p x).reqs = s.reqs := rfl
@[simp] theorem setPort_changes (p : Nat) (x : Port) : (setPort s p x).changes = s.changes := rfl
@[simp] theorem setPort_sched (p : Nat) (x : Port) : (setPort s p x).sched = s.sched := rfl
@[simp] theorem setPort_kt (p : Nat) (x : Port) : (setPort s p x).kt = s.kt := rfl
@[simp] theorem setPort_power (p : Nat) (x : Port) : (setPort s p x).power = s.power := rfl
@[simp] theorem setPort_pins (p : Nat) (x : Port) : (setPort s p x).pins = s.pins := rfl
@[simp] theorem setPort_rc (p : Nat) (x : Port) : (setPort s p x).rc = s.rc := rfl
@[simp] theorem setPort_bi (p : Nat) (x : Port) : (setPort s p x).bi = s.bi := rfl
@[simp] theorem setPort_tap (p : Nat) (x : Port) : (setPort s p x).tap = s.tap := rfl
@[simp] theorem setPort_under (p : Nat) (x : Port) : (setPort s p x).under = s.under := rfl
@[simp] theorem setPort_host (p : Nat) (x : Port) : (setPort s p x).host = s.host := rfl
@[simp] theorem setPort_flash (p : Nat) (x : Port) : (setPort s p x).flash = s.flash := rfl
@[simp] theorem setPort_serial (p : Nat) (x : Port) : (setPort s p x).serial = s.serial := rfl
@[simp] theorem setPort_time (p : Nat) (x : Port) : (setPort s p x).time = s.time := rfl
@[simp] theorem setPort_freeCount (p : Nat) (x : Port) : (setPort s p x).freeCount = s.freeCount := rfl
@[simp] theorem setPort_pending (p : Nat) (x : Port) : (setPort s p x).pending = s.pending := rfl

/-! ### putReq -/

@[simp] theorem putReq_chip (q : Req) : (putReq s q).chip = s.chip := rfl
@[simp] theorem putReq_media (q : Req) : (putReq s q).media = s.media := rfl
@[simp] theorem putReq_log (q : Req) : (putReq s q).log = s.log := rfl
@[simp] theorem putReq_tabs (q : Req) : (putReq s q).tabs = s.tabs := rfl
@[simp] theorem putReq_glades (q : Req) : (putReq s q).glades = s.glades := rfl
@[simp] theorem putReq_regs (q : Req) : (putReq s q).regs = s.regs := rfl
@[simp] theorem putReq_holds (q : Req) : (putReq s q).holds = s.holds := rfl
@[simp] theorem putReq_keys (q : Req) : (putReq s q).keys = s.keys := rfl
@[simp] theorem putReq_prot (q : Req) : (putReq s q).prot = s.prot := rfl
@[simp] theorem putReq_caddy (q : Req) : (putReq s q).caddy = s.caddy := rfl
@[simp] theorem putReq_side (q : Req) : (putReq s q).side = s.side := rfl
@[simp] theorem putReq_images (q : Req) : (putReq s q).images = s.images := rfl
@[simp] theorem putReq_idx (q : Req) : (putReq s q).idx = s.idx := rfl
@[simp] theorem putReq_changes (q : Req) : (putReq s q).changes = s.changes := rfl
@[simp] theorem putReq_sched (q : Req) : (putReq s q).sched = s.sched := rfl
@[simp] theorem putReq_kt (q : Req) : (putReq s q).kt = s.kt := rfl
@[simp] theorem putReq_power (q : Req) : (putReq s q).power = s.power := rfl
@[simp] theorem putReq_grove (q : Req) : (putReq s q).grove = s.grove := rfl
@[simp] theorem putReq_pins (q : Req) : (putReq s q).pins = s.pins := rfl
@[simp] theorem putReq_rc (q : Req) : (putReq s q).rc = s.rc := rfl
@[simp] theorem putReq_bi (q : Req) : (putReq s q).bi = s.bi := rfl
@[simp] theorem putReq_tap (q : Req) : (putReq s q).tap = s.tap := rfl
@[simp] theorem putReq_under (q : Req) : (putReq s q).under = s.under := rfl
@[simp] theorem putReq_host (q : Req) : (putReq s q).host = s.host := rfl
@[simp] theorem putReq_flash (q : Req) : (putReq s q).flash = s.flash := rfl
@[simp] theorem putReq_serial (q : Req) : (putReq s q).serial = s.serial := rfl
@[simp] theorem putReq_time (q : Req) : (putReq s q).time = s.time := rfl
@[simp] theorem putReq_freeCount (q : Req) : (putReq s q).freeCount = s.freeCount := rfl
@[simp] theorem putReq_pending (q : Req) : (putReq s q).pending = s.pending := rfl

/-! ### setJob -/

@[simp] theorem setJob_chip (q : Req) (j : Job) : (setJob s q j).chip = s.chip := rfl
@[simp] theorem setJob_media (q : Req) (j : Job) : (setJob s q j).media = s.media := rfl
@[simp] theorem setJob_log (q : Req) (j : Job) : (setJob s q j).log = s.log := rfl
@[simp] theorem setJob_tabs (q : Req) (j : Job) : (setJob s q j).tabs = s.tabs := rfl
@[simp] theorem setJob_glades (q : Req) (j : Job) : (setJob s q j).glades = s.glades := rfl
@[simp] theorem setJob_regs (q : Req) (j : Job) : (setJob s q j).regs = s.regs := rfl
@[simp] theorem setJob_holds (q : Req) (j : Job) : (setJob s q j).holds = s.holds := rfl
@[simp] theorem setJob_keys (q : Req) (j : Job) : (setJob s q j).keys = s.keys := rfl
@[simp] theorem setJob_prot (q : Req) (j : Job) : (setJob s q j).prot = s.prot := rfl
@[simp] theorem setJob_caddy (q : Req) (j : Job) : (setJob s q j).caddy = s.caddy := rfl
@[simp] theorem setJob_side (q : Req) (j : Job) : (setJob s q j).side = s.side := rfl
@[simp] theorem setJob_images (q : Req) (j : Job) : (setJob s q j).images = s.images := rfl
@[simp] theorem setJob_idx (q : Req) (j : Job) : (setJob s q j).idx = s.idx := rfl
@[simp] theorem setJob_changes (q : Req) (j : Job) : (setJob s q j).changes = s.changes := rfl
@[simp] theorem setJob_sched (q : Req) (j : Job) : (setJob s q j).sched = s.sched := rfl
@[simp] theorem setJob_kt (q : Req) (j : Job) : (setJob s q j).kt = s.kt := rfl
@[simp] theorem setJob_power (q : Req) (j : Job) : (setJob s q j).power = s.power := rfl
@[simp] theorem setJob_grove (q : Req) (j : Job) : (setJob s q j).grove = s.grove := rfl
@[simp] theorem setJob_pins (q : Req) (j : Job) : (setJob s q j).pins = s.pins := rfl
@[simp] theorem setJob_rc (q : Req) (j : Job) : (setJob s q j).rc = s.rc := rfl
@[simp] theorem setJob_bi (q : Req) (j : Job) : (setJob s q j).bi = s.bi := rfl
@[simp] theorem setJob_tap (q : Req) (j : Job) : (setJob s q j).tap = s.tap := rfl
@[simp] theorem setJob_under (q : Req) (j : Job) : (setJob s q j).under = s.under := rfl
@[simp] theorem setJob_host (q : Req) (j : Job) : (setJob s q j).host = s.host := rfl
@[simp] theorem setJob_flash (q : Req) (j : Job) : (setJob s q j).flash = s.flash := rfl
@[simp] theorem setJob_serial (q : Req) (j : Job) : (setJob s q j).serial = s.serial := rfl
@[simp] theorem setJob_time (q : Req) (j : Job) : (setJob s q j).time = s.time := rfl
@[simp] theorem setJob_freeCount (q : Req) (j : Job) : (setJob s q j).freeCount = s.freeCount := rfl
@[simp] theorem setJob_pending (q : Req) (j : Job) : (setJob s q j).pending = s.pending := rfl

/-! ### addChange -/

@[simp] theorem addChange_chip (c : Change) : (addChange s c).chip = s.chip := rfl
@[simp] theorem addChange_media (c : Change) : (addChange s c).media = s.media := rfl
@[simp] theorem addChange_log (c : Change) : (addChange s c).log = s.log := rfl
@[simp] theorem addChange_tabs (c : Change) : (addChange s c).tabs = s.tabs := rfl
@[simp] theorem addChange_glades (c : Change) : (addChange s c).glades = s.glades := rfl
@[simp] theorem addChange_regs (c : Change) : (addChange s c).regs = s.regs := rfl
@[simp] theorem addChange_holds (c : Change) : (addChange s c).holds = s.holds := rfl
@[simp] theorem addChange_keys (c : Change) : (addChange s c).keys = s.keys := rfl
@[simp] theorem addChange_prot (c : Change) : (addChange s c).prot = s.prot := rfl
@[simp] theorem addChange_caddy (c : Change) : (addChange s c).caddy = s.caddy := rfl
@[simp] theorem addChange_side (c : Change) : (addChange s c).side = s.side := rfl
@[simp] theorem addChange_images (c : Change) : (addChange s c).images = s.images := rfl
@[simp] theorem addChange_idx (c : Change) : (addChange s c).idx = s.idx := rfl
@[simp] theorem addChange_reqs (c : Change) : (addChange s c).reqs = s.reqs := rfl
@[simp] theorem addChange_sched (c : Change) : (addChange s c).sched = s.sched := rfl
@[simp] theorem addChange_kt (c : Change) : (addChange s c).kt = s.kt := rfl
@[simp] theorem addChange_power (c : Change) : (addChange s c).power = s.power := rfl
@[simp] theorem addChange_grove (c : Change) : (addChange s c).grove = s.grove := rfl
@[simp] theorem addChange_pins (c : Change) : (addChange s c).pins = s.pins := rfl
@[simp] theorem addChange_rc (c : Change) : (addChange s c).rc = s.rc := rfl
@[simp] theorem addChange_bi (c : Change) : (addChange s c).bi = s.bi := rfl
@[simp] theorem addChange_tap (c : Change) : (addChange s c).tap = s.tap := rfl
@[simp] theorem addChange_under (c : Change) : (addChange s c).under = s.under := rfl
@[simp] theorem addChange_host (c : Change) : (addChange s c).host = s.host := rfl
@[simp] theorem addChange_flash (c : Change) : (addChange s c).flash = s.flash := rfl
@[simp] theorem addChange_serial (c : Change) : (addChange s c).serial = s.serial := rfl
@[simp] theorem addChange_time (c : Change) : (addChange s c).time = s.time := rfl
@[simp] theorem addChange_freeCount (c : Change) : (addChange s c).freeCount = s.freeCount := rfl
@[simp] theorem addChange_pending (c : Change) : (addChange s c).pending = s.pending := rfl

/-! ### putIndex -/

@[simp] theorem putIndex_chip (i : Index) : (putIndex s i).chip = s.chip := rfl
@[simp] theorem putIndex_media (i : Index) : (putIndex s i).media = s.media := rfl
@[simp] theorem putIndex_log (i : Index) : (putIndex s i).log = s.log := rfl
@[simp] theorem putIndex_tabs (i : Index) : (putIndex s i).tabs = s.tabs := rfl
@[simp] theorem putIndex_glades (i : Index) : (putIndex s i).glades = s.glades := rfl
@[simp] theorem putIndex_regs (i : Index) : (putIndex s i).regs = s.regs := rfl
@[simp] theorem putIndex_holds (i : Index) : (putIndex s i).holds = s.holds := rfl
@[simp] theorem putIndex_keys (i : Index) : (putIndex s i).keys = s.keys := rfl
@[simp] theorem putIndex_prot (i : Index) : (putIndex s i).prot = s.prot := rfl
@[simp] theorem putIndex_caddy (i : Index) : (putIndex s i).caddy = s.caddy := rfl
@[simp] theorem putIndex_side (i : Index) : (putIndex s i).side = s.side := rfl
@[simp] theorem putIndex_images (i : Index) : (putIndex s i).images = s.images := rfl
@[simp] theorem putIndex_reqs (i : Index) : (putIndex s i).reqs = s.reqs := rfl
@[simp] theorem putIndex_changes (i : Index) : (putIndex s i).changes = s.changes := rfl
@[simp] theorem putIndex_sched (i : Index) : (putIndex s i).sched = s.sched := rfl
@[simp] theorem putIndex_kt (i : Index) : (putIndex s i).kt = s.kt := rfl
@[simp] theorem putIndex_power (i : Index) : (putIndex s i).power = s.power := rfl
@[simp] theorem putIndex_grove (i : Index) : (putIndex s i).grove = s.grove := rfl
@[simp] theorem putIndex_pins (i : Index) : (putIndex s i).pins = s.pins := rfl
@[simp] theorem putIndex_rc (i : Index) : (putIndex s i).rc = s.rc := rfl
@[simp] theorem putIndex_bi (i : Index) : (putIndex s i).bi = s.bi := rfl
@[simp] theorem putIndex_tap (i : Index) : (putIndex s i).tap = s.tap := rfl
@[simp] theorem putIndex_under (i : Index) : (putIndex s i).under = s.under := rfl
@[simp] theorem putIndex_host (i : Index) : (putIndex s i).host = s.host := rfl
@[simp] theorem putIndex_flash (i : Index) : (putIndex s i).flash = s.flash := rfl
@[simp] theorem putIndex_serial (i : Index) : (putIndex s i).serial = s.serial := rfl
@[simp] theorem putIndex_time (i : Index) : (putIndex s i).time = s.time := rfl
@[simp] theorem putIndex_freeCount (i : Index) : (putIndex s i).freeCount = s.freeCount := rfl
@[simp] theorem putIndex_pending (i : Index) : (putIndex s i).pending = s.pending := rfl

/-! ### dropKey -/

@[simp] theorem dropKey_chip (n : Nat) : (dropKey s n).chip = s.chip := rfl
@[simp] theorem dropKey_media (n : Nat) : (dropKey s n).media = s.media := rfl
@[simp] theorem dropKey_log (n : Nat) : (dropKey s n).log = s.log := rfl
@[simp] theorem dropKey_tabs (n : Nat) : (dropKey s n).tabs = s.tabs := rfl
@[simp] theorem dropKey_glades (n : Nat) : (dropKey s n).glades = s.glades := rfl
@[simp] theorem dropKey_regs (n : Nat) : (dropKey s n).regs = s.regs := rfl
@[simp] theorem dropKey_holds (n : Nat) : (dropKey s n).holds = s.holds := rfl
@[simp] theorem dropKey_prot (n : Nat) : (dropKey s n).prot = s.prot := rfl
@[simp] theorem dropKey_caddy (n : Nat) : (dropKey s n).caddy = s.caddy := rfl
@[simp] theorem dropKey_side (n : Nat) : (dropKey s n).side = s.side := rfl
@[simp] theorem dropKey_images (n : Nat) : (dropKey s n).images = s.images := rfl
@[simp] theorem dropKey_idx (n : Nat) : (dropKey s n).idx = s.idx := rfl
@[simp] theorem dropKey_reqs (n : Nat) : (dropKey s n).reqs = s.reqs := rfl
@[simp] theorem dropKey_changes (n : Nat) : (dropKey s n).changes = s.changes := rfl
@[simp] theorem dropKey_sched (n : Nat) : (dropKey s n).sched = s.sched := rfl
@[simp] theorem dropKey_kt (n : Nat) : (dropKey s n).kt = s.kt := rfl
@[simp] theorem dropKey_power (n : Nat) : (dropKey s n).power = s.power := rfl
@[simp] theorem dropKey_grove (n : Nat) : (dropKey s n).grove = s.grove := rfl
@[simp] theorem dropKey_pins (n : Nat) : (dropKey s n).pins = s.pins := rfl
@[simp] theorem dropKey_rc (n : Nat) : (dropKey s n).rc = s.rc := rfl
@[simp] theorem dropKey_bi (n : Nat) : (dropKey s n).bi = s.bi := rfl
@[simp] theorem dropKey_tap (n : Nat) : (dropKey s n).tap = s.tap := rfl
@[simp] theorem dropKey_under (n : Nat) : (dropKey s n).under = s.under := rfl
@[simp] theorem dropKey_host (n : Nat) : (dropKey s n).host = s.host := rfl
@[simp] theorem dropKey_flash (n : Nat) : (dropKey s n).flash = s.flash := rfl
@[simp] theorem dropKey_serial (n : Nat) : (dropKey s n).serial = s.serial := rfl
@[simp] theorem dropKey_time (n : Nat) : (dropKey s n).time = s.time := rfl
@[simp] theorem dropKey_freeCount (n : Nat) : (dropKey s n).freeCount = s.freeCount := rfl
@[simp] theorem dropKey_pending (n : Nat) : (dropKey s n).pending = s.pending := rfl

/-! ### putHot -/

@[simp] theorem putHot_chip (h : Nat) (e : Option HotRow) : (putHot s h e).chip = s.chip := rfl
@[simp] theorem putHot_media (h : Nat) (e : Option HotRow) : (putHot s h e).media = s.media := rfl
@[simp] theorem putHot_log (h : Nat) (e : Option HotRow) : (putHot s h e).log = s.log := rfl
@[simp] theorem putHot_glades (h : Nat) (e : Option HotRow) : (putHot s h e).glades = s.glades := rfl
@[simp] theorem putHot_regs (h : Nat) (e : Option HotRow) : (putHot s h e).regs = s.regs := rfl
@[simp] theorem putHot_holds (h : Nat) (e : Option HotRow) : (putHot s h e).holds = s.holds := rfl
@[simp] theorem putHot_keys (h : Nat) (e : Option HotRow) : (putHot s h e).keys = s.keys := rfl
@[simp] theorem putHot_prot (h : Nat) (e : Option HotRow) : (putHot s h e).prot = s.prot := rfl
@[simp] theorem putHot_caddy (h : Nat) (e : Option HotRow) : (putHot s h e).caddy = s.caddy := rfl
@[simp] theorem putHot_side (h : Nat) (e : Option HotRow) : (putHot s h e).side = s.side := rfl
@[simp] theorem putHot_images (h : Nat) (e : Option HotRow) : (putHot s h e).images = s.images := rfl
@[simp] theorem putHot_idx (h : Nat) (e : Option HotRow) : (putHot s h e).idx = s.idx := rfl
@[simp] theorem putHot_reqs (h : Nat) (e : Option HotRow) : (putHot s h e).reqs = s.reqs := rfl
@[simp] theorem putHot_changes (h : Nat) (e : Option HotRow) : (putHot s h e).changes = s.changes := rfl
@[simp] theorem putHot_sched (h : Nat) (e : Option HotRow) : (putHot s h e).sched = s.sched := rfl
@[simp] theorem putHot_kt (h : Nat) (e : Option HotRow) : (putHot s h e).kt = s.kt := rfl
@[simp] theorem putHot_power (h : Nat) (e : Option HotRow) : (putHot s h e).power = s.power := rfl
@[simp] theorem putHot_grove (h : Nat) (e : Option HotRow) : (putHot s h e).grove = s.grove := rfl
@[simp] theorem putHot_pins (h : Nat) (e : Option HotRow) : (putHot s h e).pins = s.pins := rfl
@[simp] theorem putHot_rc (h : Nat) (e : Option HotRow) : (putHot s h e).rc = s.rc := rfl
@[simp] theorem putHot_bi (h : Nat) (e : Option HotRow) : (putHot s h e).bi = s.bi := rfl
@[simp] theorem putHot_tap (h : Nat) (e : Option HotRow) : (putHot s h e).tap = s.tap := rfl
@[simp] theorem putHot_under (h : Nat) (e : Option HotRow) : (putHot s h e).under = s.under := rfl
@[simp] theorem putHot_host (h : Nat) (e : Option HotRow) : (putHot s h e).host = s.host := rfl
@[simp] theorem putHot_flash (h : Nat) (e : Option HotRow) : (putHot s h e).flash = s.flash := rfl
@[simp] theorem putHot_serial (h : Nat) (e : Option HotRow) : (putHot s h e).serial = s.serial := rfl
@[simp] theorem putHot_time (h : Nat) (e : Option HotRow) : (putHot s h e).time = s.time := rfl
@[simp] theorem putHot_freeCount (h : Nat) (e : Option HotRow) : (putHot s h e).freeCount = s.freeCount := rfl
@[simp] theorem putHot_pending (h : Nat) (e : Option HotRow) : (putHot s h e).pending = s.pending := rfl

/-! ### wake -/

@[simp] theorem wake_chip : (wake s).chip = s.chip := by unfold wake; split <;> rfl
@[simp] theorem wake_media : (wake s).media = s.media := by unfold wake; split <;> rfl
@[simp] theorem wake_log : (wake s).log = s.log := by unfold wake; split <;> rfl
@[simp] theorem wake_tabs : (wake s).tabs = s.tabs := by unfold wake; split <;> rfl
@[simp] theorem wake_glades : (wake s).glades = s.glades := by unfold wake; split <;> rfl
@[simp] theorem wake_regs : (wake s).regs = s.regs := by unfold wake; split <;> rfl
@[simp] theorem wake_holds : (wake s).holds = s.holds := by unfold wake; split <;> rfl
@[simp] theorem wake_keys : (wake s).keys = s.keys := by unfold wake; split <;> rfl
@[simp] theorem wake_prot : (wake s).prot = s.prot := by unfold wake; split <;> rfl
@[simp] theorem wake_caddy : (wake s).caddy = s.caddy := by unfold wake; split <;> rfl
@[simp] theorem wake_side : (wake s).side = s.side := by unfold wake; split <;> rfl
@[simp] theorem wake_images : (wake s).images = s.images := by unfold wake; split <;> rfl
@[simp] theorem wake_idx : (wake s).idx = s.idx := by unfold wake; split <;> rfl
@[simp] theorem wake_reqs : (wake s).reqs = s.reqs := by unfold wake; split <;> rfl
@[simp] theorem wake_changes : (wake s).changes = s.changes := by unfold wake; split <;> rfl
@[simp] theorem wake_kt : (wake s).kt = s.kt := by unfold wake; split <;> rfl
@[simp] theorem wake_grove : (wake s).grove = s.grove := by unfold wake; split <;> rfl
@[simp] theorem wake_pins : (wake s).pins = s.pins := by unfold wake; split <;> rfl
@[simp] theorem wake_rc : (wake s).rc = s.rc := by unfold wake; split <;> rfl
@[simp] theorem wake_bi : (wake s).bi = s.bi := by unfold wake; split <;> rfl
@[simp] theorem wake_tap : (wake s).tap = s.tap := by unfold wake; split <;> rfl
@[simp] theorem wake_under : (wake s).under = s.under := by unfold wake; split <;> rfl
@[simp] theorem wake_host : (wake s).host = s.host := by unfold wake; split <;> rfl
@[simp] theorem wake_flash : (wake s).flash = s.flash := by unfold wake; split <;> rfl
@[simp] theorem wake_serial : (wake s).serial = s.serial := by unfold wake; split <;> rfl
@[simp] theorem wake_time : (wake s).time = s.time := by unfold wake; split <;> rfl
@[simp] theorem wake_freeCount : (wake s).freeCount = s.freeCount := by unfold wake; split <;> rfl
@[simp] theorem wake_pending : (wake s).pending = s.pending := by unfold wake; split <;> rfl

/-! ### chargeTokens -/

@[simp] theorem chargeTokens_chip (set : Nat) (x : Resource) (n : Nat) (b : Bool) : (chargeTokens s set x n b).chip = s.chip := by unfold chargeTokens; split <;> rfl
@[simp] theorem chargeTokens_media (set : Nat) (x : Resource) (n : Nat) (b : Bool) : (chargeTokens s set x n b).media = s.media := by unfold chargeTokens; split <;> rfl
@[simp] theorem chargeTokens_log (set : Nat) (x : Resource) (n : Nat) (b : Bool) : (chargeTokens s set x n b).log = s.log := by unfold chargeTokens; split <;> rfl
@[simp] theorem chargeTokens_tabs (set : Nat) (x : Resource) (n : Nat) (b : Bool) : (chargeTokens s set x n b).tabs = s.tabs := by unfold chargeTokens; split <;> rfl
@[simp] theorem chargeTokens_glades (set : Nat) (x : Resource) (n : Nat) (b : Bool) : (chargeTokens s set x n b).glades = s.glades := by unfold chargeTokens; split <;> rfl
@[simp] theorem chargeTokens_holds (set : Nat) (x : Resource) (n : Nat) (b : Bool) : (chargeTokens s set x n b).holds = s.holds := by unfold chargeTokens; split <;> rfl
@[simp] theorem chargeTokens_keys (set : Nat) (x : Resource) (n : Nat) (b : Bool) : (chargeTokens s set x n b).keys = s.keys := by unfold chargeTokens; split <;> rfl
@[simp] theorem chargeTokens_prot (set : Nat) (x : Resource) (n : Nat) (b : Bool) : (chargeTokens s set x n b).prot = s.prot := by unfold chargeTokens; split <;> rfl
@[simp] theorem chargeTokens_caddy (set : Nat) (x : Resource) (n : Nat) (b : Bool) : (chargeTokens s set x n b).caddy = s.caddy := by unfold chargeTokens; split <;> rfl
@[simp] theorem chargeTokens_side (set : Nat) (x : Resource) (n : Nat) (b : Bool) : (chargeTokens s set x n b).side = s.side := by unfold chargeTokens; split <;> rfl
@[simp] theorem chargeTokens_images (set : Nat) (x : Resource) (n : Nat) (b : Bool) : (chargeTokens s set x n b).images = s.images := by unfold chargeTokens; split <;> rfl
@[simp] theorem chargeTokens_idx (set : Nat) (x : Resource) (n : Nat) (b : Bool) : (chargeTokens s set x n b).idx = s.idx := by unfold chargeTokens; split <;> rfl
@[simp] theorem chargeTokens_reqs (set : Nat) (x : Resource) (n : Nat) (b : Bool) : (chargeTokens s set x n b).reqs = s.reqs := by unfold chargeTokens; split <;> rfl
@[simp] theorem chargeTokens_changes (set : Nat) (x : Resource) (n : Nat) (b : Bool) : (chargeTokens s set x n b).changes = s.changes := by unfold chargeTokens; split <;> rfl
@[simp] theorem chargeTokens_sched (set : Nat) (x : Resource) (n : Nat) (b : Bool) : (chargeTokens s set x n b).sched = s.sched := by unfold chargeTokens; split <;> rfl
@[simp] theorem chargeTokens_kt (set : Nat) (x : Resource) (n : Nat) (b : Bool) : (chargeTokens s set x n b).kt = s.kt := by unfold chargeTokens; split <;> rfl
@[simp] theorem chargeTokens_power (set : Nat) (x : Resource) (n : Nat) (b : Bool) : (chargeTokens s set x n b).power = s.power := by unfold chargeTokens; split <;> rfl
@[simp] theorem chargeTokens_grove (set : Nat) (x : Resource) (n : Nat) (b : Bool) : (chargeTokens s set x n b).grove = s.grove := by unfold chargeTokens; split <;> rfl
@[simp] theorem chargeTokens_pins (set : Nat) (x : Resource) (n : Nat) (b : Bool) : (chargeTokens s set x n b).pins = s.pins := by unfold chargeTokens; split <;> rfl
@[simp] theorem chargeTokens_rc (set : Nat) (x : Resource) (n : Nat) (b : Bool) : (chargeTokens s set x n b).rc = s.rc := by unfold chargeTokens; split <;> rfl
@[simp] theorem chargeTokens_bi (set : Nat) (x : Resource) (n : Nat) (b : Bool) : (chargeTokens s set x n b).bi = s.bi := by unfold chargeTokens; split <;> rfl
@[simp] theorem chargeTokens_tap (set : Nat) (x : Resource) (n : Nat) (b : Bool) : (chargeTokens s set x n b).tap = s.tap := by unfold chargeTokens; split <;> rfl
@[simp] theorem chargeTokens_under (set : Nat) (x : Resource) (n : Nat) (b : Bool) : (chargeTokens s set x n b).under = s.under := by unfold chargeTokens; split <;> rfl
@[simp] theorem chargeTokens_host (set : Nat) (x : Resource) (n : Nat) (b : Bool) : (chargeTokens s set x n b).host = s.host := by unfold chargeTokens; split <;> rfl
@[simp] theorem chargeTokens_flash (set : Nat) (x : Resource) (n : Nat) (b : Bool) : (chargeTokens s set x n b).flash = s.flash := by unfold chargeTokens; split <;> rfl
@[simp] theorem chargeTokens_serial (set : Nat) (x : Resource) (n : Nat) (b : Bool) : (chargeTokens s set x n b).serial = s.serial := by unfold chargeTokens; split <;> rfl
@[simp] theorem chargeTokens_time (set : Nat) (x : Resource) (n : Nat) (b : Bool) : (chargeTokens s set x n b).time = s.time := by unfold chargeTokens; split <;> rfl
@[simp] theorem chargeTokens_freeCount (set : Nat) (x : Resource) (n : Nat) (b : Bool) : (chargeTokens s set x n b).freeCount = s.freeCount := by unfold chargeTokens; split <;> rfl
@[simp] theorem chargeTokens_pending (set : Nat) (x : Resource) (n : Nat) (b : Bool) : (chargeTokens s set x n b).pending = s.pending := by unfold chargeTokens; split <;> rfl

/-! ### holdTicket -/

@[simp] theorem holdTicket_chip (t : Ticket) : (holdTicket s t).chip = s.chip := by unfold holdTicket; split <;> rfl
@[simp] theorem holdTicket_media (t : Ticket) : (holdTicket s t).media = s.media := by unfold holdTicket; split <;> rfl
@[simp] theorem holdTicket_log (t : Ticket) : (holdTicket s t).log = s.log := by unfold holdTicket; split <;> rfl
@[simp] theorem holdTicket_tabs (t : Ticket) : (holdTicket s t).tabs = s.tabs := by unfold holdTicket; split <;> rfl
@[simp] theorem holdTicket_glades (t : Ticket) : (holdTicket s t).glades = s.glades := by unfold holdTicket; split <;> rfl
@[simp] theorem holdTicket_regs (t : Ticket) : (holdTicket s t).regs = s.regs := by unfold holdTicket; split <;> rfl
@[simp] theorem holdTicket_keys (t : Ticket) : (holdTicket s t).keys = s.keys := by unfold holdTicket; split <;> rfl
@[simp] theorem holdTicket_prot (t : Ticket) : (holdTicket s t).prot = s.prot := by unfold holdTicket; split <;> rfl
@[simp] theorem holdTicket_caddy (t : Ticket) : (holdTicket s t).caddy = s.caddy := by unfold holdTicket; split <;> rfl
@[simp] theorem holdTicket_side (t : Ticket) : (holdTicket s t).side = s.side := by unfold holdTicket; split <;> rfl
@[simp] theorem holdTicket_images (t : Ticket) : (holdTicket s t).images = s.images := by unfold holdTicket; split <;> rfl
@[simp] theorem holdTicket_idx (t : Ticket) : (holdTicket s t).idx = s.idx := by unfold holdTicket; split <;> rfl
@[simp] theorem holdTicket_reqs (t : Ticket) : (holdTicket s t).reqs = s.reqs := by unfold holdTicket; split <;> rfl
@[simp] theorem holdTicket_changes (t : Ticket) : (holdTicket s t).changes = s.changes := by unfold holdTicket; split <;> rfl
@[simp] theorem holdTicket_sched (t : Ticket) : (holdTicket s t).sched = s.sched := by unfold holdTicket; split <;> rfl
@[simp] theorem holdTicket_kt (t : Ticket) : (holdTicket s t).kt = s.kt := by unfold holdTicket; split <;> rfl
@[simp] theorem holdTicket_power (t : Ticket) : (holdTicket s t).power = s.power := by unfold holdTicket; split <;> rfl
@[simp] theorem holdTicket_grove (t : Ticket) : (holdTicket s t).grove = s.grove := by unfold holdTicket; split <;> rfl
@[simp] theorem holdTicket_pins (t : Ticket) : (holdTicket s t).pins = s.pins := by unfold holdTicket; split <;> rfl
@[simp] theorem holdTicket_rc (t : Ticket) : (holdTicket s t).rc = s.rc := by unfold holdTicket; split <;> rfl
@[simp] theorem holdTicket_bi (t : Ticket) : (holdTicket s t).bi = s.bi := by unfold holdTicket; split <;> rfl
@[simp] theorem holdTicket_tap (t : Ticket) : (holdTicket s t).tap = s.tap := by unfold holdTicket; split <;> rfl
@[simp] theorem holdTicket_under (t : Ticket) : (holdTicket s t).under = s.under := by unfold holdTicket; split <;> rfl
@[simp] theorem holdTicket_host (t : Ticket) : (holdTicket s t).host = s.host := by unfold holdTicket; split <;> rfl
@[simp] theorem holdTicket_flash (t : Ticket) : (holdTicket s t).flash = s.flash := by unfold holdTicket; split <;> rfl
@[simp] theorem holdTicket_serial (t : Ticket) : (holdTicket s t).serial = s.serial := by unfold holdTicket; split <;> rfl
@[simp] theorem holdTicket_time (t : Ticket) : (holdTicket s t).time = s.time := by unfold holdTicket; split <;> rfl
@[simp] theorem holdTicket_freeCount (t : Ticket) : (holdTicket s t).freeCount = s.freeCount := by unfold holdTicket; split <;> rfl
@[simp] theorem holdTicket_pending (t : Ticket) : (holdTicket s t).pending = s.pending := by unfold holdTicket; split <;> rfl

/-! ### pageOp -/

@[simp] theorem pageOp_chip : (pageOp s).chip = s.chip := by unfold pageOp; split <;> rfl
@[simp] theorem pageOp_media : (pageOp s).media = s.media := by unfold pageOp; split <;> rfl
@[simp] theorem pageOp_log : (pageOp s).log = s.log := by unfold pageOp; split <;> rfl
@[simp] theorem pageOp_tabs : (pageOp s).tabs = s.tabs := by unfold pageOp; split <;> rfl
@[simp] theorem pageOp_glades : (pageOp s).glades = s.glades := by unfold pageOp; split <;> rfl
@[simp] theorem pageOp_regs : (pageOp s).regs = s.regs := by unfold pageOp; split <;> rfl
@[simp] theorem pageOp_holds : (pageOp s).holds = s.holds := by unfold pageOp; split <;> rfl
@[simp] theorem pageOp_keys : (pageOp s).keys = s.keys := by unfold pageOp; split <;> rfl
@[simp] theorem pageOp_prot : (pageOp s).prot = s.prot := by unfold pageOp; split <;> rfl
@[simp] theorem pageOp_caddy : (pageOp s).caddy = s.caddy := by unfold pageOp; split <;> rfl
@[simp] theorem pageOp_side : (pageOp s).side = s.side := by unfold pageOp; split <;> rfl
@[simp] theorem pageOp_images : (pageOp s).images = s.images := by unfold pageOp; split <;> rfl
@[simp] theorem pageOp_idx : (pageOp s).idx = s.idx := by unfold pageOp; split <;> rfl
@[simp] theorem pageOp_reqs : (pageOp s).reqs = s.reqs := by unfold pageOp; split <;> rfl
@[simp] theorem pageOp_changes : (pageOp s).changes = s.changes := by unfold pageOp; split <;> rfl
@[simp] theorem pageOp_sched : (pageOp s).sched = s.sched := by unfold pageOp; split <;> rfl
@[simp] theorem pageOp_kt : (pageOp s).kt = s.kt := by unfold pageOp; split <;> rfl
@[simp] theorem pageOp_power : (pageOp s).power = s.power := by unfold pageOp; split <;> rfl
@[simp] theorem pageOp_grove : (pageOp s).grove = s.grove := by unfold pageOp; split <;> rfl
@[simp] theorem pageOp_rc : (pageOp s).rc = s.rc := by unfold pageOp; split <;> rfl
@[simp] theorem pageOp_bi : (pageOp s).bi = s.bi := by unfold pageOp; split <;> rfl
@[simp] theorem pageOp_tap : (pageOp s).tap = s.tap := by unfold pageOp; split <;> rfl
@[simp] theorem pageOp_under : (pageOp s).under = s.under := by unfold pageOp; split <;> rfl
@[simp] theorem pageOp_host : (pageOp s).host = s.host := by unfold pageOp; split <;> rfl
@[simp] theorem pageOp_flash : (pageOp s).flash = s.flash := by unfold pageOp; split <;> rfl
@[simp] theorem pageOp_serial : (pageOp s).serial = s.serial := by unfold pageOp; split <;> rfl
@[simp] theorem pageOp_time : (pageOp s).time = s.time := by unfold pageOp; split <;> rfl
@[simp] theorem pageOp_freeCount : (pageOp s).freeCount = s.freeCount := by unfold pageOp; split <;> rfl
@[simp] theorem pageOp_pending : (pageOp s).pending = s.pending := by unfold pageOp; split <;> rfl

/-! ### clearVerifies -/

@[simp] theorem clearVerifies_chip (j : Job) : (clearVerifies s j).chip = s.chip := by unfold clearVerifies; split <;> rfl
@[simp] theorem clearVerifies_media (j : Job) : (clearVerifies s j).media = s.media := by unfold clearVerifies; split <;> rfl
@[simp] theorem clearVerifies_log (j : Job) : (clearVerifies s j).log = s.log := by unfold clearVerifies; split <;> rfl
@[simp] theorem clearVerifies_tabs (j : Job) : (clearVerifies s j).tabs = s.tabs := by unfold clearVerifies; split <;> rfl
@[simp] theorem clearVerifies_glades (j : Job) : (clearVerifies s j).glades = s.glades := by unfold clearVerifies; split <;> rfl
@[simp] theorem clearVerifies_regs (j : Job) : (clearVerifies s j).regs = s.regs := by unfold clearVerifies; split <;> rfl
@[simp] theorem clearVerifies_holds (j : Job) : (clearVerifies s j).holds = s.holds := by unfold clearVerifies; split <;> rfl
@[simp] theorem clearVerifies_keys (j : Job) : (clearVerifies s j).keys = s.keys := by unfold clearVerifies; split <;> rfl
@[simp] theorem clearVerifies_prot (j : Job) : (clearVerifies s j).prot = s.prot := by unfold clearVerifies; split <;> rfl
@[simp] theorem clearVerifies_caddy (j : Job) : (clearVerifies s j).caddy = s.caddy := by unfold clearVerifies; split <;> rfl
@[simp] theorem clearVerifies_side (j : Job) : (clearVerifies s j).side = s.side := by unfold clearVerifies; split <;> rfl
@[simp] theorem clearVerifies_images (j : Job) : (clearVerifies s j).images = s.images := by unfold clearVerifies; split <;> rfl
@[simp] theorem clearVerifies_idx (j : Job) : (clearVerifies s j).idx = s.idx := by unfold clearVerifies; split <;> rfl
@[simp] theorem clearVerifies_reqs (j : Job) : (clearVerifies s j).reqs = s.reqs := by unfold clearVerifies; split <;> rfl
@[simp] theorem clearVerifies_changes (j : Job) : (clearVerifies s j).changes = s.changes := by unfold clearVerifies; split <;> rfl
@[simp] theorem clearVerifies_sched (j : Job) : (clearVerifies s j).sched = s.sched := by unfold clearVerifies; split <;> rfl
@[simp] theorem clearVerifies_kt (j : Job) : (clearVerifies s j).kt = s.kt := by unfold clearVerifies; split <;> rfl
@[simp] theorem clearVerifies_power (j : Job) : (clearVerifies s j).power = s.power := by unfold clearVerifies; split <;> rfl
@[simp] theorem clearVerifies_pins (j : Job) : (clearVerifies s j).pins = s.pins := by unfold clearVerifies; split <;> rfl
@[simp] theorem clearVerifies_rc (j : Job) : (clearVerifies s j).rc = s.rc := by unfold clearVerifies; split <;> rfl
@[simp] theorem clearVerifies_bi (j : Job) : (clearVerifies s j).bi = s.bi := by unfold clearVerifies; split <;> rfl
@[simp] theorem clearVerifies_tap (j : Job) : (clearVerifies s j).tap = s.tap := by unfold clearVerifies; split <;> rfl
@[simp] theorem clearVerifies_under (j : Job) : (clearVerifies s j).under = s.under := by unfold clearVerifies; split <;> rfl
@[simp] theorem clearVerifies_host (j : Job) : (clearVerifies s j).host = s.host := by unfold clearVerifies; split <;> rfl
@[simp] theorem clearVerifies_flash (j : Job) : (clearVerifies s j).flash = s.flash := by unfold clearVerifies; split <;> rfl
@[simp] theorem clearVerifies_serial (j : Job) : (clearVerifies s j).serial = s.serial := by unfold clearVerifies; split <;> rfl
@[simp] theorem clearVerifies_time (j : Job) : (clearVerifies s j).time = s.time := by unfold clearVerifies; split <;> rfl
@[simp] theorem clearVerifies_freeCount (j : Job) : (clearVerifies s j).freeCount = s.freeCount := by unfold clearVerifies; split <;> rfl
@[simp] theorem clearVerifies_pending (j : Job) : (clearVerifies s j).pending = s.pending := by unfold clearVerifies; split <;> rfl

/-! ### countVersion -/

@[simp] theorem countVersion_chip (t n : Nat) : (countVersion s t n).chip = s.chip := rfl
@[simp] theorem countVersion_media (t n : Nat) : (countVersion s t n).media = s.media := rfl
@[simp] theorem countVersion_log (t n : Nat) : (countVersion s t n).log = s.log := rfl
@[simp] theorem countVersion_glades (t n : Nat) : (countVersion s t n).glades = s.glades := rfl
@[simp] theorem countVersion_regs (t n : Nat) : (countVersion s t n).regs = s.regs := rfl
@[simp] theorem countVersion_holds (t n : Nat) : (countVersion s t n).holds = s.holds := rfl
@[simp] theorem countVersion_keys (t n : Nat) : (countVersion s t n).keys = s.keys := rfl
@[simp] theorem countVersion_prot (t n : Nat) : (countVersion s t n).prot = s.prot := rfl
@[simp] theorem countVersion_caddy (t n : Nat) : (countVersion s t n).caddy = s.caddy := rfl
@[simp] theorem countVersion_side (t n : Nat) : (countVersion s t n).side = s.side := rfl
@[simp] theorem countVersion_images (t n : Nat) : (countVersion s t n).images = s.images := rfl
@[simp] theorem countVersion_idx (t n : Nat) : (countVersion s t n).idx = s.idx := rfl
@[simp] theorem countVersion_reqs (t n : Nat) : (countVersion s t n).reqs = s.reqs := rfl
@[simp] theorem countVersion_changes (t n : Nat) : (countVersion s t n).changes = s.changes := rfl
@[simp] theorem countVersion_sched (t n : Nat) : (countVersion s t n).sched = s.sched := rfl
@[simp] theorem countVersion_kt (t n : Nat) : (countVersion s t n).kt = s.kt := rfl
@[simp] theorem countVersion_power (t n : Nat) : (countVersion s t n).power = s.power := rfl
@[simp] theorem countVersion_grove (t n : Nat) : (countVersion s t n).grove = s.grove := rfl
@[simp] theorem countVersion_pins (t n : Nat) : (countVersion s t n).pins = s.pins := rfl
@[simp] theorem countVersion_rc (t n : Nat) : (countVersion s t n).rc = s.rc := rfl
@[simp] theorem countVersion_bi (t n : Nat) : (countVersion s t n).bi = s.bi := rfl
@[simp] theorem countVersion_tap (t n : Nat) : (countVersion s t n).tap = s.tap := rfl
@[simp] theorem countVersion_under (t n : Nat) : (countVersion s t n).under = s.under := rfl
@[simp] theorem countVersion_host (t n : Nat) : (countVersion s t n).host = s.host := rfl
@[simp] theorem countVersion_flash (t n : Nat) : (countVersion s t n).flash = s.flash := rfl
@[simp] theorem countVersion_serial (t n : Nat) : (countVersion s t n).serial = s.serial := rfl
@[simp] theorem countVersion_time (t n : Nat) : (countVersion s t n).time = s.time := rfl
@[simp] theorem countVersion_freeCount (t n : Nat) : (countVersion s t n).freeCount = s.freeCount := rfl
@[simp] theorem countVersion_pending (t n : Nat) : (countVersion s t n).pending = s.pending := rfl

/-! ### putGlade -/

@[simp] theorem putGlade_chip (g : Nat) (x : Option GladeState) : (putGlade s g x).chip = s.chip := rfl
@[simp] theorem putGlade_media (g : Nat) (x : Option GladeState) : (putGlade s g x).media = s.media := rfl
@[simp] theorem putGlade_log (g : Nat) (x : Option GladeState) : (putGlade s g x).log = s.log := rfl
@[simp] theorem putGlade_tabs (g : Nat) (x : Option GladeState) : (putGlade s g x).tabs = s.tabs := rfl
@[simp] theorem putGlade_regs (g : Nat) (x : Option GladeState) : (putGlade s g x).regs = s.regs := rfl
@[simp] theorem putGlade_holds (g : Nat) (x : Option GladeState) : (putGlade s g x).holds = s.holds := rfl
@[simp] theorem putGlade_keys (g : Nat) (x : Option GladeState) : (putGlade s g x).keys = s.keys := rfl
@[simp] theorem putGlade_prot (g : Nat) (x : Option GladeState) : (putGlade s g x).prot = s.prot := rfl
@[simp] theorem putGlade_caddy (g : Nat) (x : Option GladeState) : (putGlade s g x).caddy = s.caddy := rfl
@[simp] theorem putGlade_side (g : Nat) (x : Option GladeState) : (putGlade s g x).side = s.side := rfl
@[simp] theorem putGlade_images (g : Nat) (x : Option GladeState) : (putGlade s g x).images = s.images := rfl
@[simp] theorem putGlade_idx (g : Nat) (x : Option GladeState) : (putGlade s g x).idx = s.idx := rfl
@[simp] theorem putGlade_reqs (g : Nat) (x : Option GladeState) : (putGlade s g x).reqs = s.reqs := rfl
@[simp] theorem putGlade_changes (g : Nat) (x : Option GladeState) : (putGlade s g x).changes = s.changes := rfl
@[simp] theorem putGlade_sched (g : Nat) (x : Option GladeState) : (putGlade s g x).sched = s.sched := rfl
@[simp] theorem putGlade_kt (g : Nat) (x : Option GladeState) : (putGlade s g x).kt = s.kt := rfl
@[simp] theorem putGlade_power (g : Nat) (x : Option GladeState) : (putGlade s g x).power = s.power := rfl
@[simp] theorem putGlade_grove (g : Nat) (x : Option GladeState) : (putGlade s g x).grove = s.grove := rfl
@[simp] theorem putGlade_pins (g : Nat) (x : Option GladeState) : (putGlade s g x).pins = s.pins := rfl
@[simp] theorem putGlade_rc (g : Nat) (x : Option GladeState) : (putGlade s g x).rc = s.rc := rfl
@[simp] theorem putGlade_bi (g : Nat) (x : Option GladeState) : (putGlade s g x).bi = s.bi := rfl
@[simp] theorem putGlade_tap (g : Nat) (x : Option GladeState) : (putGlade s g x).tap = s.tap := rfl
@[simp] theorem putGlade_under (g : Nat) (x : Option GladeState) : (putGlade s g x).under = s.under := rfl
@[simp] theorem putGlade_host (g : Nat) (x : Option GladeState) : (putGlade s g x).host = s.host := rfl
@[simp] theorem putGlade_flash (g : Nat) (x : Option GladeState) : (putGlade s g x).flash = s.flash := rfl
@[simp] theorem putGlade_serial (g : Nat) (x : Option GladeState) : (putGlade s g x).serial = s.serial := rfl
@[simp] theorem putGlade_time (g : Nat) (x : Option GladeState) : (putGlade s g x).time = s.time := rfl
@[simp] theorem putGlade_freeCount (g : Nat) (x : Option GladeState) : (putGlade s g x).freeCount = s.freeCount := rfl
@[simp] theorem putGlade_pending (g : Nat) (x : Option GladeState) : (putGlade s g x).pending = s.pending := rfl

/-! ### raiseAlert -/

@[simp] theorem raiseAlert_chip : (raiseAlert s).chip = s.chip := rfl
@[simp] theorem raiseAlert_media : (raiseAlert s).media = s.media := rfl
@[simp] theorem raiseAlert_log : (raiseAlert s).log = s.log := rfl
@[simp] theorem raiseAlert_tabs : (raiseAlert s).tabs = s.tabs := rfl
@[simp] theorem raiseAlert_glades : (raiseAlert s).glades = s.glades := rfl
@[simp] theorem raiseAlert_regs : (raiseAlert s).regs = s.regs := rfl
@[simp] theorem raiseAlert_holds : (raiseAlert s).holds = s.holds := rfl
@[simp] theorem raiseAlert_keys : (raiseAlert s).keys = s.keys := rfl
@[simp] theorem raiseAlert_prot : (raiseAlert s).prot = s.prot := rfl
@[simp] theorem raiseAlert_caddy : (raiseAlert s).caddy = s.caddy := rfl
@[simp] theorem raiseAlert_images : (raiseAlert s).images = s.images := rfl
@[simp] theorem raiseAlert_idx : (raiseAlert s).idx = s.idx := rfl
@[simp] theorem raiseAlert_reqs : (raiseAlert s).reqs = s.reqs := rfl
@[simp] theorem raiseAlert_changes : (raiseAlert s).changes = s.changes := rfl
@[simp] theorem raiseAlert_sched : (raiseAlert s).sched = s.sched := rfl
@[simp] theorem raiseAlert_kt : (raiseAlert s).kt = s.kt := rfl
@[simp] theorem raiseAlert_power : (raiseAlert s).power = s.power := rfl
@[simp] theorem raiseAlert_grove : (raiseAlert s).grove = s.grove := rfl
@[simp] theorem raiseAlert_pins : (raiseAlert s).pins = s.pins := rfl
@[simp] theorem raiseAlert_rc : (raiseAlert s).rc = s.rc := rfl
@[simp] theorem raiseAlert_bi : (raiseAlert s).bi = s.bi := rfl
@[simp] theorem raiseAlert_tap : (raiseAlert s).tap = s.tap := rfl
@[simp] theorem raiseAlert_under : (raiseAlert s).under = s.under := rfl
@[simp] theorem raiseAlert_host : (raiseAlert s).host = s.host := rfl
@[simp] theorem raiseAlert_flash : (raiseAlert s).flash = s.flash := rfl
@[simp] theorem raiseAlert_serial : (raiseAlert s).serial = s.serial := rfl
@[simp] theorem raiseAlert_time : (raiseAlert s).time = s.time := rfl
@[simp] theorem raiseAlert_freeCount : (raiseAlert s).freeCount = s.freeCount := rfl
@[simp] theorem raiseAlert_pending : (raiseAlert s).pending = s.pending := rfl

/-! ### Parts of the field that an update leaves alone -/

@[simp] theorem setTile_bytes (a : Nat) (d : BitVec 512) : (setTile s a d).media.bytes = s.media.bytes := rfl
@[simp] theorem setTile_channels (a : Nat) (d : BitVec 512) : (setTile s a d).media.channels = s.media.channels := rfl
@[simp] theorem setDevBytes_tiles (b : List Host.Cell) : (setDevBytes s b).media.tiles = s.media.tiles := rfl
@[simp] theorem setDevBytes_bytes (b : List Host.Cell) : (setDevBytes s b).media.bytes = b := rfl
@[simp] theorem setDevBytes_channels (b : List Host.Cell) : (setDevBytes s b).media.channels = s.media.channels := rfl
@[simp] theorem setChan_bytes (c : Nat) (x : ChanState) : (setChan s c x).media.bytes = s.media.bytes := rfl
@[simp] theorem setChan_tiles (c : Nat) (x : ChanState) : (setChan s c x).media.tiles = s.media.tiles := rfl
@[simp] theorem setCore_units (c : Nat) (k : Core) : (setCore s c k).chip.units = s.chip.units := rfl
@[simp] theorem setCore_links (c : Nat) (k : Core) : (setCore s c k).chip.links = s.chip.links := rfl
@[simp] theorem setCore_step (c : Nat) (k : Core) : (setCore s c k).chip.step = s.chip.step := rfl
@[simp] theorem setCore_clearings (c : Nat) (k : Core) : (setCore s c k).chip.clearings = s.chip.clearings := rfl
@[simp] theorem setPair_funcs (n : Nat) (p : Pair) : (setPair s n p).caddy.funcs = s.caddy.funcs := rfl
@[simp] theorem setPair_vecs (n : Nat) (p : Pair) : (setPair s n p).caddy.vecs = s.caddy.vecs := rfl
@[simp] theorem setFunc_pairs (f : Nat) (x : Func) : (setFunc s f x).caddy.pairs = s.caddy.pairs := rfl
@[simp] theorem setVec_pairs (f v : Nat) (x : Vec) : (setVec s f v x).caddy.pairs = s.caddy.pairs := rfl
@[simp] theorem addChange_changes (c : Change) : (addChange s c).changes = s.changes ++ [c] := rfl
@[simp] theorem drawn_freeCount : (drawn s).freeCount = s.freeCount + 1 := rfl
@[simp] theorem logAdd_next (r : LogRec) : (logAdd s r).log.next = s.log.next + 1 := rfl

end Sys2Proof.Machine
end

