-- ==== Sys2Proof/Laws/Shared.lean ====
section
/-!
SUPPORT. What the shared operations do, each said once: taking a message, completing a request, readiness and interrupts, telling the
members of a set, and cores at rest.
-/
namespace Sys2Proof.Machine

open Sys2Proof.Claims

/-! ### Requests by name -/

theorem reqOf_id (s : State) (r : ReqId) (q : Req) (h : reqOf s r = some q) : q.id = r := by
  have := List.find?_some h; simpa using this

/-- A request put back under its name is the one found there. -/
theorem reqOf_putReq (s : State) (r : ReqId) (q x : Req) (h : reqOf s r = some q) (hx : x.id = r) : reqOf (putReq s x) r = some x := by
  unfold reqOf putReq at *
  simp only at h ⊢
  generalize s.reqs = l at h ⊢
  induction l with
  | nil => simp at h
  | cons y t ih =>
    by_cases hy : y.id = r
    · simp [hy, hx]
    · have hy' : ¬ y.id = x.id := by rw [hx]; exact hy
      rw [List.find?_cons_of_neg (by simpa using hy)] at h
      rw [List.map_cons, List.find?_cons_of_neg (by simp [hy', hy])]
      exact ih h

theorem reqOf_setJob (s : State) (r : ReqId) (q : Req) (j : Job) (h : reqOf s r = some q) : reqOf (setJob s q j) r = some { q with job := j } :=
  reqOf_putReq s r q _ h (reqOf_id s r q h)

theorem heldIndex_handle (s : State) (n : Nat) (i : Index) (h : heldIndex s n = some i) : i.handle = n := by
  have := List.find?_some h; simpa using this

theorem heldIndex_putIndex_same (s : State) (n : Nat) (i j : Index) (h : heldIndex s n = some i) (hj : j.handle = n) :
    heldIndex (putIndex s j) n = some j := by
  unfold heldIndex putIndex at *
  simp only at h ⊢
  generalize s.idx.loaded = l at h ⊢
  induction l with
  | nil => simp at h
  | cons y t ih =>
    by_cases hy : y.handle = n
    · simp [hy, hj]
    · have hy' : ¬ y.handle = j.handle := by rw [hj]; exact hy
      rw [List.find?_cons_of_neg (by simpa using hy)] at h
      rw [List.map_cons, List.find?_cons_of_neg (by simp [hy', hy])]
      exact ih h

theorem heldIndex_putIndex_other (s : State) (n : Nat) (j : Index) (hj : j.handle ≠ n) : heldIndex (putIndex s j) n = heldIndex s n := by
  unfold heldIndex putIndex
  simp only
  induction s.idx.loaded with
  | nil => rfl
  | cons y t ih =>
    by_cases hy : y.handle = j.handle
    · have hn : ¬ y.handle = n := by rw [hy]; exact hj
      have hc : (if (y.handle == j.handle) = true then j else y) = j := if_pos (by simpa using hy)
      rw [List.map_cons, hc, List.find?_cons_of_neg (by simpa using hj), List.find?_cons_of_neg (by simpa using hn), ih]
    · by_cases hn : y.handle = n
      · have hc : (if (y.handle == j.handle) = true then j else y) = y := if_neg (by simpa using hy)
        rw [List.map_cons, hc, List.find?_cons_of_pos (by simpa using hn), List.find?_cons_of_pos (by simpa using hn)]
      · have hc : (if (y.handle == j.handle) = true then j else y) = y := if_neg (by simpa using hy)
        rw [List.map_cons, hc, List.find?_cons_of_neg (by simpa using hn), List.find?_cons_of_neg (by simpa using hn), ih]

/-! ### Messages (R389 to R391) -/

/-- A message whose entry is taken and that no case before its own checks decides goes on with them. -/
theorem message_taken (s : State) (h : MsgHead) (op : Nat) (rule : SessRule) (recOk : Bool) (go : State → Ctx → State) (s1 s2 : State)
    (pair head : Nat) (x : Session) (ht : takeEntry s h.func h.pair = some (s1, pair, head)) (hs : sealedStep (chargeBody s1 h) h = (s2, true))
    (hb : beforeChecks s s2 h op rule recOk true = .ok x) : message s h op rule recOk go = go s2 ⟨pair, head, x⟩ := by
  simp only [message, ht, hs, hb]

/-- A message with no entry to take does nothing. -/
theorem message_none (s : State) (h : MsgHead) (op : Nat) (rule : SessRule) (recOk : Bool) (go : State → Ctx → State)
    (ht : takeEntry s h.func h.pair = none) : message s h op rule recOk go = s := by
  simp only [message, ht]

/-- A subfunction in its form, of the right role, with its conditions met. -/
theorem configGo_ok (s : State) (h : MsgHead) (c : Ctx) (i : Instr) : configGo s h c i true true true
    = addChange (acceptReq s h c opConfig none none (.config i)) (.request ⟨h.func, h.rid⟩) := rfl

/-! ### Cores at rest -/

theorem coreMove_rest (s : State) (c : Nat) (h : (coreOf s c).run = none) : coreMove s c = none := by
  simp only [coreMove, h]

theorem pump_rest (n : Nat) (s : State) (c : Nat) (h : (coreOf s c).run = none) : pump n s c = s := by
  cases n with
  | zero => rfl
  | succ n => simp only [pump, coreMove_rest s c h]

theorem deliverCore_rest (s : State) (c : Nat) (h : (coreOf s c).flights = []) : deliverCore s c = (s, []) := by
  simp only [deliverCore, h, List.foldl_nil]

theorem goOn_rest (s : State) (c : Nat) (hr : (coreOf s c).run = none) (hf : (coreOf s c).flights = []) : goOn s c = s := by
  simp only [goOn, pump_rest _ s c hr, settleCasts, deliverCore_rest s c hf, List.foldl_nil]

/-- Updates that have asked for their locks ask no more. -/
theorem askLocks_asked (s : State) (h : locksAsked s) : askLocks s = s := by
  have hk : ∀ (l : List Apply), (∀ a ∈ l, a.asked = true) → l.foldl (fun s a =>
      if a.asked || gatherOn s a.table a.version then s
      else
        let s := { s with tabs := { s.tabs with applying := s.tabs.applying.map (fun b => if b.req == a.req then { b with asked := true } else b) } }
        match versionAt s a.table a.version with | some v => lockRows s v a.rows | none => s) s = s := by
    intro l
    induction l with
    | nil => intro _; rfl
    | cons a t ih =>
      intro hl
      rw [List.foldl_cons, if_pos (by simp [hl a List.mem_cons_self])]
      exact ih (fun b hb => hl b (List.mem_cons_of_mem a hb))
  exact hk s.tabs.applying h

/-- On a module at rest nothing goes on. -/
theorem goAll_rest (s : State) (c : Nat) (h : restAll s) : goAll s c = s := by
  have hk : ∀ (l : List Nat), l.foldl (fun s n => if n = c then s else goOn s n) s = s := by
    intro l
    induction l with
    | nil => rfl
    | cons n t ih => simp only [List.foldl_cons, goOn_rest s n (h.1 n).1 (h.1 n).2, ite_self, ih]
  simp only [goAll, goOn_rest s c (h.1 c).1 (h.1 c).2, hk, askLocks_asked s h.2]

theorem finishUnit_rest (s : State) (c : Nat) (h : (coreOf s c).run = none) : finishUnit s c = s := by
  simp only [finishUnit, h]

/-- No unit ends on a module at rest. -/
theorem finishAll_rest (s : State) (h : restAll s) : finishAll s = s := by
  unfold finishAll
  generalize s.chip.cores.map (·.1) = l
  induction l with
  | nil => rfl
  | cons n t ih => simp only [List.foldl_cons, finishUnit_rest s n (h.1 n).1, ih]

/-! ### Interrupts, readiness, records, frames: what they leave alone -/

@[simp] theorem raiseVec_chip (s : State) (f v : Nat) : (raiseVec s f v).chip = s.chip := by unfold raiseVec; split <;> rfl
@[simp] theorem raiseVec_media (s : State) (f v : Nat) : (raiseVec s f v).media = s.media := by unfold raiseVec; split <;> rfl
@[simp] theorem raiseVec_log (s : State) (f v : Nat) : (raiseVec s f v).log = s.log := by unfold raiseVec; split <;> rfl
@[simp] theorem raiseVec_tabs (s : State) (f v : Nat) : (raiseVec s f v).tabs = s.tabs := by unfold raiseVec; split <;> rfl
@[simp] theorem raiseVec_glades (s : State) (f v : Nat) : (raiseVec s f v).glades = s.glades := by unfold raiseVec; split <;> rfl
@[simp] theorem raiseVec_regs (s : State) (f v : Nat) : (raiseVec s f v).regs = s.regs := by unfold raiseVec; split <;> rfl
@[simp] theorem raiseVec_holds (s : State) (f v : Nat) : (raiseVec s f v).holds = s.holds := by unfold raiseVec; split <;> rfl
@[simp] theorem raiseVec_keys (s : State) (f v : Nat) : (raiseVec s f v).keys = s.keys := by unfold raiseVec; split <;> rfl
@[simp] theorem raiseVec_prot (s : State) (f v : Nat) : (raiseVec s f v).prot = s.prot := by unfold raiseVec; split <;> rfl
@[simp] theorem raiseVec_side (s : State) (f v : Nat) : (raiseVec s f v).side = s.side := by unfold raiseVec; split <;> rfl
@[simp] theorem raiseVec_images (s : State) (f v : Nat) : (raiseVec s f v).images = s.images := by unfold raiseVec; split <;> rfl
@[simp] theorem raiseVec_idx (s : State) (f v : Nat) : (raiseVec s f v).idx = s.idx := by unfold raiseVec; split <;> rfl
@[simp] theorem raiseVec_reqs (s : State) (f v : Nat) : (raiseVec s f v).reqs = s.reqs := by unfold raiseVec; split <;> rfl
@[simp] theorem raiseVec_changes (s : State) (f v : Nat) : (raiseVec s f v).changes = s.changes := by unfold raiseVec; split <;> rfl
@[simp] theorem raiseVec_sched (s : State) (f v : Nat) : (raiseVec s f v).sched = s.sched := by unfold raiseVec; split <;> rfl
@[simp] theorem raiseVec_kt (s : State) (f v : Nat) : (raiseVec s f v).kt = s.kt := by unfold raiseVec; split <;> rfl
@[simp] theorem raiseVec_power (s : State) (f v : Nat) : (raiseVec s f v).power = s.power := by unfold raiseVec; split <;> rfl
@[simp] theorem raiseVec_grove (s : State) (f v : Nat) : (raiseVec s f v).grove = s.grove := by unfold raiseVec; split <;> rfl
@[simp] theorem raiseVec_pins (s : State) (f v : Nat) : (raiseVec s f v).pins = s.pins := by unfold raiseVec; split <;> rfl
@[simp] theorem raiseVec_rc (s : State) (f v : Nat) : (raiseVec s f v).rc = s.rc := by unfold raiseVec; split <;> rfl
@[simp] theorem raiseVec_bi (s : State) (f v : Nat) : (raiseVec s f v).bi = s.bi := by unfold raiseVec; split <;> rfl
@[simp] theorem raiseVec_tap (s : State) (f v : Nat) : (raiseVec s f v).tap = s.tap := by unfold raiseVec; split <;> rfl
@[simp] theorem raiseVec_under (s : State) (f v : Nat) : (raiseVec s f v).under = s.under := by unfold raiseVec; split <;> rfl
@[simp] theorem raiseVec_flash (s : State) (f v : Nat) : (raiseVec s f v).flash = s.flash := by unfold raiseVec; split <;> rfl
@[simp] theorem raiseVec_serial (s : State) (f v : Nat) : (raiseVec s f v).serial = s.serial := by unfold raiseVec; split <;> rfl
@[simp] theorem raiseVec_time (s : State) (f v : Nat) : (raiseVec s f v).time = s.time := by unfold raiseVec; split <;> rfl
@[simp] theorem raiseVec_freeCount (s : State) (f v : Nat) : (raiseVec s f v).freeCount = s.freeCount := by unfold raiseVec; split <;> rfl
@[simp] theorem raiseVec_pending (s : State) (f v : Nat) : (raiseVec s f v).pending = s.pending := by unfold raiseVec; split <;> rfl

@[simp] theorem raiseEvent_chip (s : State) (f : Nat) : (raiseEvent s f).chip = s.chip := by unfold raiseEvent; split <;> simp
@[simp] theorem raiseEvent_media (s : State) (f : Nat) : (raiseEvent s f).media = s.media := by unfold raiseEvent; split <;> simp
@[simp] theorem raiseEvent_log (s : State) (f : Nat) : (raiseEvent s f).log = s.log := by unfold raiseEvent; split <;> simp
@[simp] theorem raiseEvent_tabs (s : State) (f : Nat) : (raiseEvent s f).tabs = s.tabs := by unfold raiseEvent; split <;> simp
@[simp] theorem raiseEvent_glades (s : State) (f : Nat) : (raiseEvent s f).glades = s.glades := by unfold raiseEvent; split <;> simp
@[simp] theorem raiseEvent_regs (s : State) (f : Nat) : (raiseEvent s f).regs = s.regs := by unfold raiseEvent; split <;> simp
@[simp] theorem raiseEvent_holds (s : State) (f : Nat) : (raiseEvent s f).holds = s.holds := by unfold raiseEvent; split <;> simp
@[simp] theorem raiseEvent_keys (s : State) (f : Nat) : (raiseEvent s f).keys = s.keys := by unfold raiseEvent; split <;> simp
@[simp] theorem raiseEvent_prot (s : State) (f : Nat) : (raiseEvent s f).prot = s.prot := by unfold raiseEvent; split <;> simp
@[simp] theorem raiseEvent_side (s : State) (f : Nat) : (raiseEvent s f).side = s.side := by unfold raiseEvent; split <;> simp
@[simp] theorem raiseEvent_images (s : State) (f : Nat) : (raiseEvent s f).images = s.images := by unfold raiseEvent; split <;> simp
@[simp] theorem raiseEvent_idx (s : State) (f : Nat) : (raiseEvent s f).idx = s.idx := by unfold raiseEvent; split <;> simp
@[simp] theorem raiseEvent_reqs (s : State) (f : Nat) : (raiseEvent s f).reqs = s.reqs := by unfold raiseEvent; split <;> simp
@[simp] theorem raiseEvent_changes (s : State) (f : Nat) : (raiseEvent s f).changes = s.changes := by unfold raiseEvent; split <;> simp
@[simp] theorem raiseEvent_sched (s : State) (f : Nat) : (raiseEvent s f).sched = s.sched := by unfold raiseEvent; split <;> simp
@[simp] theorem raiseEvent_kt (s : State) (f : Nat) : (raiseEvent s f).kt = s.kt := by unfold raiseEvent; split <;> simp
@[simp] theorem raiseEvent_power (s : State) (f : Nat) : (raiseEvent s f).power = s.power := by unfold raiseEvent; split <;> simp
@[simp] theorem raiseEvent_grove (s : State) (f : Nat) : (raiseEvent s f).grove = s.grove := by unfold raiseEvent; split <;> simp
@[simp] theorem raiseEvent_pins (s : State) (f : Nat) : (raiseEvent s f).pins = s.pins := by unfold raiseEvent; split <;> simp
@[simp] theorem raiseEvent_rc (s : State) (f : Nat) : (raiseEvent s f).rc = s.rc := by unfold raiseEvent; split <;> simp
@[simp] theorem raiseEvent_bi (s : State) (f : Nat) : (raiseEvent s f).bi = s.bi := by unfold raiseEvent; split <;> simp
@[simp] theorem raiseEvent_tap (s : State) (f : Nat) : (raiseEvent s f).tap = s.tap := by unfold raiseEvent; split <;> simp
@[simp] theorem raiseEvent_under (s : State) (f : Nat) : (raiseEvent s f).under = s.under := by unfold raiseEvent; split <;> simp
@[simp] theorem raiseEvent_flash (s : State) (f : Nat) : (raiseEvent s f).flash = s.flash := by unfold raiseEvent; split <;> simp
@[simp] theorem raiseEvent_serial (s : State) (f : Nat) : (raiseEvent s f).serial = s.serial := by unfold raiseEvent; split <;> simp
@[simp] theorem raiseEvent_time (s : State) (f : Nat) : (raiseEvent s f).time = s.time := by unfold raiseEvent; split <;> simp
@[simp] theorem raiseEvent_freeCount (s : State) (f : Nat) : (raiseEvent s f).freeCount = s.freeCount := by unfold raiseEvent; split <;> simp
@[simp] theorem raiseEvent_pending (s : State) (f : Nat) : (raiseEvent s f).pending = s.pending := by unfold raiseEvent; split <;> simp

@[simp] theorem setReadyWord_chip (s : State) (w : W64) : (setReadyWord s w).chip = s.chip := by unfold setReadyWord; split <;> simp [List.range, List.range.loop]
@[simp] theorem setReadyWord_media (s : State) (w : W64) : (setReadyWord s w).media = s.media := by unfold setReadyWord; split <;> simp [List.range, List.range.loop]
@[simp] theorem setReadyWord_log (s : State) (w : W64) : (setReadyWord s w).log = s.log := by unfold setReadyWord; split <;> simp [List.range, List.range.loop]
@[simp] theorem setReadyWord_tabs (s : State) (w : W64) : (setReadyWord s w).tabs = s.tabs := by unfold setReadyWord; split <;> simp [List.range, List.range.loop]
@[simp] theorem setReadyWord_glades (s : State) (w : W64) : (setReadyWord s w).glades = s.glades := by unfold setReadyWord; split <;> simp [List.range, List.range.loop]
@[simp] theorem setReadyWord_regs (s : State) (w : W64) : (setReadyWord s w).regs = s.regs := by unfold setReadyWord; split <;> simp [List.range, List.range.loop]
@[simp] theorem setReadyWord_holds (s : State) (w : W64) : (setReadyWord s w).holds = s.holds := by unfold setReadyWord; split <;> simp [List.range, List.range.loop]
@[simp] theorem setReadyWord_keys (s : State) (w : W64) : (setReadyWord s w).keys = s.keys := by unfold setReadyWord; split <;> simp [List.range, List.range.loop]
@[simp] theorem setReadyWord_prot (s : State) (w : W64) : (setReadyWord s w).prot = s.prot := by unfold setReadyWord; split <;> simp [List.range, List.range.loop]
@[simp] theorem setReadyWord_images (s : State) (w : W64) : (setReadyWord s w).images = s.images := by unfold setReadyWord; split <;> simp [List.range, List.range.loop]
@[simp] theorem setReadyWord_idx (s : State) (w : W64) : (setReadyWord s w).idx = s.idx := by unfold setReadyWord; split <;> simp [List.range, List.range.loop]
@[simp] theorem setReadyWord_reqs (s : State) (w : W64) : (setReadyWord s w).reqs = s.reqs := by unfold setReadyWord; split <;> simp [List.range, List.range.loop]
@[simp] theorem setReadyWord_changes (s : State) (w : W64) : (setReadyWord s w).changes = s.changes := by unfold setReadyWord; split <;> simp [List.range, List.range.loop]
@[simp] theorem setReadyWord_sched (s : State) (w : W64) : (setReadyWord s w).sched = s.sched := by unfold setReadyWord; split <;> simp [List.range, List.range.loop]
@[simp] theorem setReadyWord_power (s : State) (w : W64) : (setReadyWord s w).power = s.power := by unfold setReadyWord; split <;> simp [List.range, List.range.loop]
@[simp] theorem setReadyWord_grove (s : State) (w : W64) : (setReadyWord s w).grove = s.grove := by unfold setReadyWord; split <;> simp [List.range, List.range.loop]
@[simp] theorem setReadyWord_pins (s : State) (w : W64) : (setReadyWord s w).pins = s.pins := by unfold setReadyWord; split <;> simp [List.range, List.range.loop]
@[simp] theorem setReadyWord_rc (s : State) (w : W64) : (setReadyWord s w).rc = s.rc := by unfold setReadyWord; split <;> simp [List.range, List.range.loop]
@[simp] theorem setReadyWord_bi (s : State) (w : W64) : (setReadyWord s w).bi = s.bi := by unfold setReadyWord; split <;> simp [List.range, List.range.loop]
@[simp] theorem setReadyWord_tap (s : State) (w : W64) : (setReadyWord s w).tap = s.tap := by unfold setReadyWord; split <;> simp [List.range, List.range.loop]
@[simp] theorem setReadyWord_under (s : State) (w : W64) : (setReadyWord s w).under = s.under := by unfold setReadyWord; split <;> simp [List.range, List.range.loop]
@[simp] theorem setReadyWord_flash (s : State) (w : W64) : (setReadyWord s w).flash = s.flash := by unfold setReadyWord; split <;> simp [List.range, List.range.loop]
@[simp] theorem setReadyWord_serial (s : State) (w : W64) : (setReadyWord s w).serial = s.serial := by unfold setReadyWord; split <;> simp [List.range, List.range.loop]
@[simp] theorem setReadyWord_time (s : State) (w : W64) : (setReadyWord s w).time = s.time := by unfold setReadyWord; split <;> simp [List.range, List.range.loop]
@[simp] theorem setReadyWord_freeCount (s : State) (w : W64) : (setReadyWord s w).freeCount = s.freeCount := by unfold setReadyWord; split <;> simp [List.range, List.range.loop]
@[simp] theorem setReadyWord_pending (s : State) (w : W64) : (setReadyWord s w).pending = s.pending := by unfold setReadyWord; split <;> simp [List.range, List.range.loop]

@[simp] theorem setReady_chip (s : State) (i : Nat) (v : Bool) : (setReady s i v).chip = s.chip := by unfold setReady; simp
@[simp] theorem setReady_media (s : State) (i : Nat) (v : Bool) : (setReady s i v).media = s.media := by unfold setReady; simp
@[simp] theorem setReady_log (s : State) (i : Nat) (v : Bool) : (setReady s i v).log = s.log := by unfold setReady; simp
@[simp] theorem setReady_tabs (s : State) (i : Nat) (v : Bool) : (setReady s i v).tabs = s.tabs := by unfold setReady; simp
@[simp] theorem setReady_glades (s : State) (i : Nat) (v : Bool) : (setReady s i v).glades = s.glades := by unfold setReady; simp
@[simp] theorem setReady_regs (s : State) (i : Nat) (v : Bool) : (setReady s i v).regs = s.regs := by unfold setReady; simp
@[simp] theorem setReady_holds (s : State) (i : Nat) (v : Bool) : (setReady s i v).holds = s.holds := by unfold setReady; simp
@[simp] theorem setReady_keys (s : State) (i : Nat) (v : Bool) : (setReady s i v).keys = s.keys := by unfold setReady; simp
@[simp] theorem setReady_prot (s : State) (i : Nat) (v : Bool) : (setReady s i v).prot = s.prot := by unfold setReady; simp
@[simp] theorem setReady_images (s : State) (i : Nat) (v : Bool) : (setReady s i v).images = s.images := by unfold setReady; simp
@[simp] theorem setReady_idx (s : State) (i : Nat) (v : Bool) : (setReady s i v).idx = s.idx := by unfold setReady; simp
@[simp] theorem setReady_reqs (s : State) (i : Nat) (v : Bool) : (setReady s i v).reqs = s.reqs := by unfold setReady; simp
@[simp] theorem setReady_changes (s : State) (i : Nat) (v : Bool) : (setReady s i v).changes = s.changes := by unfold setReady; simp
@[simp] theorem setReady_sched (s : State) (i : Nat) (v : Bool) : (setReady s i v).sched = s.sched := by unfold setReady; simp
@[simp] theorem setReady_power (s : State) (i : Nat) (v : Bool) : (setReady s i v).power = s.power := by unfold setReady; simp
@[simp] theorem setReady_grove (s : State) (i : Nat) (v : Bool) : (setReady s i v).grove = s.grove := by unfold setReady; simp
@[simp] theorem setReady_pins (s : State) (i : Nat) (v : Bool) : (setReady s i v).pins = s.pins := by unfold setReady; simp
@[simp] theorem setReady_rc (s : State) (i : Nat) (v : Bool) : (setReady s i v).rc = s.rc := by unfold setReady; simp
@[simp] theorem setReady_bi (s : State) (i : Nat) (v : Bool) : (setReady s i v).bi = s.bi := by unfold setReady; simp
@[simp] theorem setReady_tap (s : State) (i : Nat) (v : Bool) : (setReady s i v).tap = s.tap := by unfold setReady; simp
@[simp] theorem setReady_under (s : State) (i : Nat) (v : Bool) : (setReady s i v).under = s.under := by unfold setReady; simp
@[simp] theorem setReady_flash (s : State) (i : Nat) (v : Bool) : (setReady s i v).flash = s.flash := by unfold setReady; simp
@[simp] theorem setReady_serial (s : State) (i : Nat) (v : Bool) : (setReady s i v).serial = s.serial := by unfold setReady; simp
@[simp] theorem setReady_time (s : State) (i : Nat) (v : Bool) : (setReady s i v).time = s.time := by unfold setReady; simp
@[simp] theorem setReady_freeCount (s : State) (i : Nat) (v : Bool) : (setReady s i v).freeCount = s.freeCount := by unfold setReady; simp
@[simp] theorem setReady_pending (s : State) (i : Nat) (v : Bool) : (setReady s i v).pending = s.pending := by unfold setReady; simp

@[simp] theorem writeRecord_chip (s : State) (n : Nat) (c : Completion) : (writeRecord s n c).chip = s.chip := rfl
@[simp] theorem writeRecord_media (s : State) (n : Nat) (c : Completion) : (writeRecord s n c).media = s.media := rfl
@[simp] theorem writeRecord_log (s : State) (n : Nat) (c : Completion) : (writeRecord s n c).log = s.log := rfl
@[simp] theorem writeRecord_tabs (s : State) (n : Nat) (c : Completion) : (writeRecord s n c).tabs = s.tabs := rfl
@[simp] theorem writeRecord_glades (s : State) (n : Nat) (c : Completion) : (writeRecord s n c).glades = s.glades := rfl
@[simp] theorem writeRecord_regs (s : State) (n : Nat) (c : Completion) : (writeRecord s n c).regs = s.regs := rfl
@[simp] theorem writeRecord_holds (s : State) (n : Nat) (c : Completion) : (writeRecord s n c).holds = s.holds := rfl
@[simp] theorem writeRecord_keys (s : State) (n : Nat) (c : Completion) : (writeRecord s n c).keys = s.keys := rfl
@[simp] theorem writeRecord_prot (s : State) (n : Nat) (c : Completion) : (writeRecord s n c).prot = s.prot := rfl
@[simp] theorem writeRecord_side (s : State) (n : Nat) (c : Completion) : (writeRecord s n c).side = s.side := rfl
@[simp] theorem writeRecord_images (s : State) (n : Nat) (c : Completion) : (writeRecord s n c).images = s.images := rfl
@[simp] theorem writeRecord_idx (s : State) (n : Nat) (c : Completion) : (writeRecord s n c).idx = s.idx := rfl
@[simp] theorem writeRecord_reqs (s : State) (n : Nat) (c : Completion) : (writeRecord s n c).reqs = s.reqs := rfl
@[simp] theorem writeRecord_changes (s : State) (n : Nat) (c : Completion) : (writeRecord s n c).changes = s.changes := rfl
@[simp] theorem writeRecord_sched (s : State) (n : Nat) (c : Completion) : (writeRecord s n c).sched = s.sched := rfl
@[simp] theorem writeRecord_kt (s : State) (n : Nat) (c : Completion) : (writeRecord s n c).kt = s.kt := rfl
@[simp] theorem writeRecord_power (s : State) (n : Nat) (c : Completion) : (writeRecord s n c).power = s.power := rfl
@[simp] theorem writeRecord_grove (s : State) (n : Nat) (c : Completion) : (writeRecord s n c).grove = s.grove := rfl
@[simp] theorem writeRecord_pins (s : State) (n : Nat) (c : Completion) : (writeRecord s n c).pins = s.pins := rfl
@[simp] theorem writeRecord_rc (s : State) (n : Nat) (c : Completion) : (writeRecord s n c).rc = s.rc := rfl
@[simp] theorem writeRecord_bi (s : State) (n : Nat) (c : Completion) : (writeRecord s n c).bi = s.bi := rfl
@[simp] theorem writeRecord_tap (s : State) (n : Nat) (c : Completion) : (writeRecord s n c).tap = s.tap := rfl
@[simp] theorem writeRecord_under (s : State) (n : Nat) (c : Completion) : (writeRecord s n c).under = s.under := rfl
@[simp] theorem writeRecord_flash (s : State) (n : Nat) (c : Completion) : (writeRecord s n c).flash = s.flash := rfl
@[simp] theorem writeRecord_serial (s : State) (n : Nat) (c : Completion) : (writeRecord s n c).serial = s.serial := rfl
@[simp] theorem writeRecord_time (s : State) (n : Nat) (c : Completion) : (writeRecord s n c).time = s.time := rfl
@[simp] theorem writeRecord_freeCount (s : State) (n : Nat) (c : Completion) : (writeRecord s n c).freeCount = s.freeCount := rfl
@[simp] theorem writeRecord_pending (s : State) (n : Nat) (c : Completion) : (writeRecord s n c).pending = s.pending := rfl

@[simp] theorem postRecord_chip (s : State) (n : Nat) (c : Completion) : (postRecord s n c).chip = s.chip := by unfold postRecord; split <;> (try split) <;> simp
@[simp] theorem postRecord_media (s : State) (n : Nat) (c : Completion) : (postRecord s n c).media = s.media := by unfold postRecord; split <;> (try split) <;> simp
@[simp] theorem postRecord_log (s : State) (n : Nat) (c : Completion) : (postRecord s n c).log = s.log := by unfold postRecord; split <;> (try split) <;> simp
@[simp] theorem postRecord_tabs (s : State) (n : Nat) (c : Completion) : (postRecord s n c).tabs = s.tabs := by unfold postRecord; split <;> (try split) <;> simp
@[simp] theorem postRecord_glades (s : State) (n : Nat) (c : Completion) : (postRecord s n c).glades = s.glades := by unfold postRecord; split <;> (try split) <;> simp
@[simp] theorem postRecord_regs (s : State) (n : Nat) (c : Completion) : (postRecord s n c).regs = s.regs := by unfold postRecord; split <;> (try split) <;> simp
@[simp] theorem postRecord_holds (s : State) (n : Nat) (c : Completion) : (postRecord s n c).holds = s.holds := by unfold postRecord; split <;> (try split) <;> simp
@[simp] theorem postRecord_keys (s : State) (n : Nat) (c : Completion) : (postRecord s n c).keys = s.keys := by unfold postRecord; split <;> (try split) <;> simp
@[simp] theorem postRecord_prot (s : State) (n : Nat) (c : Completion) : (postRecord s n c).prot = s.prot := by unfold postRecord; split <;> (try split) <;> simp
@[simp] theorem postRecord_images (s : State) (n : Nat) (c : Completion) : (postRecord s n c).images = s.images := by unfold postRecord; split <;> (try split) <;> simp
@[simp] theorem postRecord_idx (s : State) (n : Nat) (c : Completion) : (postRecord s n c).idx = s.idx := by unfold postRecord; split <;> (try split) <;> simp
@[simp] theorem postRecord_reqs (s : State) (n : Nat) (c : Completion) : (postRecord s n c).reqs = s.reqs := by unfold postRecord; split <;> (try split) <;> simp
@[simp] theorem postRecord_changes (s : State) (n : Nat) (c : Completion) : (postRecord s n c).changes = s.changes := by unfold postRecord; split <;> (try split) <;> simp
@[simp] theorem postRecord_sched (s : State) (n : Nat) (c : Completion) : (postRecord s n c).sched = s.sched := by unfold postRecord; split <;> (try split) <;> simp
@[simp] theorem postRecord_kt (s : State) (n : Nat) (c : Completion) : (postRecord s n c).kt = s.kt := by unfold postRecord; split <;> (try split) <;> simp
@[simp] theorem postRecord_power (s : State) (n : Nat) (c : Completion) : (postRecord s n c).power = s.power := by unfold postRecord; split <;> (try split) <;> simp
@[simp] theorem postRecord_grove (s : State) (n : Nat) (c : Completion) : (postRecord s n c).grove = s.grove := by unfold postRecord; split <;> (try split) <;> simp
@[simp] theorem postRecord_pins (s : State) (n : Nat) (c : Completion) : (postRecord s n c).pins = s.pins := by unfold postRecord; split <;> (try split) <;> simp
@[simp] theorem postRecord_rc (s : State) (n : Nat) (c : Completion) : (postRecord s n c).rc = s.rc := by unfold postRecord; split <;> (try split) <;> simp
@[simp] theorem postRecord_bi (s : State) (n : Nat) (c : Completion) : (postRecord s n c).bi = s.bi := by unfold postRecord; split <;> (try split) <;> simp
@[simp] theorem postRecord_tap (s : State) (n : Nat) (c : Completion) : (postRecord s n c).tap = s.tap := by unfold postRecord; split <;> (try split) <;> simp
@[simp] theorem postRecord_under (s : State) (n : Nat) (c : Completion) : (postRecord s n c).under = s.under := by unfold postRecord; split <;> (try split) <;> simp
@[simp] theorem postRecord_flash (s : State) (n : Nat) (c : Completion) : (postRecord s n c).flash = s.flash := by unfold postRecord; split <;> (try split) <;> simp
@[simp] theorem postRecord_serial (s : State) (n : Nat) (c : Completion) : (postRecord s n c).serial = s.serial := by unfold postRecord; split <;> (try split) <;> simp
@[simp] theorem postRecord_time (s : State) (n : Nat) (c : Completion) : (postRecord s n c).time = s.time := by unfold postRecord; split <;> (try split) <;> simp
@[simp] theorem postRecord_freeCount (s : State) (n : Nat) (c : Completion) : (postRecord s n c).freeCount = s.freeCount := by unfold postRecord; split <;> (try split) <;> simp
@[simp] theorem postRecord_pending (s : State) (n : Nat) (c : Completion) : (postRecord s n c).pending = s.pending := by unfold postRecord; split <;> (try split) <;> simp

@[simp] theorem endRecord_chip (s : State) (id : ReqId) (pair session head : Nat) (glade : Option Nat) (e : Ending) : (endRecord s id pair session head glade e).chip = s.chip := by simp only [endRecord, logOutcome]; split <;> simp
@[simp] theorem endRecord_media (s : State) (id : ReqId) (pair session head : Nat) (glade : Option Nat) (e : Ending) : (endRecord s id pair session head glade e).media = s.media := by simp only [endRecord, logOutcome]; split <;> simp
@[simp] theorem endRecord_tabs (s : State) (id : ReqId) (pair session head : Nat) (glade : Option Nat) (e : Ending) : (endRecord s id pair session head glade e).tabs = s.tabs := by simp only [endRecord, logOutcome]; split <;> simp
@[simp] theorem endRecord_glades (s : State) (id : ReqId) (pair session head : Nat) (glade : Option Nat) (e : Ending) : (endRecord s id pair session head glade e).glades = s.glades := by simp only [endRecord, logOutcome]; split <;> simp
@[simp] theorem endRecord_regs (s : State) (id : ReqId) (pair session head : Nat) (glade : Option Nat) (e : Ending) : (endRecord s id pair session head glade e).regs = s.regs := by simp only [endRecord, logOutcome]; split <;> simp
@[simp] theorem endRecord_holds (s : State) (id : ReqId) (pair session head : Nat) (glade : Option Nat) (e : Ending) : (endRecord s id pair session head glade e).holds = s.holds := by simp only [endRecord, logOutcome]; split <;> simp
@[simp] theorem endRecord_keys (s : State) (id : ReqId) (pair session head : Nat) (glade : Option Nat) (e : Ending) : (endRecord s id pair session head glade e).keys = s.keys := by simp only [endRecord, logOutcome]; split <;> simp
@[simp] theorem endRecord_prot (s : State) (id : ReqId) (pair session head : Nat) (glade : Option Nat) (e : Ending) : (endRecord s id pair session head glade e).prot = s.prot := by simp only [endRecord, logOutcome]; split <;> simp
@[simp] theorem endRecord_images (s : State) (id : ReqId) (pair session head : Nat) (glade : Option Nat) (e : Ending) : (endRecord s id pair session head glade e).images = s.images := by simp only [endRecord, logOutcome]; split <;> simp
@[simp] theorem endRecord_idx (s : State) (id : ReqId) (pair session head : Nat) (glade : Option Nat) (e : Ending) : (endRecord s id pair session head glade e).idx = s.idx := by simp only [endRecord, logOutcome]; split <;> simp
@[simp] theorem endRecord_reqs (s : State) (id : ReqId) (pair session head : Nat) (glade : Option Nat) (e : Ending) : (endRecord s id pair session head glade e).reqs = s.reqs := by simp only [endRecord, logOutcome]; split <;> simp
@[simp] theorem endRecord_changes (s : State) (id : ReqId) (pair session head : Nat) (glade : Option Nat) (e : Ending) : (endRecord s id pair session head glade e).changes = s.changes := by simp only [endRecord, logOutcome]; split <;> simp
@[simp] theorem endRecord_sched (s : State) (id : ReqId) (pair session head : Nat) (glade : Option Nat) (e : Ending) : (endRecord s id pair session head glade e).sched = s.sched := by simp only [endRecord, logOutcome]; split <;> simp
@[simp] theorem endRecord_kt (s : State) (id : ReqId) (pair session head : Nat) (glade : Option Nat) (e : Ending) : (endRecord s id pair session head glade e).kt = s.kt := by simp only [endRecord, logOutcome]; split <;> simp
@[simp] theorem endRecord_power (s : State) (id : ReqId) (pair session head : Nat) (glade : Option Nat) (e : Ending) : (endRecord s id pair session head glade e).power = s.power := by simp only [endRecord, logOutcome]; split <;> simp
@[simp] theorem endRecord_grove (s : State) (id : ReqId) (pair session head : Nat) (glade : Option Nat) (e : Ending) : (endRecord s id pair session head glade e).grove = s.grove := by simp only [endRecord, logOutcome]; split <;> simp
@[simp] theorem endRecord_pins (s : State) (id : ReqId) (pair session head : Nat) (glade : Option Nat) (e : Ending) : (endRecord s id pair session head glade e).pins = s.pins := by simp only [endRecord, logOutcome]; split <;> simp
@[simp] theorem endRecord_rc (s : State) (id : ReqId) (pair session head : Nat) (glade : Option Nat) (e : Ending) : (endRecord s id pair session head glade e).rc = s.rc := by simp only [endRecord, logOutcome]; split <;> simp
@[simp] theorem endRecord_bi (s : State) (id : ReqId) (pair session head : Nat) (glade : Option Nat) (e : Ending) : (endRecord s id pair session head glade e).bi = s.bi := by simp only [endRecord, logOutcome]; split <;> simp
@[simp] theorem endRecord_tap (s : State) (id : ReqId) (pair session head : Nat) (glade : Option Nat) (e : Ending) : (endRecord s id pair session head glade e).tap = s.tap := by simp only [endRecord, logOutcome]; split <;> simp
@[simp] theorem endRecord_under (s : State) (id : ReqId) (pair session head : Nat) (glade : Option Nat) (e : Ending) : (endRecord s id pair session head glade e).under = s.under := by simp only [endRecord, logOutcome]; split <;> simp
@[simp] theorem endRecord_flash (s : State) (id : ReqId) (pair session head : Nat) (glade : Option Nat) (e : Ending) : (endRecord s id pair session head glade e).flash = s.flash := by simp only [endRecord, logOutcome]; split <;> simp
@[simp] theorem endRecord_serial (s : State) (id : ReqId) (pair session head : Nat) (glade : Option Nat) (e : Ending) : (endRecord s id pair session head glade e).serial = s.serial := by simp only [endRecord, logOutcome]; split <;> simp
@[simp] theorem endRecord_time (s : State) (id : ReqId) (pair session head : Nat) (glade : Option Nat) (e : Ending) : (endRecord s id pair session head glade e).time = s.time := by simp only [endRecord, logOutcome]; split <;> simp
@[simp] theorem endRecord_freeCount (s : State) (id : ReqId) (pair session head : Nat) (glade : Option Nat) (e : Ending) : (endRecord s id pair session head glade e).freeCount = s.freeCount := by simp only [endRecord, logOutcome]; split <;> simp
@[simp] theorem endRecord_pending (s : State) (id : ReqId) (pair session head : Nat) (glade : Option Nat) (e : Ending) : (endRecord s id pair session head glade e).pending = s.pending := by simp only [endRecord, logOutcome]; split <;> simp

@[simp] theorem touchIdle_chip (s : State) (n : Nat) : (touchIdle s n).chip = s.chip := by unfold touchIdle; split <;> rfl
@[simp] theorem touchIdle_media (s : State) (n : Nat) : (touchIdle s n).media = s.media := by unfold touchIdle; split <;> rfl
@[simp] theorem touchIdle_log (s : State) (n : Nat) : (touchIdle s n).log = s.log := by unfold touchIdle; split <;> rfl
@[simp] theorem touchIdle_tabs (s : State) (n : Nat) : (touchIdle s n).tabs = s.tabs := by unfold touchIdle; split <;> rfl
@[simp] theorem touchIdle_glades (s : State) (n : Nat) : (touchIdle s n).glades = s.glades := by unfold touchIdle; split <;> rfl
@[simp] theorem touchIdle_regs (s : State) (n : Nat) : (touchIdle s n).regs = s.regs := by unfold touchIdle; split <;> rfl
@[simp] theorem touchIdle_holds (s : State) (n : Nat) : (touchIdle s n).holds = s.holds := by unfold touchIdle; split <;> rfl
@[simp] theorem touchIdle_keys (s : State) (n : Nat) : (touchIdle s n).keys = s.keys := by unfold touchIdle; split <;> rfl
@[simp] theorem touchIdle_caddy (s : State) (n : Nat) : (touchIdle s n).caddy = s.caddy := by unfold touchIdle; split <;> rfl
@[simp] theorem touchIdle_side (s : State) (n : Nat) : (touchIdle s n).side = s.side := by unfold touchIdle; split <;> rfl
@[simp] theorem touchIdle_images (s : State) (n : Nat) : (touchIdle s n).images = s.images := by unfold touchIdle; split <;> rfl
@[simp] theorem touchIdle_idx (s : State) (n : Nat) : (touchIdle s n).idx = s.idx := by unfold touchIdle; split <;> rfl
@[simp] theorem touchIdle_reqs (s : State) (n : Nat) : (touchIdle s n).reqs = s.reqs := by unfold touchIdle; split <;> rfl
@[simp] theorem touchIdle_changes (s : State) (n : Nat) : (touchIdle s n).changes = s.changes := by unfold touchIdle; split <;> rfl
@[simp] theorem touchIdle_sched (s : State) (n : Nat) : (touchIdle s n).sched = s.sched := by unfold touchIdle; split <;> rfl
@[simp] theorem touchIdle_kt (s : State) (n : Nat) : (touchIdle s n).kt = s.kt := by unfold touchIdle; split <;> rfl
@[simp] theorem touchIdle_power (s : State) (n : Nat) : (touchIdle s n).power = s.power := by unfold touchIdle; split <;> rfl
@[simp] theorem touchIdle_grove (s : State) (n : Nat) : (touchIdle s n).grove = s.grove := by unfold touchIdle; split <;> rfl
@[simp] theorem touchIdle_pins (s : State) (n : Nat) : (touchIdle s n).pins = s.pins := by unfold touchIdle; split <;> rfl
@[simp] theorem touchIdle_rc (s : State) (n : Nat) : (touchIdle s n).rc = s.rc := by unfold touchIdle; split <;> rfl
@[simp] theorem touchIdle_bi (s : State) (n : Nat) : (touchIdle s n).bi = s.bi := by unfold touchIdle; split <;> rfl
@[simp] theorem touchIdle_tap (s : State) (n : Nat) : (touchIdle s n).tap = s.tap := by unfold touchIdle; split <;> rfl
@[simp] theorem touchIdle_under (s : State) (n : Nat) : (touchIdle s n).under = s.under := by unfold touchIdle; split <;> rfl
@[simp] theorem touchIdle_host (s : State) (n : Nat) : (touchIdle s n).host = s.host := by unfold touchIdle; split <;> rfl
@[simp] theorem touchIdle_flash (s : State) (n : Nat) : (touchIdle s n).flash = s.flash := by unfold touchIdle; split <;> rfl
@[simp] theorem touchIdle_serial (s : State) (n : Nat) : (touchIdle s n).serial = s.serial := by unfold touchIdle; split <;> rfl
@[simp] theorem touchIdle_time (s : State) (n : Nat) : (touchIdle s n).time = s.time := by unfold touchIdle; split <;> rfl
@[simp] theorem touchIdle_freeCount (s : State) (n : Nat) : (touchIdle s n).freeCount = s.freeCount := by unfold touchIdle; split <;> rfl
@[simp] theorem touchIdle_pending (s : State) (n : Nat) : (touchIdle s n).pending = s.pending := by unfold touchIdle; split <;> rfl

@[simp] theorem completeReq_chip (s : State) (q : Req) (e : Ending) : (completeReq s q e).chip = s.chip := by simp [completeReq]
@[simp] theorem completeReq_media (s : State) (q : Req) (e : Ending) : (completeReq s q e).media = s.media := by simp [completeReq]
@[simp] theorem completeReq_tabs (s : State) (q : Req) (e : Ending) : (completeReq s q e).tabs = s.tabs := by simp [completeReq]
@[simp] theorem completeReq_glades (s : State) (q : Req) (e : Ending) : (completeReq s q e).glades = s.glades := by simp [completeReq]
@[simp] theorem completeReq_regs (s : State) (q : Req) (e : Ending) : (completeReq s q e).regs = s.regs := by simp [completeReq]
@[simp] theorem completeReq_holds (s : State) (q : Req) (e : Ending) : (completeReq s q e).holds = s.holds := by simp [completeReq]
@[simp] theorem completeReq_images (s : State) (q : Req) (e : Ending) : (completeReq s q e).images = s.images := by simp [completeReq]
@[simp] theorem completeReq_idx (s : State) (q : Req) (e : Ending) : (completeReq s q e).idx = s.idx := by simp [completeReq]
@[simp] theorem completeReq_kt (s : State) (q : Req) (e : Ending) : (completeReq s q e).kt = s.kt := by simp [completeReq]
@[simp] theorem completeReq_power (s : State) (q : Req) (e : Ending) : (completeReq s q e).power = s.power := by simp [completeReq]
@[simp] theorem completeReq_grove (s : State) (q : Req) (e : Ending) : (completeReq s q e).grove = (clearVerifies s q.job).grove := by
  simp only [completeReq, touchIdle_grove, clearVerifies]; split <;> simp
@[simp] theorem completeReq_pins (s : State) (q : Req) (e : Ending) : (completeReq s q e).pins = s.pins := by simp [completeReq]
@[simp] theorem completeReq_rc (s : State) (q : Req) (e : Ending) : (completeReq s q e).rc = s.rc := by simp [completeReq]
@[simp] theorem completeReq_bi (s : State) (q : Req) (e : Ending) : (completeReq s q e).bi = s.bi := by simp [completeReq]
@[simp] theorem completeReq_tap (s : State) (q : Req) (e : Ending) : (completeReq s q e).tap = s.tap := by simp [completeReq]
@[simp] theorem completeReq_under (s : State) (q : Req) (e : Ending) : (completeReq s q e).under = s.under := by simp [completeReq]
@[simp] theorem completeReq_flash (s : State) (q : Req) (e : Ending) : (completeReq s q e).flash = s.flash := by simp [completeReq]
@[simp] theorem completeReq_serial (s : State) (q : Req) (e : Ending) : (completeReq s q e).serial = s.serial := by simp [completeReq]
@[simp] theorem completeReq_time (s : State) (q : Req) (e : Ending) : (completeReq s q e).time = s.time := by simp [completeReq]
@[simp] theorem completeReq_freeCount (s : State) (q : Req) (e : Ending) : (completeReq s q e).freeCount = s.freeCount := by simp [completeReq]
@[simp] theorem completeReq_pending (s : State) (q : Req) (e : Ending) : (completeReq s q e).pending = s.pending := by simp [completeReq]

@[simp] theorem refuse_chip (s : State) (h : MsgHead) (c : Ctx) (e : Ending) : (refuse s h c e).chip = s.chip := by simp [refuse]
@[simp] theorem refuse_media (s : State) (h : MsgHead) (c : Ctx) (e : Ending) : (refuse s h c e).media = s.media := by simp [refuse]
@[simp] theorem refuse_tabs (s : State) (h : MsgHead) (c : Ctx) (e : Ending) : (refuse s h c e).tabs = s.tabs := by simp [refuse]
@[simp] theorem refuse_glades (s : State) (h : MsgHead) (c : Ctx) (e : Ending) : (refuse s h c e).glades = s.glades := by simp [refuse]
@[simp] theorem refuse_regs (s : State) (h : MsgHead) (c : Ctx) (e : Ending) : (refuse s h c e).regs = s.regs := by simp [refuse]
@[simp] theorem refuse_holds (s : State) (h : MsgHead) (c : Ctx) (e : Ending) : (refuse s h c e).holds = s.holds := by simp [refuse]
@[simp] theorem refuse_keys (s : State) (h : MsgHead) (c : Ctx) (e : Ending) : (refuse s h c e).keys = s.keys := by simp [refuse]
@[simp] theorem refuse_prot (s : State) (h : MsgHead) (c : Ctx) (e : Ending) : (refuse s h c e).prot = s.prot := by simp [refuse]
@[simp] theorem refuse_images (s : State) (h : MsgHead) (c : Ctx) (e : Ending) : (refuse s h c e).images = s.images := by simp [refuse]
@[simp] theorem refuse_idx (s : State) (h : MsgHead) (c : Ctx) (e : Ending) : (refuse s h c e).idx = s.idx := by simp [refuse]
@[simp] theorem refuse_reqs (s : State) (h : MsgHead) (c : Ctx) (e : Ending) : (refuse s h c e).reqs = s.reqs := by simp [refuse]
@[simp] theorem refuse_changes (s : State) (h : MsgHead) (c : Ctx) (e : Ending) : (refuse s h c e).changes = s.changes := by simp [refuse]
@[simp] theorem refuse_sched (s : State) (h : MsgHead) (c : Ctx) (e : Ending) : (refuse s h c e).sched = s.sched := by simp [refuse]
@[simp] theorem refuse_kt (s : State) (h : MsgHead) (c : Ctx) (e : Ending) : (refuse s h c e).kt = s.kt := by simp [refuse]
@[simp] theorem refuse_power (s : State) (h : MsgHead) (c : Ctx) (e : Ending) : (refuse s h c e).power = s.power := by simp [refuse]
@[simp] theorem refuse_grove (s : State) (h : MsgHead) (c : Ctx) (e : Ending) : (refuse s h c e).grove = s.grove := by simp [refuse]
@[simp] theorem refuse_pins (s : State) (h : MsgHead) (c : Ctx) (e : Ending) : (refuse s h c e).pins = s.pins := by simp [refuse]
@[simp] theorem refuse_rc (s : State) (h : MsgHead) (c : Ctx) (e : Ending) : (refuse s h c e).rc = s.rc := by simp [refuse]
@[simp] theorem refuse_bi (s : State) (h : MsgHead) (c : Ctx) (e : Ending) : (refuse s h c e).bi = s.bi := by simp [refuse]
@[simp] theorem refuse_tap (s : State) (h : MsgHead) (c : Ctx) (e : Ending) : (refuse s h c e).tap = s.tap := by simp [refuse]
@[simp] theorem refuse_under (s : State) (h : MsgHead) (c : Ctx) (e : Ending) : (refuse s h c e).under = s.under := by simp [refuse]
@[simp] theorem refuse_flash (s : State) (h : MsgHead) (c : Ctx) (e : Ending) : (refuse s h c e).flash = s.flash := by simp [refuse]
@[simp] theorem refuse_serial (s : State) (h : MsgHead) (c : Ctx) (e : Ending) : (refuse s h c e).serial = s.serial := by simp [refuse]
@[simp] theorem refuse_time (s : State) (h : MsgHead) (c : Ctx) (e : Ending) : (refuse s h c e).time = s.time := by simp [refuse]
@[simp] theorem refuse_freeCount (s : State) (h : MsgHead) (c : Ctx) (e : Ending) : (refuse s h c e).freeCount = s.freeCount := by simp [refuse]
@[simp] theorem refuse_pending (s : State) (h : MsgHead) (c : Ctx) (e : Ending) : (refuse s h c e).pending = s.pending := by simp [refuse]

/-- The request is gone with its record, and only it. -/
@[simp] theorem completeReq_reqs (s : State) (q : Req) (e : Ending) : (completeReq s q e).reqs = s.reqs.filter (fun x => x.id != q.id) := by
  simp [completeReq]

@[simp] theorem completeReq_changes (s : State) (q : Req) (e : Ending) : (completeReq s q e).changes = s.changes.filter (fun c => match c with
    | .request r => r != q.id
    | .item r _ => r != q.id
    | _ => true) := by
  simp [completeReq] <;> rfl

@[simp] theorem sendPort_chip (s : State) (p : Nat) (b : List Byte) : (sendPort s p b).chip = s.chip := rfl
@[simp] theorem sendPort_media (s : State) (p : Nat) (b : List Byte) : (sendPort s p b).media = s.media := rfl
@[simp] theorem sendPort_log (s : State) (p : Nat) (b : List Byte) : (sendPort s p b).log = s.log := rfl
@[simp] theorem sendPort_tabs (s : State) (p : Nat) (b : List Byte) : (sendPort s p b).tabs = s.tabs := rfl
@[simp] theorem sendPort_glades (s : State) (p : Nat) (b : List Byte) : (sendPort s p b).glades = s.glades := rfl
@[simp] theorem sendPort_regs (s : State) (p : Nat) (b : List Byte) : (sendPort s p b).regs = s.regs := rfl
@[simp] theorem sendPort_holds (s : State) (p : Nat) (b : List Byte) : (sendPort s p b).holds = s.holds := rfl
@[simp] theorem sendPort_keys (s : State) (p : Nat) (b : List Byte) : (sendPort s p b).keys = s.keys := rfl
@[simp] theorem sendPort_prot (s : State) (p : Nat) (b : List Byte) : (sendPort s p b).prot = s.prot := rfl
@[simp] theorem sendPort_caddy (s : State) (p : Nat) (b : List Byte) : (sendPort s p b).caddy = s.caddy := rfl
@[simp] theorem sendPort_side (s : State) (p : Nat) (b : List Byte) : (sendPort s p b).side = s.side := rfl
@[simp] theorem sendPort_images (s : State) (p : Nat) (b : List Byte) : (sendPort s p b).images = s.images := rfl
@[simp] theorem sendPort_idx (s : State) (p : Nat) (b : List Byte) : (sendPort s p b).idx = s.idx := rfl
@[simp] theorem sendPort_reqs (s : State) (p : Nat) (b : List Byte) : (sendPort s p b).reqs = s.reqs := rfl
@[simp] theorem sendPort_changes (s : State) (p : Nat) (b : List Byte) : (sendPort s p b).changes = s.changes := rfl
@[simp] theorem sendPort_sched (s : State) (p : Nat) (b : List Byte) : (sendPort s p b).sched = s.sched := rfl
@[simp] theorem sendPort_kt (s : State) (p : Nat) (b : List Byte) : (sendPort s p b).kt = s.kt := rfl
@[simp] theorem sendPort_power (s : State) (p : Nat) (b : List Byte) : (sendPort s p b).power = s.power := rfl
@[simp] theorem sendPort_pins (s : State) (p : Nat) (b : List Byte) : (sendPort s p b).pins = s.pins := rfl
@[simp] theorem sendPort_rc (s : State) (p : Nat) (b : List Byte) : (sendPort s p b).rc = s.rc := rfl
@[simp] theorem sendPort_bi (s : State) (p : Nat) (b : List Byte) : (sendPort s p b).bi = s.bi := rfl
@[simp] theorem sendPort_tap (s : State) (p : Nat) (b : List Byte) : (sendPort s p b).tap = s.tap := rfl
@[simp] theorem sendPort_under (s : State) (p : Nat) (b : List Byte) : (sendPort s p b).under = s.under := rfl
@[simp] theorem sendPort_flash (s : State) (p : Nat) (b : List Byte) : (sendPort s p b).flash = s.flash := rfl
@[simp] theorem sendPort_serial (s : State) (p : Nat) (b : List Byte) : (sendPort s p b).serial = s.serial := rfl
@[simp] theorem sendPort_time (s : State) (p : Nat) (b : List Byte) : (sendPort s p b).time = s.time := rfl
@[simp] theorem sendPort_freeCount (s : State) (p : Nat) (b : List Byte) : (sendPort s p b).freeCount = s.freeCount := rfl
@[simp] theorem sendPort_pending (s : State) (p : Nat) (b : List Byte) : (sendPort s p b).pending = s.pending := rfl

@[simp] theorem sendTo_chip (s : State) (m : Nat) (b : List Byte) : (sendTo s m b).chip = s.chip := by unfold sendTo; split <;> (try split) <;> simp
@[simp] theorem sendTo_media (s : State) (m : Nat) (b : List Byte) : (sendTo s m b).media = s.media := by unfold sendTo; split <;> (try split) <;> simp
@[simp] theorem sendTo_log (s : State) (m : Nat) (b : List Byte) : (sendTo s m b).log = s.log := by unfold sendTo; split <;> (try split) <;> simp
@[simp] theorem sendTo_tabs (s : State) (m : Nat) (b : List Byte) : (sendTo s m b).tabs = s.tabs := by unfold sendTo; split <;> (try split) <;> simp
@[simp] theorem sendTo_glades (s : State) (m : Nat) (b : List Byte) : (sendTo s m b).glades = s.glades := by unfold sendTo; split <;> (try split) <;> simp
@[simp] theorem sendTo_regs (s : State) (m : Nat) (b : List Byte) : (sendTo s m b).regs = s.regs := by unfold sendTo; split <;> (try split) <;> simp
@[simp] theorem sendTo_holds (s : State) (m : Nat) (b : List Byte) : (sendTo s m b).holds = s.holds := by unfold sendTo; split <;> (try split) <;> simp
@[simp] theorem sendTo_keys (s : State) (m : Nat) (b : List Byte) : (sendTo s m b).keys = s.keys := by unfold sendTo; split <;> (try split) <;> simp
@[simp] theorem sendTo_prot (s : State) (m : Nat) (b : List Byte) : (sendTo s m b).prot = s.prot := by unfold sendTo; split <;> (try split) <;> simp
@[simp] theorem sendTo_caddy (s : State) (m : Nat) (b : List Byte) : (sendTo s m b).caddy = s.caddy := by unfold sendTo; split <;> (try split) <;> simp
@[simp] theorem sendTo_side (s : State) (m : Nat) (b : List Byte) : (sendTo s m b).side = s.side := by unfold sendTo; split <;> (try split) <;> simp
@[simp] theorem sendTo_images (s : State) (m : Nat) (b : List Byte) : (sendTo s m b).images = s.images := by unfold sendTo; split <;> (try split) <;> simp
@[simp] theorem sendTo_idx (s : State) (m : Nat) (b : List Byte) : (sendTo s m b).idx = s.idx := by unfold sendTo; split <;> (try split) <;> simp
@[simp] theorem sendTo_reqs (s : State) (m : Nat) (b : List Byte) : (sendTo s m b).reqs = s.reqs := by unfold sendTo; split <;> (try split) <;> simp
@[simp] theorem sendTo_changes (s : State) (m : Nat) (b : List Byte) : (sendTo s m b).changes = s.changes := by unfold sendTo; split <;> (try split) <;> simp
@[simp] theorem sendTo_sched (s : State) (m : Nat) (b : List Byte) : (sendTo s m b).sched = s.sched := by unfold sendTo; split <;> (try split) <;> simp
@[simp] theorem sendTo_kt (s : State) (m : Nat) (b : List Byte) : (sendTo s m b).kt = s.kt := by unfold sendTo; split <;> (try split) <;> simp
@[simp] theorem sendTo_power (s : State) (m : Nat) (b : List Byte) : (sendTo s m b).power = s.power := by unfold sendTo; split <;> (try split) <;> simp
@[simp] theorem sendTo_pins (s : State) (m : Nat) (b : List Byte) : (sendTo s m b).pins = s.pins := by unfold sendTo; split <;> (try split) <;> simp
@[simp] theorem sendTo_rc (s : State) (m : Nat) (b : List Byte) : (sendTo s m b).rc = s.rc := by unfold sendTo; split <;> (try split) <;> simp
@[simp] theorem sendTo_bi (s : State) (m : Nat) (b : List Byte) : (sendTo s m b).bi = s.bi := by unfold sendTo; split <;> (try split) <;> simp
@[simp] theorem sendTo_tap (s : State) (m : Nat) (b : List Byte) : (sendTo s m b).tap = s.tap := by unfold sendTo; split <;> (try split) <;> simp
@[simp] theorem sendTo_under (s : State) (m : Nat) (b : List Byte) : (sendTo s m b).under = s.under := by unfold sendTo; split <;> (try split) <;> simp
@[simp] theorem sendTo_flash (s : State) (m : Nat) (b : List Byte) : (sendTo s m b).flash = s.flash := by unfold sendTo; split <;> (try split) <;> simp
@[simp] theorem sendTo_serial (s : State) (m : Nat) (b : List Byte) : (sendTo s m b).serial = s.serial := by unfold sendTo; split <;> (try split) <;> simp
@[simp] theorem sendTo_time (s : State) (m : Nat) (b : List Byte) : (sendTo s m b).time = s.time := by unfold sendTo; split <;> (try split) <;> simp
@[simp] theorem sendTo_freeCount (s : State) (m : Nat) (b : List Byte) : (sendTo s m b).freeCount = s.freeCount := by unfold sendTo; split <;> (try split) <;> simp
@[simp] theorem sendTo_pending (s : State) (m : Nat) (b : List Byte) : (sendTo s m b).pending = s.pending := by unfold sendTo; split <;> (try split) <;> simp

/-- What a fold of operations that keep a part of the state keeps. -/
theorem foldl_keeps {α β : Type} (f : State → α → State) (g : State → β) (h : ∀ s a, g (f s a) = g s) (l : List α) (s : State) :
    g (l.foldl f s) = g s := by
  induction l generalizing s with
  | nil => rfl
  | cons a t ih => rw [List.foldl_cons, ih, h]

@[simp] theorem tellPeers_chip (s : State) (kind : Nat) (r : ReqId) : (tellPeers s kind r).chip = s.chip := by unfold tellPeers; exact foldl_keeps _ (fun s => s.chip) (fun s m => by simp) _ _
@[simp] theorem tellPeers_media (s : State) (kind : Nat) (r : ReqId) : (tellPeers s kind r).media = s.media := by unfold tellPeers; exact foldl_keeps _ (fun s => s.media) (fun s m => by simp) _ _
@[simp] theorem tellPeers_log (s : State) (kind : Nat) (r : ReqId) : (tellPeers s kind r).log = s.log := by unfold tellPeers; exact foldl_keeps _ (fun s => s.log) (fun s m => by simp) _ _
@[simp] theorem tellPeers_tabs (s : State) (kind : Nat) (r : ReqId) : (tellPeers s kind r).tabs = s.tabs := by unfold tellPeers; exact foldl_keeps _ (fun s => s.tabs) (fun s m => by simp) _ _
@[simp] theorem tellPeers_glades (s : State) (kind : Nat) (r : ReqId) : (tellPeers s kind r).glades = s.glades := by unfold tellPeers; exact foldl_keeps _ (fun s => s.glades) (fun s m => by simp) _ _
@[simp] theorem tellPeers_regs (s : State) (kind : Nat) (r : ReqId) : (tellPeers s kind r).regs = s.regs := by unfold tellPeers; exact foldl_keeps _ (fun s => s.regs) (fun s m => by simp) _ _
@[simp] theorem tellPeers_holds (s : State) (kind : Nat) (r : ReqId) : (tellPeers s kind r).holds = s.holds := by unfold tellPeers; exact foldl_keeps _ (fun s => s.holds) (fun s m => by simp) _ _
@[simp] theorem tellPeers_keys (s : State) (kind : Nat) (r : ReqId) : (tellPeers s kind r).keys = s.keys := by unfold tellPeers; exact foldl_keeps _ (fun s => s.keys) (fun s m => by simp) _ _
@[simp] theorem tellPeers_prot (s : State) (kind : Nat) (r : ReqId) : (tellPeers s kind r).prot = s.prot := by unfold tellPeers; exact foldl_keeps _ (fun s => s.prot) (fun s m => by simp) _ _
@[simp] theorem tellPeers_caddy (s : State) (kind : Nat) (r : ReqId) : (tellPeers s kind r).caddy = s.caddy := by unfold tellPeers; exact foldl_keeps _ (fun s => s.caddy) (fun s m => by simp) _ _
@[simp] theorem tellPeers_side (s : State) (kind : Nat) (r : ReqId) : (tellPeers s kind r).side = s.side := by unfold tellPeers; exact foldl_keeps _ (fun s => s.side) (fun s m => by simp) _ _
@[simp] theorem tellPeers_images (s : State) (kind : Nat) (r : ReqId) : (tellPeers s kind r).images = s.images := by unfold tellPeers; exact foldl_keeps _ (fun s => s.images) (fun s m => by simp) _ _
@[simp] theorem tellPeers_idx (s : State) (kind : Nat) (r : ReqId) : (tellPeers s kind r).idx = s.idx := by unfold tellPeers; exact foldl_keeps _ (fun s => s.idx) (fun s m => by simp) _ _
@[simp] theorem tellPeers_reqs (s : State) (kind : Nat) (r : ReqId) : (tellPeers s kind r).reqs = s.reqs := by unfold tellPeers; exact foldl_keeps _ (fun s => s.reqs) (fun s m => by simp) _ _
@[simp] theorem tellPeers_changes (s : State) (kind : Nat) (r : ReqId) : (tellPeers s kind r).changes = s.changes := by unfold tellPeers; exact foldl_keeps _ (fun s => s.changes) (fun s m => by simp) _ _
@[simp] theorem tellPeers_sched (s : State) (kind : Nat) (r : ReqId) : (tellPeers s kind r).sched = s.sched := by unfold tellPeers; exact foldl_keeps _ (fun s => s.sched) (fun s m => by simp) _ _
@[simp] theorem tellPeers_kt (s : State) (kind : Nat) (r : ReqId) : (tellPeers s kind r).kt = s.kt := by unfold tellPeers; exact foldl_keeps _ (fun s => s.kt) (fun s m => by simp) _ _
@[simp] theorem tellPeers_power (s : State) (kind : Nat) (r : ReqId) : (tellPeers s kind r).power = s.power := by unfold tellPeers; exact foldl_keeps _ (fun s => s.power) (fun s m => by simp) _ _
@[simp] theorem tellPeers_pins (s : State) (kind : Nat) (r : ReqId) : (tellPeers s kind r).pins = s.pins := by unfold tellPeers; exact foldl_keeps _ (fun s => s.pins) (fun s m => by simp) _ _
@[simp] theorem tellPeers_rc (s : State) (kind : Nat) (r : ReqId) : (tellPeers s kind r).rc = s.rc := by unfold tellPeers; exact foldl_keeps _ (fun s => s.rc) (fun s m => by simp) _ _
@[simp] theorem tellPeers_bi (s : State) (kind : Nat) (r : ReqId) : (tellPeers s kind r).bi = s.bi := by unfold tellPeers; exact foldl_keeps _ (fun s => s.bi) (fun s m => by simp) _ _
@[simp] theorem tellPeers_tap (s : State) (kind : Nat) (r : ReqId) : (tellPeers s kind r).tap = s.tap := by unfold tellPeers; exact foldl_keeps _ (fun s => s.tap) (fun s m => by simp) _ _
@[simp] theorem tellPeers_under (s : State) (kind : Nat) (r : ReqId) : (tellPeers s kind r).under = s.under := by unfold tellPeers; exact foldl_keeps _ (fun s => s.under) (fun s m => by simp) _ _
@[simp] theorem tellPeers_flash (s : State) (kind : Nat) (r : ReqId) : (tellPeers s kind r).flash = s.flash := by unfold tellPeers; exact foldl_keeps _ (fun s => s.flash) (fun s m => by simp) _ _
@[simp] theorem tellPeers_serial (s : State) (kind : Nat) (r : ReqId) : (tellPeers s kind r).serial = s.serial := by unfold tellPeers; exact foldl_keeps _ (fun s => s.serial) (fun s m => by simp) _ _
@[simp] theorem tellPeers_time (s : State) (kind : Nat) (r : ReqId) : (tellPeers s kind r).time = s.time := by unfold tellPeers; exact foldl_keeps _ (fun s => s.time) (fun s m => by simp) _ _
@[simp] theorem tellPeers_freeCount (s : State) (kind : Nat) (r : ReqId) : (tellPeers s kind r).freeCount = s.freeCount := by unfold tellPeers; exact foldl_keeps _ (fun s => s.freeCount) (fun s m => by simp) _ _
@[simp] theorem tellPeers_pending (s : State) (kind : Nat) (r : ReqId) : (tellPeers s kind r).pending = s.pending := by unfold tellPeers; exact foldl_keeps _ (fun s => s.pending) (fun s m => by simp) _ _

end Sys2Proof.Machine
end

