-- ==== Sys2Proof/Tests/Slice0.lean ====
section
/-!
SUPPORT. Own tests: a term that each well-formedness check refuses, words of R83 that decode to their instruction, results worked out by
hand from the rules, and for every statement with hypotheses a state and operands that meet them together.
-/
namespace Sys2Proof.Tests

set_option Elab.async false

open Sys2Proof.Machine Sys2Proof.Claims

/-! ### Words (R83, R84, R126, R150, R164, R182, R222, R262, R368): written out from the engine code, the opcode and the fields -/

/-- The issue fields all clear. -/
def hdr0 : Hdr := ⟨false, 0, false, 0, false, 0, false, false, 0⟩

/-- NOP is engine 15, opcode 0. -/
theorem test_word_nop : decodeEngine 3#11 0xF0000000000000000000000000000000#128 = some (.nop 3#11 hdr0 0#88) := by decide

/-- MSWAP is engine 0, opcode 2; SIGEN is bit 115 and SIGTOK bits [114:109]: 0x8 in the nibble of bits [115:112], token 5 in [114:109]. -/
theorem test_word_mswap_signals_token_5 : decodeEngine 0#11 0x002_8A0_0000000000000000000000000_0#128
    = some (.mswap 0#11 { hdr0 with sigen := true, sigtok := 5#6 } 0#88) := by decide

/-- VSUM is engine 1, opcode 0x10; WAEN is bit 108, WATOK bits [107:102]: token 1 is bit 102. -/
theorem test_word_vsum_waits_for_token_1 : decodeEngine 0#11 0x1100_1040_0000_0000_0000_0000_0000_0000#128
    = some (.vsum 0#11 { hdr0 with waen := true, watok := 1#6 } 0#88) := by decide

/-- ARGMAX is engine 2, opcode 2; CONSUME is bit 94 and RELEASE bit 93. -/
theorem test_word_argmax_consumes_and_releases : decodeEngine 0#11 0x2020_0000_6000_0000_0000_0000_0000_0000#128
    = some (.argmax 0#11 { hdr0 with consume := true, release := true } 0#88) := by decide

/-- GPOOL is engine 3, opcode 1; WBEN is bit 101, WBTOK bits [100:95]: token 2 is bit 96. -/
theorem test_word_gpool_waits_b_for_token_2 : decodeEngine 0#11 0x3010_0021_0000_0000_0000_0000_0000_0000#128
    = some (.gpool 0#11 { hdr0 with wben := true, wbtok := 2#6 } 0#88) := by decide

/-- QDRAIN is engine 4, opcode 3; the operands are bits [87:0]. -/
theorem test_word_qdrain_operands : decodeEngine 0#11 0x4030_0000_00FF_FFFF_FFFF_FFFF_FFFF_FFFF#128
    = some (.qdrain 0#11 hdr0 0xFFFFFFFFFFFFFFFFFFFFFF#88) := by decide

/-- CSETD is engine 5, opcode 6; the reserved bits [92:88] are kept. -/
theorem test_word_csetd_reserved : decodeEngine 0#11 0x5060_0000_1F00_0000_0000_0000_0000_0001#128
    = some (.csetd 0#11 { hdr0 with rsvd := 0x1F#5 } 1#88) := by decide

/-- XSEAL is engine 6, opcode 4. -/
theorem test_word_xseal : decodeEngine 511#11 0x60400000000000000000000000000000#128 = some (.xseal 511#11 hdr0 0#88) := by decide

/-- Reserved codes name nothing: engine 7, and opcode 0 of the matrix engine. -/
theorem test_word_reserved : decodeEngine 0#11 0x70100000000000000000000000000000#128 = none
    ∧ decodeEngine 0#11 0#128 = none := by decide

/-! ### Well-formed commands: one term that each check refuses -/

def head0 : MsgHead := ⟨0#8, 0, 1#8, 0#16, 0#32, 1#64, 0#32, 0#32, true, true, false⟩
def link0 : LinkDesc := ⟨9, none, [], 0#8, 9#8, 64, 0, 16384, 1, 0, []⟩
def unit0 : UnitDesc := ⟨7, none, [], 16384, 8, 1, 0xFFFF#16, 0, 0, 192, 0, []⟩

theorem test_wf_reserved_bits : (Instr.vadd 0#11 { hdr0 with rsvd := 1#5 } 0#88).wf = false := by decide
theorem test_wf_good : (Instr.vadd 0#11 hdr0 0#88).wf = true ∧ (Instr.recoveryMode head0 1#8).wf = true ∧ unit0.wf = true
    ∧ link0.wf = true := by decide
theorem test_wf_function : (Instr.cdQcommit 9#8 0#64).wf = false ∧ (Instr.recoveryMode { head0 with func := 9#8 } 0#8).wf = false := by decide
theorem test_wf_pair : (Instr.recoveryMode { head0 with pair := 8 } 0#8).wf = false
    ∧ (Instr.recoveryMode { head0 with func := 1#8, pair := 7 } 0#8).wf = false := by decide
theorem test_wf_response_engine : (Instr.memoryResponse 0#11 .m 0 .good).wf = false := by decide
theorem test_wf_unit : { unit0 with count := 0 }.wf = false ∧ { unit0 with count := 4097 }.wf = false ∧ { unit0 with slotCount := 193 }.wf = false
    ∧ { unit0 with core := 512#16 }.wf = false ∧ { unit0 with program := 8 }.wf = false := by decide
theorem test_wf_link : { link0 with bytes := 32 }.wf = false ∧ { link0 with dest := 64 }.wf = false := by decide
theorem test_wf_boundary : (Instr.stepBoundary ⟨[{ unit0 with count := 0 }], [], [], [], [], []⟩).wf = false
    ∧ (Instr.stepBoundary ⟨[], [(.send, { link0 with bytes := 32 })], [], [], [], []⟩).wf = false := by decide
theorem test_wf_new_units : (Instr.stepBoundary ⟨List.replicate 65537 unit0, [], [], [], [], []⟩).wf = false := by
  show BoundaryPlan.wf _ = false
  have h : decide ((List.replicate 65537 unit0).length ≤ 65536) = false := by rw [List.length_replicate]; rfl
  unfold BoundaryPlan.wf
  rw [h, Bool.and_false]
theorem test_wf_half_words : (Instr.tenantUnbind head0 65536).wf = false ∧ (Instr.indexDrop head0 (2 ^ 32)).wf = false := by decide
theorem test_wf_register : (Instr.registerWrite 0#8 4#16 none 0#64).wf = false ∧ (Instr.msixRaise 64).wf = false := by decide
theorem test_wf_sideband : (Instr.msgPut [] true).wf = false := by decide
theorem test_wf_ranges : (Instr.overvoltageStop 62000).wf = false ∧ (Instr.thermtrip 1149).wf = false
    ∧ (Instr.thermalWarningSet 999 899).wf = false ∧ (Instr.thermalWarningClear 951 0).wf = false ∧ (Instr.skipPersist 528).wf = false := by decide
theorem test_wf_members : (Instr.memberOut 16).wf = false ∧ (Instr.grovePortTrained 0#3 true 16 0).wf = false := by decide
theorem test_wf_media : (Instr.t2Scrub [(75399168, .good)]).wf = false ∧ (Instr.t3DieFail 0 8 true).wf = false
    ∧ (Instr.t2RebuildEnd 384).wf = false ∧ (Instr.flashChannelOutOfService 256).wf = false := by decide
theorem test_wf_bist : (Instr.bistGroupDone [(528, 2)] [] []).wf = false ∧ (Instr.bistGroupDone [(0, 5)] [] []).wf = false := by decide
def report0 : StartReport := ⟨none, [], [], [], [], [], [], false, true, [], 0#4⟩
theorem test_wf_start : (Instr.powerGoodAssert [report0]).wf = true ∧ (Instr.powerGoodAssert [{ report0 with controllers := [4] }]).wf = false
    ∧ (Instr.mrstNRelease [{ report0 with sites := [528] }]).wf = false ∧ (Instr.perstNDeassert [{ report0 with stackList := [12] }]).wf = false
    ∧ (Instr.boundaryStall [{ report0 with channels := [384] }]).wf = false ∧ (Instr.kettleWatchdog [{ report0 with flash := [256] }]).wf = false
    ∧ (Instr.firmwareDeviceReset 0#64 [{ report0 with ports := [8] }]).wf = false
    ∧ (Instr.allControllersSilent [{ report0 with vf := List.replicate 34 0 }]).wf = false := by decide
theorem test_wf_message_numbers : (Instr.gladeRemove head0 256).wf = false ∧ (Instr.profileRemove head0 64).wf = false
    ∧ (Instr.tableReplace head0 65536 0 0 0).wf = false ∧ (Instr.status head0 65536 0 0).wf = false
    ∧ (Instr.logRead head0 0 (2 ^ 32) 0).wf = false ∧ (Instr.shutdown head0 0#8 (2 ^ 32)).wf = false
    ∧ (Instr.setDissolve head0 (2 ^ 32)).wf = false ∧ (Instr.indexRetain head0 0 (2 ^ 32)).wf = false
    ∧ (Instr.indexMergePolicy head0 0 (2 ^ 32)).wf = false ∧ (Instr.operatorUnbind head0 65536).wf = false := by decide
theorem test_wf_doorbells : (Instr.cdSqdb 0#8 8 0#64).wf = false ∧ (Instr.cdCqdb 0#8 8 0#64).wf = false
    ∧ (Instr.pcieConfigRequest 9#8).wf = false := by decide
theorem test_wf_events : (Instr.monitorSample [(0, 190)]).wf = false ∧ (Instr.replan [(33, 0)] 0 0).wf = false
    ∧ (Instr.controllerHeartbeatLoss 4).wf = false ∧ (Instr.replicaCopyDone 0 12).wf = false ∧ (Instr.tableUpdateApplyEnd 17).wf = false
    ∧ (Instr.hostLinkTrained 0).wf = false ∧ (Instr.hostLinkDowntrain 0).wf = false ∧ (Instr.t2CorrectedRateWatch 384 0).wf = false
    ∧ (Instr.t3MoveEnd 256).wf = false := by decide
theorem test_wf_grove : (Instr.reserveFrame 0#3 1#64 true 16 ⟨0#8, 0#64⟩ 0 ⟨0, 0⟩).wf = false
    ∧ (Instr.grantFrame 0#3 1#64 true 16 ⟨0#8, 0#64⟩ true).wf = false ∧ (Instr.allreduce link0 [(16, [])]).wf = false
    ∧ (Instr.allgather link0 [(16, [])]).wf = false ∧ (Instr.gather link0 [(16, [])]).wf = false
    ∧ (Instr.broadcast { link0 with source := 1 } []).wf = false ∧ (Instr.send { link0 with bytes := 1 } []).wf = false := by decide

/-! ### A module with one core that runs a unit -/

/-- Operand bits from (position, value). -/
def ops (l : List (Nat × Nat)) : BitVec 88 := l.foldl (fun o p => o ||| BitVec.ofNat 88 (p.2 <<< p.1)) 0#88

/-- The word of an instruction without tokens (R83). -/
def wordOf (e op : Nat) (o : BitVec 88) : W128 := BitVec.ofNat 128 (e * 2 ^ 124 + op * 2 ^ 116 + o.toNat)

/-- A unit of one instruction at its start. -/
def runW (w : W128) : Running := ⟨unit0, [w], 0, [], [], 0, false, false, .none⟩
def run0 : Running := runW 0#128

/-- Slots 0 to 2 FULL, the others EMPTY, and the bytes of `b` in T0. -/
def core0 (b : List Host.Cell) : Core :=
  { coreOff with power := .issuing, run := some run0, slots := [(0, .full), (1, .full), (2, .full)], bytes := b }

/-- A core about to issue the instruction `w`. -/
def atWord (k : Core) (w : W128) : Core := { k with run := some (runW w) }

/-- A module at reset but for its one core. -/
def oneCore (k : Core) : State := { State.reset with chip := { Chip.reset with cores := [(0, k)] } }

theorem coreOf_one (s : State) (k : Core) (h : s.chip.cores = [(0, k)]) : coreOf s 0 = k := by
  unfold coreOf; rw [h]; rfl

theorem coreOf_one_other (s : State) (k : Core) (h : s.chip.cores = [(0, k)]) (n : Nat) (hn : n ≠ 0) : coreOf s n = coreOff := by
  unfold coreOf; rw [h]
  obtain ⟨m, rfl⟩ := Nat.exists_eq_succ_of_ne_zero hn
  rfl

theorem othersRest_one (s : State) (k : Core) (h : s.chip.cores = [(0, k)]) : othersRest s 0 := by
  intro n hn
  rw [coreOf_one_other s k h n hn]
  exact ⟨rfl, fun q hq => nomatch hq⟩

theorem locks_none (s : State) (h : s.tabs.applying = []) : locksAsked s := by
  intro a ha; rw [h] at ha; exact nomatch ha

/-- On a module whose only core runs `r`, with nothing in execution, that core is quiet. -/
theorem quiet_one (s : State) (k : Core) (r : Running) (h : s.chip.cores = [(0, k)]) (hr : k.run = some r) (he : r.ended = false)
    (hw : r.waiting = []) (hf : k.flights = []) (ha : s.tabs.applying = []) : quiet s 0 r :=
  ⟨by rw [coreOf_one s k h]; exact hr, he, hw, by rw [coreOf_one s k h]; exact hf, othersRest_one s k h, locks_none s ha⟩

theorem restAll_none (s : State) (h : s.chip.cores = []) (ha : s.tabs.applying = []) : restAll s :=
  ⟨fun n => by unfold coreOf; rw [h]; exact ⟨rfl, rfl⟩, locks_none s ha⟩

/-- On a module whose only core is about to issue `w`, which names no token, the instruction may issue. -/
theorem issuable_at (s : State) (k : Core) (w : W128) (h : s.chip.cores = [(0, atWord k w)]) (hf : k.flights = []) (ha : s.tabs.applying = [])
    (hw : (wordFields w).h = hdr0) : issuable s 0 (runW w) (wordFields w) :=
  ⟨quiet_one s _ _ h rfl rfl rfl hf ha, ⟨(by show 0 < unit0.count; decide), w, rfl, rfl⟩, by
    rw [hw]; exact ⟨rfl, (fun _ ht => nomatch (show _ ∈ ([] : List Nat) from ht)), fun h => nomatch h⟩⟩

/-- The engine instructions by engine code and opcode, on `core0`: each may issue. -/
theorem issuable_core0 (b : List Host.Cell) (w : W128) (hw : (wordFields w).h = hdr0) :
    issuable (oneCore (atWord (core0 b) w)) (0#11 : CoreId).toNat (runW w) (wordFields w) := issuable_at _ _ _ rfl rfl rfl hw

/-- R83: the fields of a written word. -/
theorem test_word_fields : wordFields (wordOf 3 1 5#88) = ⟨3, 1, hdr0, 5#88⟩ ∧ wordFields (wordOf 15 5 0#88) = ⟨15, 5, hdr0, 0#88⟩ := by decide

/-- The operands meet the checks of the dispatcher's own operations; LOOP of one instruction twice; SLOTFREE of slot 0; TOKCLR of token 3. -/
theorem witness_DispatcherOperations : ∀ x ∈ [(0, 0#88), (5, 0#88), (2, ops [(0, 2), (16, 1)]), (3, ops [(8, 1)]), (4, ops [(3, 1)])],
    dispCheck (core0 []) run0 x.1 x.2 = none := by decide

/-- Every hypothesis of `EndOfAUnitFreesItsCore` but `issuable_core0`. -/
theorem witness_EndOfAUnit : fld 0#88 0 88 = 0 ∧ run0.frames = [] ∧ run0.replay = false ∧ run0.result = .none
    ∧ wordFields (wordOf 15 1 0#88) = ⟨15, 1, hdr0, 0#88⟩ := by decide

/-- MLOAD of an INT8 plane in slot 0, with no side record; and the shadow plane that MSWAP exchanges. -/
theorem witness_MatrixPlanes : mCheck run0.desc 1 (ops [(23, 1)]) = none ∧ (core0 []).shadow.state ≠ .loading
    ∧ allFull (core0 []) (loadSlots (mloadOp (ops [(23, 1)]))) ∧ mCheck run0.desc 2 0#88 = none
    ∧ quiet (oneCore { core0 [] with shadow := { planeEmpty with state := .loaded } }) 0 run0 :=
  ⟨by decide, by decide, by unfold allFull; decide, by decide, quiet_one _ _ _ rfl rfl rfl rfl rfl rfl⟩

theorem split3 {α β γ : Type} (x : α × β × γ) (a : α) (h : x.1 = a) : ∃ b c, x = (a, b, c) := ⟨x.2.1, x.2.2, by rw [← h]⟩

/-- A core whose active plane holds INT8 weights. -/
def coreM : Core := { core0 [] with active := ⟨.loaded, 1, false, [(0, 3#8)], []⟩ }

/-- One row of slot 0 (AFMT 1), into the first row of accumulator slot 192; and the same with a load-behind of an INT8 plane in slot 1. -/
def oRow : BitVec 88 := ops [(0, 1), (38, 1)]
def oRowLoad : BitVec 88 := ops [(0, 1), (38, 1), (54, 1), (55, 1), (78, 1)]

/-- The core with which a stream takes its first row. -/
def streamStart (op : Nat) (o : BitVec 88) : Core :=
  { issued coreM (runW (wordOf 0 op o)) ⟨0, op, hdr0, o⟩ with
    arrayOn := true, flights := [flightOf coreM (runW (wordOf 0 op o)) ⟨0, op, hdr0, o⟩] }

/-- The core after the first row of MSTREAM with a load-behind, whose plane may be taken. -/
def afterRow : Core := (streamRows (streamOp oRowLoad) false 1 (streamStart 3 oRowLoad) 0 48 true).2.1

theorem witness_StreamsRun : (∀ x ∈ [(3, oRow), (4, oRow), (3, oRowLoad)], mCheck run0.desc x.1 x.2 = none
      ∧ wordFields (wordOf 0 x.1 x.2) = ⟨0, x.1, hdr0, x.2⟩ ∧ pairOk coreM.active.fmt (streamOp x.2).afmt = true
      ∧ (streamOp x.2).arow < rowsPerTile (streamOp x.2).afmt coreM.active.sparse)
    ∧ coreM.active.state = .loaded ∧ (streamOp oRow).lben = false ∧ (streamOp oRowLoad).lben = true
    ∧ (∃ k2 steps zero, streamRows (streamOp oRow) false 1 (streamStart 3 oRow) 0 48 true = (none, k2, 1, steps, zero))
    ∧ (∃ k2 steps zero, streamRows (streamOp oRow) true 1 (streamStart 4 oRow) 0 48 true = (none, k2, 1, steps, zero))
    ∧ (∃ steps zero, streamRows (streamOp oRowLoad) false 1 (streamStart 3 oRowLoad) 0 48 true = (none, afterRow, 1, steps, zero))
    ∧ ((∀ n ∈ loadSlots (streamOp oRowLoad).lb, slotOf afterRow n = .full) ∧ afterRow.shadow.state ≠ .loading) :=
  ⟨by decide +kernel, by decide, by decide, by decide, ⟨_, _, _, rfl⟩, ⟨_, _, _, rfl⟩, ⟨_, _, rfl⟩, by decide +kernel⟩

theorem witness_StreamRow : (streamRow (streamOp oRow) false 0).1 < 192
    ∧ ∃ k' st z, streamOne (streamStart 3 oRow) (streamOp oRow) false 0 48 true = .done k' st z := ⟨by decide, ⟨_, _, _, rfl⟩⟩

/-- R129: element 0 of the row times element 0 of column 0, on 10 before: 10 + 2 × 3. -/
theorem test_macc_sums : columnResult coreM.active (readARow [(0, 2#8)] 0 1 false 0) 0 10#32 = 16 := by decide +kernel

/-! ### The vector engine -/

/-- A at slot 0, B at slot 1, D at slot 2, both formats FP32, two elements; `l` adds or replaces fields. -/
def oVec (l : List (Nat × Nat)) : BitVec 88 := ops ([(70, 1), (54, 9)] ++ l)
def oVecD : BitVec 88 := oVec [(58, 9), (36, 2)]
def oVecBD : BitVec 88 := oVec [(58, 9), (36, 2), (18, 1)]

/-- The operands of every V instruction, by opcode; PACKA writes an A-tile of format 0 with its scales, DTIP and DTL2 a table of 16. -/
def vecOperands : List (Nat × BitVec 88) :=
  [(1, oVecBD), (2, oVecBD), (3, oVecBD), (4, oVecBD), (5, oVecD), (6, oVecBD), (7, oVecBD), (8, oVecD), (9, oVecD), (10, oVecD), (11, oVecD),
   (12, oVecBD), (13, oVecD), (14, oVecBD), (16, oVec []), (17, oVec []), (18, oVec [(18, 1)]), (19, oVec []), (32, oVecBD), (33, oVecD),
   (34, oVecD), (35, oVecBD), (48, ops [(54, 9), (36, 2)]), (49, ops [(70, 1), (54, 9), (58, 10), (36, 2), (18, 1), (69, 1)]),
   (50, ops [(70, 1), (54, 9), (58, 10), (36, 2), (18, 1), (69, 1)]), (56, ops [(70, 1)]), (57, ops [(70, 1), (36, 2)])]

theorem witness_Vector : ∀ x ∈ vecOperands, vCheck run0.desc x.1 x.2 (iterOf run0) = none
    ∧ (∀ n ∈ vReads x.1 x.2 (iterOf run0), slotOf (core0 []) n = .full)
    ∧ ∀ n ∈ vWrites x.1 x.2 (iterOf run0), slotOf (core0 []) n = .empty ∨ slotOf (core0 []) n = .full := by decide

/-- The core after an instruction that `core0`, with the bytes of `b`, is about to issue. -/
def after (i : Instr) (b : List Host.Cell) : Core :=
  match encodeEngine i with
  | some w => (match exec i (oneCore (atWord (core0 b) w)) with | .next t => coreOf t 0 | _ => coreOff)
  | none => coreOff

/-- 1.0 (0x3F800000) and 2.0 (0x40000000) in the first element of A and B. -/
def onePlusTwo : List Host.Cell := [(2, 0x80#8), (3, 0x3F#8), (16387, 0x40#8)]

/-- R150: 1.0 + 2.0 = 3.0 = 0x40400000. -/
theorem test_vadd : readNat (after (.vadd 0#11 hdr0 oVecBD) onePlusTwo).bytes 32768 4 = 0x40400000 := by decide +kernel
/-- R150: 1.0 − 2.0 = −1.0 = 0xBF800000. -/
theorem test_vsub : readNat (after (.vsub 0#11 hdr0 oVecBD) onePlusTwo).bytes 32768 4 = 0xBF800000 := by decide +kernel
/-- R150: the larger of 1.0 and 2.0. -/
theorem test_vmax : readNat (after (.vmax 0#11 hdr0 oVecBD) onePlusTwo).bytes 32768 4 = 0x40000000 := by decide +kernel
/-- R150: the conversion to INT32 (code 11) of 2.0 in slot 1. -/
theorem test_vcvt_int32 : readNat (after (.vcvt 0#11 hdr0 (oVec [(58, 11), (36, 2), (0, 1)])) onePlusTwo).bytes 32768 4 = 2 := by decide +kernel
/-- R151: the sum of 1.0 and 0.0 into scalar register 5. -/
theorem test_vsum : scalarOf (after (.vsum 0#11 hdr0 (oVec [(62, 5)])) onePlusTwo) 5 = 0x3F800000#32 := by decide +kernel
/-- R151: 1.0 × 2.0 + 0 × 0. -/
theorem test_vdot : scalarOf (after (.vdot 0#11 hdr0 (oVec [(18, 1)])) onePlusTwo) 0 = 0x40000000#32 := by decide +kernel
/-- R154: SLOAD fills the scalar registers from T0. -/
theorem test_sload : scalarOf (after (.sload 0#11 hdr0 (ops [(70, 1)])) onePlusTwo) 0 = 0x3F800000#32 := by decide +kernel

/-! ### The select, gather and search engines -/

/-- A row of two FP32 elements in slot 0, the result in slot 2, K of 1; THRESH with its bound in slot 1. -/
def oSel : BitVec 88 := ops [(17, 2), (34, 1), (60, 9)]
def oThresh : BitVec 88 := ops [(17, 2), (34, 1), (60, 9), (67, 1), (69, 1)]

theorem witness_Selections : ∀ x ∈ [(1, oSel), (2, oSel), (3, oThresh)], sCheck run0.desc x.1 x.2 (iterOf run0) = none
    ∧ (∀ n ∈ sReads x.2 (iterOf run0), slotOf (core0 []) n = .full)
    ∧ ∀ n ∈ sWrites x.2 (iterOf run0), slotOf (core0 []) n = .empty ∨ slotOf (core0 []) n = .full := by decide +kernel

def elem (pos : Nat) (v : W32) : SElem := ⟨pos, numOfFp32 v, v.toNat, 0, 0⟩

theorem witness_Topk : ([elem 0 0x3F800000#32, elem 1 0x40000000#32].map (fun e => e.pos)).Nodup
    ∧ ∀ e ∈ [elem 0 0x3F800000#32, elem 1 0x40000000#32], e.val.isNan = false := by decide +kernel

/-- R165, R168: of 1.0 at position 0 and 2.0 at position 1, ARGMAX takes position 1. -/
theorem test_argmax : readNat (after (.argmax 0#11 hdr0 oSel) [(2, 0x80#8), (3, 0x3F#8), (7, 0x40#8)]).bytes (32768 + 64) 4 = 1 := by
  decide +kernel

/-- A module whose core 0 is `k`, with T2 tile 0 FULL and readable through the near cache, and buckets that hold 100,000 bytes. -/
def fullTile : BitVec 512 := BitVec.ofNat 512 (2 + 2 ^ 14)
def bucket0 : Bucket := ⟨100000, 100000, 50000, 50000, 50000⟩
def withT2 (k : Core) : State :=
  { oneCore k with
    media := { Media.reset with tiles := [(0, fullTile)] }, regs := [(0, some ⟨bucket0, bucket0, bucket0, bucket0, bucket0⟩)] }

/-- A table of one row of 32 columns of INT4, at device address 0 (R179); the bag list of slot 1 names row 0 once. -/
def tableCells : List Host.Cell := [(1, 4#8), (16, 1#8), (20, 32#8), (23, 2#8), (24, 32#8)]
def oGather : BitVec 88 := ops [(18, 1), (36, 2), (54, 9)]
def gDesc0 : GDesc := gDesc tableCells (gOp oGather).desc

def coreG : Core := atWord (core0 tableCells) (wordOf 3 1 oGather)

theorem witness_Gpool : issuable (withT2 coreG) (0#11 : CoreId).toNat (runW (wordOf 3 1 oGather)) ⟨3, 1, hdr0, oGather⟩
    ∧ gCheck coreG run0.desc 1 oGather (iterOf run0) = none ∧ (∀ n ∈ gReads oGather (iterOf run0), slotOf coreG n = .full)
    ∧ gDescOk gDesc0 = true ∧ gDesc0.local_ = false
    ∧ gAddrOut (gOp oGather) gDesc0.width (iterOf run0) + gOutLen (gOp oGather) gDesc0.width ≤ 192 * 16384
    ∧ rangeOk run0.desc (gAddrOut (gOp oGather) gDesc0.width (iterOf run0)) (gOutLen (gOp oGather) gDesc0.width) = true
    ∧ versionHeld (withT2 coreG) gDesc0.table gDesc0.version = false
    ∧ (∀ n ∈ slotsOf (gAddrOut (gOp oGather) gDesc0.width (iterOf run0)) (gOutLen (gOp oGather) gDesc0.width),
        slotOf coreG n = .empty ∨ slotOf coreG n = .full)
    ∧ gatherContexts coreG (gOp oGather) gDesc0 (iterOf run0) ≠ []
    ∧ ∀ x ∈ gatherContexts coreG (gOp oGather) gDesc0 (iterOf run0),
        x.row < gDesc0.rows ∧ rowReach (withT2 coreG) run0.desc.glade x.addr gDesc0.stride = true :=
  ⟨issuable_at _ _ _ rfl rfl rfl (by decide), by decide +kernel⟩

/-- A scan descriptor of M = 8 in slot 0, a filter block of zeros in slot 1. -/
def scanCells : List Host.Cell := [(8, 8#8)]
def oOpen : BitVec 88 := ops [(22, 1)]
def openColl : Collector := { collClosed with isOpen := true, k := 1 }

theorem witness_Search : qCheck run0.desc 1 oOpen = none ∧ (∀ n ∈ qReads 1 oOpen, slotOf (core0 scanCells) n = .full)
    ∧ (scanDescAt scanCells (qOpenOp oOpen).desc (qOpenOp oOpen).filt).acl = none
    ∧ scanDescOk scanCells (qOpenOp oOpen).desc (qOpenOp oOpen).filt (scanDescAt scanCells (qOpenOp oOpen).desc (qOpenOp oOpen).filt) = true
    ∧ qCheck run0.desc 2 0#88 = none ∧ (∀ n ∈ qReads 2 0#88, slotOf (core0 []) n = .full)
    ∧ qCheck run0.desc 3 (ops [(4, 2)]) = none ∧ openColl.isOpen = true ∧ openColl.entries.length ≤ openColl.k
    ∧ (qDrainOp (ops [(4, 2)])).out + 64 + 16 * openColl.k ≤ 192 * 16384
    ∧ rangeOk run0.desc (qDrainOp (ops [(4, 2)])).out (64 + 16 * openColl.k) = true
    ∧ (∀ n ∈ slotsOf (qDrainOp (ops [(4, 2)])).out (64 + 16 * openColl.k), slotOf (core0 []) n = .empty ∨ slotOf (core0 []) n = .full)
    ∧ collOf { core0 [] with colls := [(0, openColl)] } (qScanOp 0#88).coll = openColl
    ∧ (qDrainOp (ops [(4, 2)])).coll = (qScanOp 0#88).coll := by decide +kernel

theorem witness_Search_quiet : quiet (oneCore { core0 [] with colls := [(0, openColl)] }) 0 run0 :=
  quiet_one _ _ _ rfl rfl rfl rfl rfl rfl

theorem witness_Collector : openColl.entries.Pairwise (fun a b => heldBefore b a = false) ∧ openColl.entries.length ≤ openColl.k := by decide

/-! ### The copy and cipher engines -/

/-- Unit 7 leads group 1 and is a member of group 2; T2 tile 9 is reachable. -/
def copyState (k : Core) : State :=
  { withT2 k with chip := { (withT2 k).chip with groups := [⟨⟨1, 7, [8]⟩, 0, []⟩, ⟨⟨2, 8, [7]⟩, 0, []⟩] } }

/-- Slot 0 to slot 3; the list in slot 1 to slot 3; 16 bytes of slot 0 to T2 tile 9; slot 0 to slot 3 of group 1; slot 3 of group 2. -/
def oTile : BitVec 88 := ops [(34, 3)]
def oList : BitVec 88 := ops [(0, 1), (18, 3)]
def oPart : BitVec 88 := ops [(18, 9), (65, 1)]
def oCast : BitVec 88 := ops [(34, 3), (49, 1)]
def oRecv : BitVec 88 := ops [(0, 3), (15, 2)]

/-- A core about to issue a C instruction. -/
def coreC (op : Nat) (o : BitVec 88) : Core := atWord (core0 []) (wordOf 5 op o)

def copyList (op : Nat) (o : BitVec 88) : List Copy :=
  match copiesOf (copyState (coreC op o)) (coreC op o) run0.desc o op with | .ok l => l | .error _ => []
def copyMore (op : Nat) (o : BitVec 88) : List Nat :=
  if op = 2 then ((copyList op o).filter (fun c => c.src.tier == 0)).map (fun c => c.src.idx) else []

def copyRun (op : Nat) (o : BitVec 88) :=
  let k := coreC op o
  let f := copyFlightOf k (runW (wordOf 5 op o)) ⟨5, op, hdr0, o⟩ (copyList op o) (copyMore op o)
  startCopies 0 run0.desc f (copyList op o).zipIdx
    (countMatch (setCore (copyState k) 0 { issued k (runW (wordOf 5 op o)) ⟨5, op, hdr0, o⟩ with flights := [f] }) run0.desc o op)
    { issued k (runW (wordOf 5 op o)) ⟨5, op, hdr0, o⟩ with flights := [f] } []

/-- The five instructions on operands of one copy each; CTILE also of a T2 tile. -/
def copyCases : List (Nat × BitVec 88) := [(1, oTile), (1, ops [(32, 1), (34, 3)]), (2, oList), (3, oPart), (4, oCast), (5, oRecv)]

theorem issuable_copy (op : Nat) (o : BitVec 88) (h : wordFields (wordOf 5 op o) = ⟨5, op, hdr0, o⟩) :
    issuable (copyState (coreC op o)) (0#11 : CoreId).toNat (runW (wordOf 5 op o)) ⟨5, op, hdr0, o⟩ := by
  have h2 := issuable_at (copyState (coreC op o)) (core0 []) (wordOf 5 op o) rfl rfl rfl (by rw [h])
  rwa [h] at h2

/-- What `copiesStart` asks of a form, all together. -/
theorem witness_CopiesStart : ∀ x ∈ copyCases, wordFields (wordOf 5 x.1 x.2) = ⟨5, x.1, hdr0, x.2⟩ ∧ cCheck run0.desc x.1 x.2 = none
      ∧ (∀ n ∈ cReads x.1 x.2, slotOf (coreC x.1 x.2) n = .full) ∧ copyList x.1 x.2 ≠ []
      ∧ (∀ c ∈ copyList x.1 x.2, c.state = .held ∧ (x.1 = 4 → c.waits ≠ [])) ∧ (copyRun x.1 x.2).1 = .pass := by decide +kernel

/-- What `copiesComplete` asks of a form, all together. -/
theorem witness_CopiesComplete : ∀ x ∈ copyCases, copiesReady (copyState (coreC x.1 x.2)) (coreC x.1 x.2) run0.desc (copyList x.1 x.2) := by
  have h : ∀ x ∈ copyCases, (copyState (coreC x.1 x.2)).holds = [] ∧ (copyState (coreC x.1 x.2)).media.waits = []
      ∧ (∀ c ∈ copyList x.1 x.2, isReceive c = true ∨ (
          (if c.src.tier = 0 then slotOf (coreC x.1 x.2) c.src.idx = .full
            else reachOk (copyState (coreC x.1 x.2)) 0 (tileKey c.src) false false = true
              ∧ dState (tileDesc (copyState (coreC x.1 x.2)) (tileKey c.src)) = tileFull)
          ∧ (isCast c = false → (if c.dst.tier = 0 then slotOf (coreC x.1 x.2) c.dst.idx = .empty ∨ slotOf (coreC x.1 x.2) c.dst.idx = .full
            else reachOk (copyState (coreC x.1 x.2)) 0 (tileKey c.dst) true false = true
              ∧ dState (tileDesc (copyState (coreC x.1 x.2)) (tileKey c.dst)) ≠ tileFilling))
          ∧ ∀ e ∈ copyList x.1 x.2, e.dst ≠ c.src))
      ∧ (((sumNat ((copyList x.1 x.2).map (copyBytes · 1)) : Nat) : Int) ≤ bucket0.free
        ∧ sumNat ((copyList x.1 x.2).map (copyBytes · 2)) = 0) := by decide +kernel
  intro x hx
  obtain ⟨h1, h2, h3, h4, h5⟩ := h x hx
  exact ⟨h1, h2, h3, .inr ⟨_, rfl, h4⟩, .inl h5⟩

/-- CSETD of slot 3 from the descriptor in slot 0. -/
theorem witness_Csetd : wordFields (wordOf 5 6 (ops [(0, 3)])) = ⟨5, 6, hdr0, ops [(0, 3)]⟩ ∧ cCheck run0.desc 6 (ops [(0, 3)]) = none ∧ ∀ n ∈ cReads 6 (ops [(0, 3)]), slotOf (core0 []) n = .full := by decide +kernel

theorem witness_WholeTile : (0 < t2Tiles) ∧ copiesOpen (core0 []) = [] ∧ (withT2 (core0 [])).media.waits = [] ∧ reachOk (withT2 (core0 [])) 0 0 false false = true
    ∧ dState (tileDesc (withT2 (core0 [])) 0) = 2 ∧ slotOf (core0 []) 3 = .empty
    ∧ (drawTokens (withT2 (core0 [])) 0 .t2 16384 (unitReserved unit0) ⟨0, 0, 0, 0, 0⟩).isSome = true := by decide +kernel

def cipherState (k : Core) : State :=
  { withT2 k with keys := ⟨[(1, some ⟨0#256, 0#256, .object, none, none, 0⟩), (2, some ⟨0#256, 0#256, .passage, none, some 0, 0⟩)],
      [(1, some ⟨⟨0#8, 5#64⟩, 1, 0#96, 16, [0], true⟩)], [(1, some ⟨⟨0#8, 5#64⟩, 1, true, 0, 1⟩)], 0⟩ }

/-! A descriptor that holds a tag, worked out without running the cipher. -/

theorem leBytes_leNat (l : List Byte) : leBytes l.length (leNat l) = l := by
  induction l with
  | nil => rfl
  | cons b t ih =>
    have hb := b.isLt
    have h1 : (b.toNat + 256 * leNat t) / 256 = leNat t := by omega
    have h2 : byteNat (b.toNat + 256 * leNat t) = b := by
      apply BitVec.eq_of_toNat_eq; simp [byteNat]; omega
    show byteNat (b.toNat + 256 * leNat t) :: leBytes t.length ((b.toNat + 256 * leNat t) / 256) = b :: t
    rw [h1, h2, ih]

theorem leNat_lt (l : List Byte) : leNat l < 256 ^ l.length := by
  induction l with
  | nil => decide
  | cons b t ih =>
    have hb := b.isLt
    show b.toNat + 256 * leNat t < 256 ^ (t.length + 1)
    rw [Nat.pow_succ]; omega

theorem fld_low (t lo len : Nat) (h : lo + len ≤ 352) : fld (BitVec.ofNat 512 (t * 2 ^ 352)) lo len = 0 := by
  unfold fld
  rw [BitVec.extractLsb'_toNat, BitVec.toNat_ofNat, Nat.shiftRight_eq_div_pow]
  apply Nat.mod_eq_zero_of_dvd
  apply Nat.dvd_of_mod_eq_zero
  apply Nat.eq_of_testBit_eq
  intro i
  rw [Nat.testBit_mod_two_pow, Nat.testBit_div_two_pow, Nat.testBit_mod_two_pow, Nat.testBit_mul_two_pow]
  simp; omega

theorem fld_tag (t : Nat) (h : t < 2 ^ 128) : fld (BitVec.ofNat 512 (t * 2 ^ 352)) 352 128 = t := by
  unfold fld
  rw [BitVec.extractLsb'_toNat, BitVec.toNat_ofNat, Nat.shiftRight_eq_div_pow]
  apply Nat.eq_of_testBit_eq
  intro i
  rw [Nat.testBit_mod_two_pow, Nat.testBit_div_two_pow, Nat.testBit_mod_two_pow, Nat.testBit_mul_two_pow]
  by_cases hi : i < 128
  · have : i + 352 < 512 := by omega
    simp [hi, this]
  · have : t.testBit i = false := Nat.testBit_lt_two_pow (Nat.lt_of_lt_of_le h (Nat.pow_le_pow_right (by decide) (by omega)))
    simp [hi, this]

theorem aesRounds_length (l : List (List Byte)) : ∀ s, l ≠ [] → (aesRounds l s).length = min 16 (l.getLastD []).length := by
  induction l with
  | nil => intro s h; exact absurd rfl h
  | cons k t ih =>
    intro s _
    cases t with
    | nil => simp [aesRounds, xorBytes, shiftRows]
    | cons k2 t2 => 
      rw [aesRounds, ih _ (by simp)]; simp
      simp

theorem gcmTag_length (n a c : List Byte) : (gcmTag (aesKeys (keyBytes 0#256)) n a c).length = 16 := by
  have h : ∀ b, (aesEncrypt (aesKeys (keyBytes 0#256)) b).length = 16 := by
    intro b
    unfold aesEncrypt
    rw [aesRounds_length _ _ (by decide +kernel)]
    decide +kernel
  unfold gcmTag xorBytes
  rw [List.length_zipWith, h]
  unfold beBytes
  rw [List.length_reverse]
  simp [leBytes]

/-- XDEC of slot 0 into slot 3 with key handle 1; the descriptor of slot 0 gives no length, so only the tag is checked. -/
def oDec : BitVec 88 := ops [(34, 3), (42, 1), (43, 1)]
def emptyTag : List Byte := gcmTag (aesKeys (keyBytes 0#256)) (leBytes 12 0) (tileAad 0 0 0 0) []
def tagDesc : BitVec 512 := BitVec.ofNat 512 (leNat emptyTag * 2 ^ 352)
def coreX : Core := atWord { core0 [] with descs := [(0, tagDesc)] } (wordOf 6 1 oDec)

theorem tagDesc_bit15 : bitOf tagDesc 15 = false := by
  unfold bitOf tagDesc
  rw [BitVec.getLsbD_ofNat, Nat.testBit_mul_two_pow]
  simp

theorem witness_Xdec : issuable (cipherState coreX) 0 (runW (wordOf 6 1 oDec)) (wordFields (wordOf 6 1 oDec))
    ∧ wordFields (wordOf 6 1 oDec) = ⟨6, 1, hdr0, oDec⟩ ∧ (cipherState coreX).media.waits = [] ∧ xCheck run0.desc 1 oDec = none
    ∧ sourceGate (cipherState coreX) coreX run0.desc.glade (xDecOp oDec).src = .pass
    ∧ (xDecOp oDec).ksrc = true ∧ (keyScope (cipherState coreX) run0.desc.glade (xDecOp oDec).key none).isSome = true
    ∧ sourceDesc (cipherState coreX) coreX (xDecOp oDec).src = tagDesc ∧ bitOf tagDesc 15 = false
    ∧ slotOf coreX (xDecOp oDec).slot = .empty ∧ (xDecOp oDec).src.tier ≠ 1
    ∧ (drawTokens (cipherState coreX) run0.desc.glade .t2 0 (unitReserved run0.desc) ⟨0, 0, 0, 0, 0⟩).isSome = true
    ∧ gcmOpen (keyBytes 0#256) (leBytes 12 (fld tagDesc 256 96)) (descAad tagDesc)
        (xSource (cipherState coreX) coreX (xDecOp oDec).src (dLength tagDesc)) (leBytes 16 (fld tagDesc 352 128)) = some [] := by
  refine ⟨issuable_at _ { core0 [] with descs := [(0, tagDesc)] } _ rfl rfl rfl (by decide), by decide, rfl, by decide +kernel, rfl, by decide +kernel, rfl, rfl, tagDesc_bit15, rfl, by decide +kernel, rfl, ?_⟩
  have hl : emptyTag.length = 16 := gcmTag_length _ _ _
  have ht : leNat emptyTag < 2 ^ 128 := by have := leNat_lt emptyTag; rw [hl] at this; exact this
  have h0 : dLength tagDesc = 0 := fld_low _ _ _ (by decide)
  have ha : descAad tagDesc = tileAad 0 0 0 0 := by
    unfold descAad dKind tagDesc
    rw [fld_low _ _ _ (by decide), fld_low _ _ _ (by decide), fld_low _ _ _ (by decide), fld_low _ _ _ (by decide)]
  have hn : fld tagDesc 256 96 = 0 := fld_low _ _ _ (by decide)
  have hg : leBytes 16 (fld tagDesc 352 128) = emptyTag := by
    unfold tagDesc
    rw [fld_tag _ ht]
    have := leBytes_leNat emptyTag
    rwa [hl] at this
  have hx : xSource (cipherState coreX) coreX (xDecOp oDec).src 0 = [] := rfl
  have hc : ∀ k n, gcmCtr k n 2 [] = [] := fun k n => rfl
  rw [h0, ha, hn, hg, hx]
  unfold gcmOpen emptyTag
  simp only [hc, if_true]

/-- XOPEN of tile 0 of object 1 into slot 3; XENC of a byte of slot 0 into slot 3 for tenant 0; XSEAL of a byte of slot 0 to output 1. -/
def oXopen : BitVec 88 := ops [(27, 3), (35, 1)]
def oXenc : BitVec 88 := ops [(8, 3), (30, 2)]
def oXseal : BitVec 88 := ops [(32, 1)]

theorem witness_Xopen : wordFields (wordOf 6 3 oXopen) = ⟨6, 3, hdr0, oXopen⟩ ∧ (cipherState (core0 [])).media.waits = [] ∧ xCheck run0.desc 3 oXopen = none ∧ AMap.get none (cipherState (core0 [])).keys.objects (xOpenOp oXopen).obj
      = some ⟨⟨0#8, 5#64⟩, 1, 0#96, 16, [0], true⟩
    ∧ (xOpenOp oXopen).tile ∈ [0] ∧ sourceGate (cipherState (core0 [])) (core0 []) run0.desc.glade ⟨1, (xOpenOp oXopen).tile⟩ = .pass
    ∧ (keyScope (cipherState (core0 [])) run0.desc.glade 1 none).isSome = true ∧ slotOf (core0 []) (xOpenOp oXopen).slot = .empty
    ∧ (drawTokens (cipherState (core0 [])) run0.desc.glade .t2 16 (unitReserved run0.desc) ⟨0, 0, 0, 0, 0⟩).isSome = true := by decide +kernel

theorem witness_XencXseal : wordFields (wordOf 6 2 oXenc) = ⟨6, 2, hdr0, oXenc⟩ ∧ wordFields (wordOf 6 4 oXseal) = ⟨6, 4, hdr0, oXseal⟩ ∧ xCheck run0.desc 2 oXenc = none ∧ (∀ n ∈ xReads 2 oXenc, slotOf (core0 []) n = .full)
    ∧ slotOf (core0 []) (xEncOp oXenc).dst = .empty
    ∧ (keyScope (cipherState (core0 [])) run0.desc.glade (xEncOp oXenc).key (some (xEncOp oXenc).tenant)).isSome = true
    ∧ xCheck run0.desc 4 oXseal = none ∧ (∀ n ∈ xReads 4 oXseal, slotOf (core0 []) n = .full)
    ∧ (AMap.get none (cipherState (core0 [])).keys.outputs (xSealOp oXseal).desc).isSome = true
    ∧ (drawTokens (cipherState (core0 [])) run0.desc.glade .hostOut (segmentSize (xSealOp oXseal).len) (unitReserved run0.desc)
        ⟨0, 3, 0, 0, 0⟩).isSome = true := by decide +kernel

/-! ### Stops, completions and units -/

/-- Core 0 of a module without spare sites is about to issue a NOP with a reserved bit set. -/
def badHdr : Hdr := { hdr0 with rsvd := 1#5 }
def badWord : W128 := wordOf 15 0 0#88 ||| (1#128 <<< 88)
def noSpares : State :=
  { oneCore (atWord (core0 []) badWord) with chip := { (oneCore (atWord (core0 []) badWord)).chip with fenced := defaultSpares } }

theorem witness_BadWord : partsOf (.nop 0#11 badHdr 0#88) = some (15, 0, badHdr, 0#88)
    ∧ quiet noSpares (coreOfInstr (.nop 0#11 badHdr 0#88)).toNat (runW badWord) ∧ atPc (runW badWord) ⟨15, 0, badHdr, 0#88⟩
    ∧ noSpares.media.waits = [] ∧ waited badHdr = [] ∧ siteOf noSpares 0 = some 0 ∧ quarantineSites noSpares = []
    ∧ noSpares.log.recs.length = 0 :=
  ⟨by decide, quiet_one _ _ _ rfl rfl rfl rfl rfl rfl, ⟨by decide, badWord, rfl, by decide⟩, rfl, by decide, by decide +kernel,
   by decide +kernel, by decide⟩

/-- A flight of MSWAP that signals token 4, done; and one of CTILE with one copy flying from T2 tile 0 into slot 3. -/
def swapFlight : Flight := ⟨0, 0, ⟨0, 2, { hdr0 with sigen := true, sigtok := 4#6 }, 0#88⟩, 0, true, [], [], [], 0, .none⟩
def flying : Copy := ⟨⟨1, 0⟩, ⟨0, 3⟩, .whole, .flying, [], [], 0#512⟩
def tileFlight : Flight := ⟨0, 0, ⟨5, 1, hdr0, 0#88⟩, 0, true, [], [], [], 0, .copies [flying]⟩

theorem witness_Completions : flightDone swapFlight = true ∧ swapFlight.word.engine = engineCode .m
    ∧ othersRest (oneCore { core0 [] with flights := [swapFlight] }) 0
    ∧ tileFlight.work = .copies [flying] ∧ flying.kind = .whole ∧ dState (tileDesc (withT2 { core0 [] with flights := [tileFlight] }) 0) ≠ 3
    ∧ othersRest (withT2 { core0 [] with flights := [tileFlight] }) 0 ∧ locksAsked (oneCore { core0 [] with flights := [swapFlight] })
    ∧ locksAsked (withT2 { core0 [] with flights := [tileFlight] }) ∧ (withT2 { core0 [] with flights := [tileFlight] }).chip.units = [] :=
  ⟨by decide, by decide, othersRest_one _ _ rfl, rfl, rfl, by decide +kernel, othersRest_one _ _ rfl, locks_none _ rfl, locks_none _ rfl, rfl⟩

/-- R87: the completion sets the signal token; R90: the copy's destination is FULL. -/
theorem test_completion_sets_the_token : (match exec (.instructionComplete 0#11 .m .none) (oneCore { core0 [] with flights := [swapFlight] }) with
    | .next t => tokenOf (coreOf t 0) 4 | _ => .idle) = .set := by decide +kernel
theorem test_response_fills_the_slot : (match exec (.memoryResponse 0#11 .c 0 .good) (withT2 { core0 [] with flights := [tileFlight] }) with
    | .next t => slotOf (coreOf t 0) 3 | _ => .empty) = .full := by decide +kernel

/-- A committed unit whose program lies in T2 tile 0, on a module without running cores. -/
def unitState : UnitState := ⟨{ unit0 with program := 0 }, 0, false, 0⟩
def readyState : State := { withT2 (core0 []) with chip := { Chip.reset with units := [unitState] } }

/-- The same with the unit's program loaded ahead on core 0. -/
def aheadState : State :=
  { readyState with chip := { readyState.chip with cores := [(0, { coreOff with ahead := some (7, List.replicate unit0.count 0#128) })] } }

theorem witness_UnitStart : readyState.chip.units.find? (fun x => x.desc.unitId == 7) = some unitState
    ∧ unitReady readyState 0 unitState = true ∧ unitFirst readyState 0 unitState = true ∧ programReach readyState unitState.desc = true
    ∧ poisonedProgram readyState unitState.desc = false ∧ (coreOf readyState 0).ahead = none ∧ programFull readyState unitState.desc = true
    ∧ readyState.holds = [] ∧ aheadState.chip.units.find? (fun x => x.desc.unitId == 7) = some unitState
    ∧ unitReady aheadState 0 unitState = true ∧ unitFirst aheadState 0 unitState = true ∧ programReach aheadState unitState.desc = true
    ∧ poisonedProgram aheadState unitState.desc = false
    ∧ (coreOf aheadState 0).ahead = some (unitState.desc.unitId, List.replicate unitState.desc.count 0#128) := by decide +kernel

theorem witness_UnitStart_tokens : tokensFor readyState unitState.desc.glade .t2 (filledBytes (coreOf readyState 0).near
    (touchRange readyState (coreOf readyState 0).near unitState.desc.program (16 * unitState.desc.count))) :=
  .inr ⟨_, rfl, by decide +kernel⟩

/-- A flight that has not started waits on its engine. -/
def waitingFlight : Flight := { swapFlight with started := false }

theorem witness_StallAndBound : siteOf (oneCore { core0 [] with flights := [waitingFlight] }) 0 = some 0
    ∧ run0.replay = false ∧ stalledFlight { core0 [] with flights := [waitingFlight] } (engineCode .m) = some waitingFlight
    ∧ (oneCore { core0 [] with flights := [waitingFlight] }).chip.clearings = []
    ∧ stallExcused (oneCore { core0 [] with flights := [waitingFlight] }) 0 { core0 [] with flights := [waitingFlight] } waitingFlight = false := by
  decide +kernel

theorem witness_Gating : (core0 []).flights.any (fun f => f.word.engine == 0 && mStepping f) = false
    ∧ (coreOf (oneCore { core0 [] with run := none }) 0).run = none ∧ (coreOf (oneCore { core0 [] with run := none }) 0).power = .issuing
    ∧ nextAssigned (oneCore { core0 [] with run := none }) 0 = none := by
  decide

/-- A running module at rest. -/
def running : State := { State.reset with kt := { Kettle.reset with life := .running, good := true, ready := 0xFFFFFFFFFF#64, complete := true, step := 14 } }

theorem witness_Refill : alive running = true ∧ restAll running ∧ running.under.scans = [] ∧ bucket0.rRes ≤ bucket0.rate
    ∧ bucket0.res ≤ (bucketDepths bucket0).1 ∧ bucket0.free ≤ (bucketDepths bucket0).2 :=
  ⟨by decide, restAll_none _ rfl rfl, rfl, by decide, by decide, by decide⟩

/-! ### Messages: the conditions before a message's own checks, and a module that meets them -/

/-- The state and the context that a message's own checks work on, where none of the cases before them decides it. -/
def ctxOf (s : State) (h : MsgHead) (op : Nat) (rule : SessRule) (recOk : Bool) : Option (State × Ctx) :=
  match takeEntry s h.func h.pair with
  | some (s1, pair, head) =>
    (match sealedStep (chargeBody s1 h) h with
     | (s', true) => (match beforeChecks s s' h op rule recOk true with | .ok x => some (s', ⟨pair, head, x⟩) | .error _ => none)
     | _ => none)
  | none => none

theorem taken_of (s : State) (h : MsgHead) (op : Nat) (rule : SessRule) (recOk : Bool) (s' : State) (c : Ctx)
    (hc : ctxOf s h op rule recOk = some (s', c)) : taken s h op rule recOk s' c := by
  unfold ctxOf at hc
  split at hc
  · split at hc
    · split at hc
      · simp only [Option.some.injEq, Prod.mk.injEq] at hc
        obtain ⟨rfl, rfl⟩ := hc
        exact ⟨_, by assumption, by assumption, by assumption⟩
      · exact nomatch hc
    · exact nomatch hc
  · exact nomatch hc

/-- A message whose taking and whose conditions `p` evaluate to true. -/
theorem taken_with (s : State) (h : MsgHead) (op : Nat) (rule : SessRule) (recOk : Bool) (p : State → Ctx → Bool)
    (hp : (match ctxOf s h op rule recOk with | some x => p x.1 x.2 | none => false) = true) :
    ∃ s' c, taken s h op rule recOk s' c ∧ p s' c = true := by
  split at hp
  · rename_i x hx
    exact ⟨x.1, x.2, taken_of _ _ _ _ _ _ _ hx, hp⟩
  · exact nomatch hp

def keyCred : Cred := ⟨false, 7#256, 0#256, 0⟩
def goodBlob : Blob := ⟨true, false, 7#256, 0#256, 0, 9#256⟩

/-- A Glade of 8 cores. -/
def settings0 : GladeSettings := ⟨0, 8, 64, 2 ^ 40, ⟨1000000, 131072⟩, ⟨1000, 131072⟩, ⟨1000, 65536⟩, ⟨1000, 65536⟩, ⟨1000, 65536⟩⟩

/-- One dense layer of width 64. -/
def params0 : ModelParams :=
  { layers := 1, e := 1, r := 1, firstMoe := 0xFFFF, hidden := 64, ffn := 128, expertFfn := 0, heads := 1, kvHeads := 1, headDim := 64, routed := 0
    active := 0, shared := 0, pooling := 0, norm := 0, dim := 64, vocab := 256, context := 4096, rotary := 0#32, eps := 0#32, act := 0, eos := 0
    coldSlots := 0, rsvd := false }

def vocab0 : Vocab :=
  { magicOk := true, buckets := 1, seed := 0#32, lmax := 1, probe := 1, byteBase := 0
    entries := (List.range 256).map (fun b => ⟨1, [BitVec.ofNat 8 b]⟩), table := [], rsvd := false }

/-- A plan row of 100 µs on one core, 1 W at the lowest point. -/
def row1 (k : PlanKind) (upto : Nat) : PlanRow := ⟨k, upto, 100, [(400, 1)], 100, 1, 1, []⟩

def meta0 : ImageMeta :=
  { magicOk := true, version := 1, headerSize := 128, imageId := 0#128, fingerprint := 5#128, digest := 0#384, slices := 1, slice := 0
    headerRsvd := false, t2 := 0, t3 := 0, size := 0, sections := [], data := [], params := params0, vocab := vocab0
    template := ⟨true, 0, 0, [], false⟩, grammars := [], features := [⟨0, 0, 1, 1, 32, 0, 0#128⟩], tables := [⟨1, 1, 32, 4, 0⟩]
    plan := [row1 .embed 131072, row1 .searchSharded 65536, row1 .rerank 1024, row1 .pack 131072, row1 .prefill 1024, row1 .decode 8192,
      row1 .ingest 4096, row1 .unit 1], maxPower := [], energy := [], kappa := [] }
def image0 : Img := ⟨1, meta0, []⟩

def indexBody : LoadIndexBody :=
  { handle := 3, action := 0#8, residency := 0#8, flags := 0#8, metric := 0#8, ownerTenant := 5, m := 8, codeForm := 0#8, nReg := 1, shardIndex := 0
    shardCount := 1, lam := 1, attrs := 0, coarse := 0#8, pi := fp32One, sigma := fp32One, beta := fp32One, rho := 0#32, fingerprint := 5#128
    dim := 64, residual16 := true, objects := 1, t2bytes := 16384, t3bytes := 0 }

/-- A loaded index of tenant 5, version 1 with one empty state. -/
def version0 : IdxVer := { num := 1, states := [⟨0, []⟩], retained := false, made := 0, wrote := [], tiles := none }
def index0 : Index :=
  { handle := 3, body := indexBody, fp := 5#128, parts := ⟨[], [], [], [], [], [], []⟩, versions := [version0], store := [], filling := none
    current := 1, seqNo := 0, merge := none, threshold := 0, retain := 0, dropped := false, lost := false, keys := [], atRest := 0
    snapshot := none, journal := [] }

/-- A queue pair of 16 places each, vector 1, with one entry to take. -/
def pairOn : Pair := { pairReset with force := ⟨4096#64, 8192#64, 0x10144#64⟩, tail := 1 }

/-- A running module with an owner session (1), an operator session (3) and a session of tenant 5 (2), an image and an index. -/
def host : State :=
  { running with
    power := { Power.reset with points := List.replicate 33 ⟨0, true, false, 0⟩ }
    caddy := ⟨[(0, pairOn), (8, pairOn)], (List.range 9).map (fun f => (f, { funcReset with enabled := true })), [], 0⟩
    glades := ⟨[(0, some ⟨settings0, none, 0, 8, []⟩), (1, some ⟨{ settings0 with glade := 1 }, none, 8, 8, []⟩)], [(8, some ⟨8, 1000000, 10000, 10000, 10000, 10000, 10000, 64⟩)], 98000⟩
    prot := { State.reset.prot with
      store := some ⟨1, some keyCred, [(1, some ⟨1#8, 0x1F#8, keyCred⟩)], [(5, some ⟨0, 0#8, 0xF#8, [3], keyCred, 9#256⟩), (6, some ⟨0, 0#8, 1#8, [], keyCred, 9#256⟩)], policyDefault, none, []⟩
      sessions := [⟨1, 0, 0, 0#8, 1, 0, 0, 0, false, 0⟩, ⟨2, 2, 5, 1#8, 1, 0, 0, 0, false, 0⟩, ⟨3, 1, 1, 1#8, 1, 0, 0, 0, false, 0⟩]
      nextSession := 4 }
    keys := ⟨[(1, some ⟨3#256, 0#256, .session, none, none, 0⟩)], [], [], 0⟩
    images := ⟨some image0, none, [], 1, 1, 2⟩
    idx := ⟨[index0], [], 4⟩
    tabs := { State.reset.tabs with versions := [⟨1, 1, 0, 1, 32, 4, 32, 0#128, 0, 1, true, 0⟩] } }

/-- The same with the turn at the tenant's function (R389). -/
def tenantHost : State := { host with caddy := { host.caddy with turn := 1 } }

/-- The header of an owner's message, plain or sealed, and of a tenant's or operator's. -/
def ownerHead : MsgHead := { head0 with session := 1#32 }
def sealedOwner : MsgHead := { ownerHead with flags := 1#16 }
def tenantHead : MsgHead := { head0 with func := 1#8, session := 2#32 }
def sealedTenant : MsgHead := { tenantHead with flags := 1#16 }

/-- The owner's subfunctions and the condition of each, all met in `host`. -/
theorem witness_OwnerConfigs : ∃ s' c, taken host ownerHead 0x0D .opened false s' c
    ∧ (formOk ownerHead false && c.sess.role == 0 && policyOk s' policyDefault
        && tenantBindOk s' ⟨7, 0, 0#8, 1#8, 0#8, [3]⟩ goodBlob && tenantSetOk s' ⟨5, 0, 0#8, 1#8, 0#8, [3]⟩
        && (tenOf s' 6).isSome && !ownsIndex s' 6 && gladeRemoveOk s' 1 && operBindOk s' ⟨2, 1#8, 1#8, 0#8⟩ goodBlob && operSetOk s' ⟨1, 1#8, 1#8, 0#8⟩ && (operOf s' 1).isSome
        && credSetOk s' 1 1 goodBlob && s'.prot.store.isSome && (resetMac s' c.sess.id).isSome
        && gladeDefineOk s' { settings0 with glade := 2 } && gladeSetOk s' settings0
        && profileValid ⟨9, 1000000, 10000, 10000, 10000, 10000, 10000, 64⟩ && (AMap.get none s'.glades.profiles 8).isSome
        && (loadedIndex s' 3).isSome && indexRight s' c.sess index0) = true :=
  taken_with _ _ _ _ _ _ (by decide +kernel)

/-- FIRMWARE_UPDATE is sealed and runs in recovery mode too. -/
theorem witness_FirmwareUpdate : ∃ s' c, taken host sealedOwner 0x0D .opened true s' c
    ∧ (formOk sealedOwner true && c.sess.role == 0) = true := taken_with _ _ _ _ _ _ (by decide +kernel)

/-- A row of zeros; the owner's table subfunctions. -/
def row0 : RowRecord := ⟨0, 0#16, 0#16, List.replicate 16 0#8⟩
theorem witness_TableConfigs : (∃ s' c, taken host sealedOwner 0x0D .opened false s' c
      ∧ (tableRole s' c.sess && updateForm s' sealedOwner 1 [row0] && decide (s'.tabs.stepRows + 1 ≤ 4096)
          && replaceForm s' sealedOwner 1 4 32 1 && !replaceBusy s' 1) = true)
    ∧ ∃ s' c, taken host ownerHead 0x0D .opened false s' c
      ∧ (tableRole s' c.sess && pinForm s' ownerHead 1 [0] true && pinForm s' ownerHead 1 [0] false) = true :=
  ⟨taken_with _ _ _ _ _ _ (by decide +kernel), taken_with _ _ _ _ _ _ (by decide +kernel)⟩

/-- A HELLO of the owner, the challenge it would leave, and a PROOF of it; CLOSE_SESSION and CANCEL. -/
def hello0 : HelloBody := ⟨0#8, 0#16, 1#256, 0, none, 192⟩
def proofHost : State := { host with prot := { host.prot with challenges := [⟨9, 0, 0, 0#8, 1#256, 2#256, none, false⟩] } }
def proofHead : MsgHead := { head0 with session := 9#32 }

theorem witness_Sessions : (∃ s' c, taken host head0 0x01 .hello true s' c ∧ (helloCheck s' head0 hello0 == none) = true)
    ∧ (∃ s' c, taken proofHost proofHead 0x01 .proof true s' c
        ∧ (formOk proofHead false && (s'.prot.challenges.find? (fun x => x.id == proofHead.session.toNat && x.func == proofHead.func && !x.proved)).isSome
            && !lockedPrincipal s' 0 0 && credOf s' 0 0 == some keyCred && !breach (policyOf s') 0 keyCred) = true)
    ∧ (∃ s' c, taken host ownerHead 0x02 .opened true s' c ∧ formOk ownerHead false = true)
    ∧ ∃ s' c, taken host ownerHead 0x0C .opened false s' c ∧ (formOk ownerHead false && cancelScope s' ownerHead c.sess 1#8 && cancelAllowed s' c.sess ⟨1#8, 5#64⟩) = true :=
  ⟨taken_with _ _ _ _ _ _ (by decide +kernel), taken_with _ _ _ _ _ _ (by decide +kernel), taken_with _ _ _ _ _ _ (by decide +kernel),
   taken_with _ _ _ _ _ _ (by decide +kernel)⟩

/-- R375: a PROOF that differs from the correct one in one bit meets the hypotheses of the wrong PROOF, four failures before it or none. -/
theorem witness_WrongProof (s : State) (ch : Challenge) (k : Cred) : proofOf s ch k.key ≠ proofOf s ch k.key ^^^ 1#256 := by
  intro h
  have h2 := congrArg (fun x => x.getLsbD 0) h
  simp at h2

def defaultParams : ParamObj := ⟨0#32, 0, fp32One, 0#32, fp32One, 0#32, 0, 0, 0#64, 0#8, 0xFFFF#16, false, [], []⟩
def query0 : QueryBody := ⟨3, 0, 1, 1, 1, 4, 8, 0#16, 0, 0, 0, 0, 192, ⟨0#16, 0#8, [], none⟩, 1, defaultParams, ⟨1, true, [65#8]⟩⟩
def ask0 : QueryBody := { query0 with budget := 128, maxNew := 1, ttft := 2000000, interval := 1000000, outLen := 4096 }
def gen0 : GenBody := ⟨128, 1, 1000000, 1000000, 0#16, 1, 4096, defaultParams, ⟨1, true, [65#8]⟩⟩

/-- QUERY, ASK and GENERATE of tenant 5 pass their checks and the strainer. -/
theorem witness_RetrievalAndGeneration :
    (∀ x ∈ [(0x09, query0, false), (0x0B, ask0, true)], ∃ s' c, taken tenantHost sealedTenant x.1 .opened false s' c
      ∧ (match queryChecks s' sealedTenant x.2.1 x.2.2 c.sess with
          | .ok (i, ver, img, p, g) => strain s'
              (queryAsk s' x.2.1 x.2.2 i ver { img with info := planned s' img.info } p g) (isFlash i.body)
              (queryCost s' x.2.1 x.2.2 i { img with info := planned s' img.info } p) == none
          | .error _ => false) = true)
    ∧ ∃ s' c, taken tenantHost sealedTenant 0x0A .opened false s' c
      ∧ (genForm s' sealedTenant gen0 && tenRight s' c.sess 1 && modelCheck s' == none && s'.images.current == some image0
          && sessionGlade s' c.sess == some 0 && coresReady s' && !inSet s'
          && strain s' (genAsk s' gen0 { image0 with info := planned s' image0.info } 0) false
            (!(chunkRows (planned s' image0.info)).isEmpty) == none) = true := by
  refine ⟨fun x hx => ?_, taken_with _ _ _ _ _ _ (by decide +kernel)⟩
  simp only [List.mem_cons, List.not_mem_nil, or_false] at hx
  rcases hx with rfl | rfl <;> exact taken_with _ _ _ _ _ _ (by decide +kernel)

def loadBody0 : LoadModelBody := ⟨0#8, 1#8, 0#8, 0#8, 1, 1073741824, 0⟩
def ingest0 : IngestBody := ⟨3, 512, 0, 0, 16, [⟨2, 0xFFFF#16, 0, 0#32, 0#64, []⟩]⟩
def insert0 : IngestBody := ⟨3, 0, 0, 8, 16, [⟨2, 0xFFFF#16, 0, 0#32, 0#64, []⟩]⟩
def delete0 : DeleteBody := ⟨3, [(0, 5)], 16⟩
def merge0 : MergeBody := ⟨3, 0#8, 0#8, 0#32, 0#32⟩

theorem witness_LoadsAndItems :
    (∃ s' c, taken host sealedOwner 0x03 .opened false s' c ∧ (loadCheck s' sealedOwner loadBody0 c.sess == none) = true)
    ∧ (∃ s' c, taken host sealedOwner 0x04 .opened false s' c ∧ (indexCheck s' sealedOwner { indexBody with handle := 0 } c.sess == none) = true)
    ∧ (∀ x ∈ [(0x05, ingest0, false), (0x06, insert0, true)], ∃ s' c, taken tenantHost sealedTenant x.1 .opened false s' c
      ∧ (match ingestChecks s' sealedTenant x.2.1 x.2.2 c.sess with
          | .ok (i, img, g) => ingestStrain s' x.2.1 x.2.2 i { img with info := planned s' img.info } g == none && x.2.1.items.any (fun e => entryStatus s' c.sess i e == none)
              && s'.reqs.all (fun q => q.id != ⟨sealedTenant.func, sealedTenant.rid⟩)
          | .error _ => false) = true)
    ∧ (∃ s' c, taken tenantHost tenantHead 0x07 .opened false s' c ∧ (loadedIndex s' 3 == some index0 && formOk tenantHead false
        && rangesOk delete0.ranges && decide (16 * delete0.ranges.length ≤ delete0.reportLen) && deleteRight s' c.sess index0 && !index0.lost) = true)
    ∧ ∃ s' c, taken host ownerHead 0x08 .opened false s' c ∧ (mergeCheck s' ownerHead merge0 c.sess == none && loadedIndex s' 3 == some index0) = true := by
  refine ⟨taken_with _ _ _ _ _ _ (by decide +kernel), taken_with _ _ _ _ _ _ (by decide +kernel), fun x hx => ?_,
    taken_with _ _ _ _ _ _ (by decide +kernel), taken_with _ _ _ _ _ _ (by decide +kernel)⟩
  simp only [List.mem_cons, List.not_mem_nil, or_false] at hx
  rcases hx with rfl | rfl <;> exact taken_with _ _ _ _ _ _ (by decide +kernel)

/-- A module ready to join a set, one that is in a set, and one that has lost its store and holds an export. -/
def setBody0 : SetBody := ⟨4, 2, 0, [(0#128, 0#128), (1#128, 0#128)]⟩
def unsetHost : State := { host with images := { host.images with current := none }, idx := ⟨[], [], 4⟩ }
def setHost : State := { host with
  grove := { Grove.reset with state := 2 }, prot := { host.prot with store := host.prot.store.map (fun t => { t with set := some setBody0 }) } }
def lostHost : State := { host with prot := { host.prot with
  store := none, sessions := [], exports := [⟨⟨1, some keyCred, [], [], policyDefault, none, []⟩, [], []⟩] } }

theorem witness_StatusShutdownSetAndRestore :
    (∃ s' c, taken host ownerHead 0x0E .opened true s' c ∧ (formOk ownerHead false && (statusRecords s' c.sess 0 0).isSome && c.pair != 64) = true)
    ∧ (∃ s' c, taken host ownerHead 0x0F .opened true s' c ∧ (formOk ownerHead false && c.sess.role == 0 && c.pair != 64) = true)
    ∧ (∃ s' c, taken host ownerHead 0x10 .opened false s' c ∧ (formOk ownerHead false && c.sess.role == 0 && s'.kt.shut == none) = true)
    ∧ (∃ s' c, taken unsetHost ownerHead 0x0D .opened false s' c ∧ (setFormCheck s' ownerHead setBody0 c.sess == none) = true)
    ∧ (∃ s' c, taken setHost ownerHead 0x0D .opened false s' c ∧ (formOk ownerHead false && c.sess.role == 0 && storedSet s' == some setBody0) = true)
    ∧ ∃ s' c, taken lostHost head0 0x0D .restore true s' c ∧ (formOk head0 false && s'.prot.store == none && decide (s'.kt.vaultCounter ≤ 1)
        && (s'.prot.exports.find? (fun i => i.store.generation == 1)).isSome) = true :=
  ⟨taken_with _ _ _ _ _ _ (by decide +kernel), taken_with _ _ _ _ _ _ (by decide +kernel), taken_with _ _ _ _ _ _ (by decide +kernel),
   taken_with _ _ _ _ _ _ (by decide +kernel), taken_with _ _ _ _ _ _ (by decide +kernel), taken_with _ _ _ _ _ _ (by decide +kernel)⟩

/-! ### Registers, resets, the sideband, the test access port -/

theorem witness_QueueCommit : reached host 0 = true ∧ bitOf (1#64) 0 = true ∧ pairNumber 0 (funcAt host 0).qsel = some 0
    ∧ commitDisagrees 0 (pairAt host 0).shadow = false ∧ inflight host 0 = 0 := by decide +kernel

def record0 : Completion := ⟨1#64, 1#32, 0, 0, 0, 0, 0, 0#320⟩
def heldHost : State := setPair host 0 { pairOn with cqTail := 15, held := [record0] }

/-- Doorbells below the ring's 16 places, at them, and with a record held while the ring is full. -/
theorem witness_Doorbells : (pairAt host 0).active = true ∧ fld 15#64 0 12 < (pairAt host 0).sqSize ∧ (pairAt host 0).sqSize ≤ fld 16#64 0 12
    ∧ (pairAt host 0).cqSize ≤ fld 16#64 0 12 ∧ fld 15#64 0 12 < (pairAt host 0).cqSize ∧ (pairAt host 0).held = []
    ∧ reached heldHost 0 = true ∧ (pairAt heldHost 0).active = true ∧ (pairAt heldHost 0).held = [record0]
    ∧ fld 1#64 0 12 < (pairAt heldHost 0).cqSize ∧ ((pairAt heldHost 0).cqTail + 1) % (pairAt heldHost 0).cqSize ≠ fld 1#64 0 12 := by decide +kernel

/-- R389: the doorbell that frees a place writes the held record at place 15. -/
theorem test_cqdb_writes_held : (match exec (.cdCqdb 0#8 0 1#64) heldHost with | .next t => t.host.head? | _ => none)
    = some (.record 0 15 true record0) := by decide +kernel

/-- R418: 1,200 ≤ 1,200 ≤ 3,000 holds; 1,199 does not. -/
def limits (sust peak : Nat) : State := { host with power := { host.power with sustShadow := sust, peakShadow := peak } }
theorem witness_PowerCommit : kettlePowered host = true ∧ bitOf 1#64 0 = true := by decide
theorem test_power_commit : (match exec (.pwCommit 1#64) (limits 1200 3000) with | .next t => t.changes | _ => []) = [.power 1200 3000]
    ∧ (match exec (.pwCommit 1#64) (limits 1199 3000) with | .next t => t.power.disagree | _ => false) = true := by decide +kernel

theorem witness_RegisterWrites : reached host 0 = true ∧ reached host 1 = true ∧ (1#8 : Byte) ≠ 0#8 ∧ reached State.reset 0 = false := by
  decide +kernel

theorem witness_BlockResets : alive host = true ∧ host.rc.block = none
    ∧ { host with rc := ⟨false, false, false, some (1, 4, 0)⟩ }.rc.block = some (1, 4, 0)
    ∧ { host with rc := ⟨false, false, false, some (2, 4, 1)⟩ }.rc.block = some (2, 4, 1) := by decide +kernel

/-- A core, a port, a T2 channel and a flash channel that are there; a core and a channel that are not. -/
theorem test_block_named : blockNamed host 1 511 0 = true ∧ blockNamed host 1 512 0 = false ∧ blockNamed host 4 383 0 = true
    ∧ blockNamed host 4 384 0 = false := by decide +kernel

def fencedHost : State := { host with chip := { host.chip with fenced := [100] } }
def notReady : State := { running with kt := { running.kt with ready := 1#64 } }
def unraised : State := setPair host 0 { pairOn with unraised := 2 }
theorem witness_RequestsInterrupts : kettlePowered notReady = true ∧ readyBit notReady 2 = false ∧ kettlePowered host = true ∧ readyBit host 2 = true
    ∧ (funcAt host 8).enabled = true ∧ (pairAt unraised 0).unraised ≠ 0 ∧ reached fencedHost 0 = true ∧ alive fencedHost = true
    ∧ fencedHost.kt.life ≠ .recovery ∧ fencedHost.bi.testing = none ∧ (100#10 : BitVec 10).toNat ∈ fencedHost.chip.fenced := by decide +kernel

/-- The last byte that the submission buffer holds, and one more. -/
theorem witness_Sideband : kettlePowered host = true ∧ sideReg 0x118 = true ∧ (0x118 ≠ 0x220) ∧ host.side.running = false ∧ host.side.reply = []
    ∧ host.side.buffer.length + 1 ≤ 65536 ∧ 65536 < (List.replicate 65536 (0#8 : Byte)).length + 1
    ∧ { host.side with alert := true }.alert = true := by
  refine ⟨by decide, by decide, by decide, by decide, by decide, by decide, ?_, by decide⟩
  rw [List.length_replicate]; decide

theorem witness_Tap : kettlePowered host = true ∧ alive host = true ∧ readyBit host 3 = true := by decide +kernel

/-! ### Starts, recoveries, stops of the rails -/

def heldState : State := { State.reset with kt := { Kettle.reset with life := .held, good := true } }
def perstState : State := { State.reset with kt := { Kettle.reset with life := .kettleOnly, good := true } }

/-- A module at delivery, one held by MRST_N and one with PERST_N asserted. -/
theorem witness_ColdStarts : ∀ s ∈ [State.reset, heldState, perstState], s.kt.journal.fails < 3 ∧ s.kt.running = false ∧ s.kt.unorderly = false
    ∧ s.kt.bist.fresh = false ∧ controllersUp s (cleanReport s) ≠ [] := by decide +kernel
theorem witness_ColdStartCases : State.reset.kt.good = false ∧ State.reset.kt.latch = false ∧ State.reset.kt.life ≠ .held
    ∧ heldState.kt.life = .held ∧ heldState.kt.good = true ∧ perstState.kt.life = .kettleOnly ∧ perstState.kt.good = true
    ∧ perstState.pins.perst = true := by decide

/-- R492, R498: the first start from delivery completes all 14 steps. -/
theorem test_first_start : (match exec (.powerGoodAssert []) State.reset with | .next t => (t.kt.life, t.kt.step, t.kt.cause) | _ => (.off, 0, 0))
    = (.running, 14, 1) := by decide +kernel

theorem witness_Recoveries : host.kt.life = .running ∧ clearingNow host = false ∧ host.kt.journal.fails < 3 ∧ host.kt.bist.fresh = false
    ∧ controllersUp host (cleanReport host) ≠ [] := by decide +kernel

theorem witness_RailStops : host.kt.good = true ∧ host.kt.life ≠ .held ∧ host.kt.life ≠ .off ∧ host.kt.life ≠ .kettleOnly
    ∧ (1150 : Int) ≤ 1150 ∧ 62000 < 62001 ∧ 72000 ≤ 72000 ∧ 72000 < 72001 := by decide

/-- R531: 72,000 mV is within the ratings, 72,001 mV is not. -/
theorem test_overvoltage : (match exec (.overvoltageStop 72000) host with | .next t => t.kt.latch | _ => false) = true
    ∧ exec (.overvoltageStop 72001) host = .fault .damaged := by
  constructor
  · decide +kernel
  · rfl

def linkDownHost : State := { host with kt := { host.kt with ready := host.kt.ready &&& ~~~8#64 }, pins := { host.pins with perst := false } }
theorem witness_LinkResets : alive host = true ∧ readyBit host 3 = true ∧ host.changes = [] ∧ alive linkDownHost = true
    ∧ linkDownHost.pins.perst = false ∧ readyBit linkDownHost 3 = false ∧ linkDownHost.tap.cut = false ∧ linkDownHost.changes = []
    ∧ 1000 < host.glades.hostCap := by decide +kernel

/-! ### Conditions of the module, expiries, limits of a set -/

theorem witness_Conditions : host.power.warning = false ∧ (1000 : Int) ≤ 1000 ∧ (950 : Int) ≤ 950 ∧ (850 : Int) ≤ 850 ∧ host.kt.life ≠ .off
    ∧ host.kt.fallback = false ∧ alive host = true ∧ 2 ∈ [1, 2] ∧ 2 ≤ [1, 2].length ∧ idleNow running = true ∧ 527 < 528 ∧ 189 ≤ 189
    ∧ host.kt.life = .running := by decide +kernel

def slowSite : State := { host with power := { host.power with worst := [(2, 11)] } }
theorem witness_SkipPersist : alive slowSite = true ∧ 2 ∉ slowSite.chip.fenced ∧ slackOf slowSite 2 < 12 ∧ coreAt slowSite 2 = some 1
    ∧ (coreOf slowSite 1).run = none := by decide +kernel

def pendingReq : Req := ⟨⟨0#8, 77#64⟩, 0, 1, 0, 0x0D, none, none, 0, 0, .config (.setDissolve ownerHead 4)⟩
theorem witness_Expiries : (∃ x ∈ host.prot.sessions, x.id = (1#32 : W32).toNat) ∧ host.changes = [] ∧ host.reqs = []
    ∧ (∃ q ∈ { host with reqs := [pendingReq] }.reqs, q.session = (1#32 : W32).toNat) ∧ heldIndex host 3 = some index0 := by decide +kernel

def withJob (s : State) (j : Job) : State := { s with reqs := [{ pendingReq with job := j }] }
def loadJob0 : LoadJob := ⟨loadBody0, false, 0, false, none, false, []⟩
def merge1 : Merge :=
  { req := none, target := 0, snapshot := false, tombFrac := 0#32, liveFrac := 0#32, t2 := 0, t3 := 0, snap := some [], log := [], committed := false
    built := [], fresh := [], lists := 0, moved := 0, made := 0 }
def setIndex : Index := { index0 with body := { indexBody with shardCount := 2 }, merge := some merge1 }
def mergeHost : State := { host with idx := ⟨[setIndex], [], 4⟩ }

theorem witness_SetTimeouts : { host.grove with forming := some ⟨⟨0#8, 77#64⟩, setBody0, [], none⟩ }.forming.isSome = true
    ∧ reqOf (withJob setHost (.load loadJob0)) ⟨0#8, 77#64⟩ = some { pendingReq with job := .load loadJob0 } ∧ inSet (withJob setHost (.load loadJob0)) = true
    ∧ reqOf (withJob setHost (.table (.hotPin ownerHead 1 [0]) [])) ⟨0#8, 77#64⟩ = some { pendingReq with job := .table (.hotPin ownerHead 1 [0]) [] }
    ∧ inSet (withJob setHost (.table (.hotPin ownerHead 1 [0]) [])) = true ∧ setHost.tabs.applying = []
    ∧ heldIndex mergeHost 3 = some setIndex ∧ setIndex.merge = some merge1 ∧ setIndex.body.shardCount ≠ 1 ∧ merge1.req = none := by decide +kernel

/-! ### Loads, items, merges, tables -/

def rid0 : ReqId := ⟨0#8, 77#64⟩

/-! An image of one dense layer: its sections' bytes, and the records that they hold. -/

/-- The 128 bytes of MODEL_PARAMS (R55). -/
def paramBytes : List Byte :=
  leBytes 2 1 ++ leBytes 2 1 ++ leBytes 2 1 ++ leBytes 2 0xFFFF ++ leBytes 4 512 ++ leBytes 4 128 ++ leBytes 4 0 ++ leBytes 2 8 ++ leBytes 2 8
    ++ leBytes 2 64 ++ leBytes 2 0 ++ leBytes 4 0 ++ leBytes 4 64 ++ leBytes 4 257 ++ leBytes 4 1024 ++ leBytes 12 0 ++ leBytes 4 256
    ++ List.replicate 68 0#8
def imageParams : ModelParams :=
  { layers := 1, e := 1, r := 1, firstMoe := 0xFFFF, hidden := 512, ffn := 128, expertFfn := 0, heads := 8, kvHeads := 8, headDim := 64, routed := 0
    active := 0, shared := 0, pooling := 0, norm := 0, dim := 64, vocab := 257, context := 1024, rotary := 0#32, eps := 0#32, act := 0, eos := 256
    coldSlots := 0, rsvd := false }

/-- VOCAB (R337, R338): 1,024 empty buckets, the 256 bytes and one special token, a pool of the 256 bytes. -/
def vocabHead : List Byte :=
  strBytes "HXVOCAB1" ++ leBytes 4 257 ++ leBytes 4 1024 ++ leBytes 4 0 ++ [1#8, 1#8, 0#8, 0#8] ++ leBytes 4 0 ++ leBytes 4 64 ++ leBytes 4 8256
    ++ leBytes 4 10320 ++ leBytes 4 256 ++ List.replicate 20 0#8
def bucketBytes (_ : Unit) : List Byte := leBytes 4 0xFFFFFFFF ++ leBytes 4 0
def tokenBytes (i : Nat) : List Byte := leBytes 4 i ++ [if i < 256 then 1#8 else 0#8, if i < 256 then 1#8 else 2#8, 0#8, 0#8]
def vocabTail : List Byte := (List.range 257).flatMap tokenBytes ++ (List.replicate 8 0#8 ++ (List.range 256).map byteNat)
def vocabBytes : List Byte := vocabHead ++ ((List.replicate 1024 ()).flatMap bucketBytes ++ vocabTail)
def imageVocab : Vocab :=
  ⟨true, 1024, 0#32, 1, 1, 0, (List.range 256).map (fun b => ⟨1, [byteNat b]⟩) ++ [⟨2, []⟩], List.replicate 1024 (0xFFFFFFFF, 0, 0), false⟩

/-- TEMPLATE (R357): one passage, run 6 of token 0. -/
def templateBytes : List Byte :=
  strBytes "HXTMPL01" ++ leBytes 4 1 ++ leBytes 4 0 ++ List.replicate 48 0#8 ++ (leBytes 4 128 ++ leBytes 4 1) ++ List.replicate 56 0#8 ++ leBytes 4 0
def imageTemplate : Template := ⟨true, 1, 0, [[], [], [], [], [], [], [0], [], []], false⟩

/-- The sections' bytes behind the section table, each at a tile boundary of the image: types 1, 9, 10, 6 and 4. -/
def imageData : List Byte :=
  List.replicate 15968 0#8 ++ (paramBytes ++ (List.replicate 16256 0#8 ++ (vocabBytes ++ (List.replicate 5808 0#8 ++ (templateBytes
    ++ (List.replicate 16252 0#8 ++ (leBytes 4 0 ++ (List.replicate 16380 0#8 ++ List.replicate 81920 0#8))))))))

/-- A section without its CRC. -/
def sec (t : Nat) : Section :=
  { type := t, flags := 0#16, locator := 0#32
    offset := if t = 9 then 32768 else if t = 10 then 49152 else if t = 6 then 65536 else if t = 4 then 81920 else 16384
    size := if t = 1 then 128 else if t = 9 then 10576 else if t = 10 then 132 else if t = 6 then 4 else if t = 4 then 81920 else 0
    placement := if t = 9 then 2 else if t = 1 ∨ t = 10 ∨ t = 12 then 3 else 0, format := if t = 4 then 6 else 0, reserved := 0#16, crc := 0#32 }
def crcd (x : Section) : Section := { x with crc := crc32 (bytesOfSection 416 imageData x) }
def imageSections : List Section := [1, 2, 4, 5, 6, 7, 9, 10, 12].map (fun t => crcd (sec t))

def goodMeta : ImageMeta :=
  { magicOk := true, version := 1, headerSize := 128, imageId := 0#128, fingerprint := fingerprintOf imageSections imageData imageParams
    digest := imageDigest imageSections imageData, slices := 1, slice := 0, headerRsvd := false, t2 := 81924, t3 := 0, size := 163840
    sections := imageSections, data := imageData, params := imageParams, vocab := imageVocab, template := imageTemplate, grammars := []
    features := [], tables := [⟨0, 257, 512, 4, 0⟩], plan := [], maxPower := [], energy := [], kappa := [(0, 0)] }

theorem recordsAt_flatMap {α : Type} (f : α → List Byte) (n : Nat) (hn : ∀ x, (f x).length = n) :
    ∀ (l : List α) (a b : List Byte), recordsAt (a ++ (l.flatMap f ++ b)) a.length n l.length = l.map f := by
  intro l
  induction l with
  | nil => intro a b; rfl
  | cons x r ih =>
    intro a b
    have h := ih (a ++ f x) b
    simp only [recordsAt, List.flatMap_cons, List.append_assoc, List.length_append, hn] at h ⊢
    rw [List.length_cons, List.range_succ_eq_map, List.map_cons, List.map_map, List.map_cons]
    refine List.cons_eq_cons.mpr ⟨?_, ?_⟩
    · simp [List.take_left' (hn x)]
    · rw [← h]
      refine List.map_congr_left (fun i _ => ?_)
      show List.take n (List.drop (a.length + (i + 1) * n) _) = _
      rw [show a.length + (i + 1) * n = a.length + n + i * n by rw [Nat.add_mul]; omega]

/-- The bytes of a section that stands behind `a` in the data. -/
theorem section_at (a b c : List Byte) (x : Section) (ha : a.length = x.offset - 416) (hb : b.length = x.size) :
    bytesOfSection 416 (a ++ (b ++ c)) x = b := by
  unfold bytesOfSection
  rw [List.drop_left' ha, List.take_left' hb]

theorem tokenBytes_length (i : Nat) : (tokenBytes i).length = 8 := rfl

theorem readVocab_image : readVocab vocabBytes = imageVocab := by
  have hb : recordsAt vocabBytes 64 8 1024 = (List.replicate 1024 ()).map bucketBytes := by
    have h := recordsAt_flatMap bucketBytes 8 (fun _ => rfl) (List.replicate 1024 ()) vocabHead vocabTail
    rw [List.length_replicate] at h
    exact h
  have he : recordsAt vocabBytes 8256 8 257 = (List.range 257).map tokenBytes := by
    have h := recordsAt_flatMap tokenBytes 8 tokenBytes_length (List.range 257) (vocabHead ++ (List.replicate 1024 ()).flatMap bucketBytes)
      (List.replicate 8 0#8 ++ (List.range 256).map byteNat)
    have hl : (vocabHead ++ (List.replicate 1024 ()).flatMap bucketBytes).length = 8256 := by decide +kernel
    rw [hl, List.length_range, List.append_assoc] at h
    exact h
  have hf : (fieldAt vocabBytes 28 4, fieldAt vocabBytes 12 4, fieldAt vocabBytes 32 4, fieldAt vocabBytes 8 4, fieldAt vocabBytes 36 4,
      fieldAt vocabBytes 40 4) = (64, 1024, 8256, 257, 10320, 256) := by decide +kernel
  simp only [Prod.mk.injEq] at hf
  obtain ⟨h28, h12, h32, h8, h36, h40⟩ := hf
  unfold readVocab
  simp only [h28, h12, h32, h8, h36, h40, hb, he]
  decide +kernel

theorem readParams_image : readParams paramBytes = imageParams := by decide +kernel
theorem readTemplate_image : readTemplate templateBytes = imageTemplate := by decide +kernel

theorem imageData_length : imageData.length = 163424 := by
  have h1 : paramBytes.length = 128 := by decide +kernel
  have h9 : vocabBytes.length = 10576 := by decide +kernel
  have h10 : templateBytes.length = 132 := by decide +kernel
  have h6 : (leBytes 4 0).length = 4 := by decide
  simp only [imageData, List.length_append, List.length_replicate, h1, h9, h10, h6]

/-- The data before and behind the section at 32768, at 49152 and at 65536. -/
theorem section_vocab : bytesOfSection 416 imageData (crcd (sec 9)) = vocabBytes := by
  have h1 : paramBytes.length = 128 := by decide +kernel
  have h9 : vocabBytes.length = 10576 := by decide +kernel
  unfold imageData
  rw [← List.append_assoc, ← List.append_assoc]
  exact section_at _ _ _ _ (by simp only [List.length_append, List.length_replicate, h1]; rfl) h9

theorem section_params : bytesOfSection 416 imageData (crcd (sec 1)) = paramBytes := by
  unfold imageData
  exact section_at _ _ _ _ (by rw [List.length_replicate]; rfl) (by decide +kernel)

theorem section_template : bytesOfSection 416 imageData (crcd (sec 10)) = templateBytes := by
  have h1 : paramBytes.length = 128 := by decide +kernel
  have h9 : vocabBytes.length = 10576 := by decide +kernel
  have h10 : templateBytes.length = 132 := by decide +kernel
  unfold imageData
  rw [← List.append_assoc, ← List.append_assoc, ← List.append_assoc, ← List.append_assoc]
  exact section_at _ _ _ _ (by simp only [List.length_append, List.length_replicate, h1, h9]; rfl) h10

theorem section_features : bytesOfSection 416 imageData (crcd (sec 6)) = leBytes 4 0 := by
  have h1 : paramBytes.length = 128 := by decide +kernel
  have h9 : vocabBytes.length = 10576 := by decide +kernel
  have h10 : templateBytes.length = 132 := by decide +kernel
  unfold imageData
  rw [← List.append_assoc, ← List.append_assoc, ← List.append_assoc, ← List.append_assoc, ← List.append_assoc, ← List.append_assoc]
  exact section_at _ _ _ _ (by simp only [List.length_append, List.length_replicate, h1, h9, h10]; rfl) (by decide)

theorem image_records : recordsRead goodMeta = true := by
  have h1 : sectionsOfType goodMeta 1 = [crcd (sec 1)] := rfl
  have h6 : sectionsOfType goodMeta 6 = [crcd (sec 6)] := rfl
  have h9 : sectionsOfType goodMeta 9 = [crcd (sec 9)] := rfl
  have h10 : sectionsOfType goodMeta 10 = [crcd (sec 10)] := rfl
  have h11 : sectionsOfType goodMeta 11 = [] := rfl
  have b1 : sectionBytes goodMeta (crcd (sec 1)) = paramBytes := section_params
  have b6 : sectionBytes goodMeta (crcd (sec 6)) = leBytes 4 0 := section_features
  have b9 : sectionBytes goodMeta (crcd (sec 9)) = vocabBytes := section_vocab
  have b10 : sectionBytes goodMeta (crcd (sec 10)) = templateBytes := section_template
  have p : goodMeta.params = imageParams := rfl
  have v : goodMeta.vocab = imageVocab := rfl
  have t : goodMeta.template = imageTemplate := rfl
  have f : (featureList goodMeta.features).isSuffixOf (leBytes 4 0) = true := by decide +kernel
  have z : ((crcd (sec 1)).size == 128) = true := rfl
  simp only [recordsRead, h1, h6, h9, h10, h11, List.all_cons, List.all_nil, List.zip_nil_left, b1, b6, b9, b10, p, v, t, f, z, readParams_image,
    readVocab_image, readTemplate_image, beq_self_eq_true, Bool.and_self]

theorem image_crcs : crcsMatch goodMeta = true := by
  unfold crcsMatch
  rw [List.all_eq_true]
  intro x hx
  obtain ⟨n, _, rfl⟩ := List.mem_map.mp (show x ∈ [1, 2, 4, 5, 6, 7, 9, 10, 12].map (fun t => crcd (sec t)) from hx)
  exact beq_self_eq_true _

theorem image_extent : extentOk goodMeta = true := by
  have h : goodMeta.data.length = 163424 := imageData_length
  unfold extentOk
  rw [h]
  decide +kernel

def imageBody0 : LoadModelBody := { loadBody0 with t2 := 81924 }
def loadReady : LoadJob := { loadJob0 with body := imageBody0, oldFreed := true }
def loadHost : State := withJob host (.load loadReady)

theorem image_sections : sectionsOk loadHost goodMeta = true := by
  unfold sectionsOk
  rw [image_crcs, image_extent, image_records]
  decide +kernel

/-- R68: the image passes checks 8 to 12. -/
theorem witness_ContentCheck : contentCheck loadHost loadReady (loadedImage loadHost loadReady.body goodMeta) = none := by
  have h0 : loadedImage loadHost loadReady.body goodMeta = goodMeta := rfl
  have h8 : (goodMeta.magicOk && goodMeta.version == 1 && goodMeta.headerSize == 128 && !goodMeta.headerRsvd && goodMeta.t2 == loadReady.body.t2
      && goodMeta.t3 == loadReady.body.t3 && goodMeta.slices == memberCount loadHost && goodMeta.slice == memberIndex loadHost) = true := by
    decide +kernel
  have h10 : paramsFit goodMeta = true := by decide +kernel
  have h11 : goodMeta.digest = imageDigest goodMeta.sections goodMeta.data := rfl
  have h12 : goodMeta.fingerprint = fingerprintOf goodMeta.sections goodMeta.data goodMeta.params := rfl
  unfold contentCheck
  rw [h0, h8, image_sections, h10, ← h11, ← h12, bne_self_eq_false, bne_self_eq_false, Bool.and_false]
  rfl

def tile9 : TileImage := ⟨9, fullTile, [1#8]⟩
def loadIndexHost (b : LoadIndexBody) : State := withJob host (.index b 3 false)
def codebook0 : List (List (List W32)) := List.replicate 8 (List.replicate 256 (List.replicate 8 0#32))

/-- The one W-tile of a coarse matrix of 64 columns. -/
def coarse0 : WTile := ⟨List.replicate 8192 0#8, List.replicate (recordSize 0 false) 0#8⟩
def parts0 : IndexParts := ⟨[coarse0], [[coarse0]], [], [], [], codebook0, codebook0⟩

/-- A load from the host, and one from the image store; an image with another T2 size fails check 8. -/
theorem witness_Loads : loadJob loadHost rid0 = some ({ pendingReq with job := .load loadReady }, loadReady)
    ∧ loadReady.body.source = 0#8 ∧ tilePopulated loadHost tile9.key = true ∧ dState (tileDesc loadHost tile9.key) = 0
    ∧ (loadJob (withJob host (.load { loadReady with body := { imageBody0 with source := 1#8 } })) rid0).isSome = true
    ∧ contentCheck loadHost loadReady (loadedImage loadHost loadReady.body { goodMeta with t2 := 0 }) = some 8 := by decide +kernel

theorem witness_LoadIndexParts : parts0 = indexPartsOf ⟨[coarse0], []⟩ ⟨[[coarse0]], [], []⟩ codebook0 codebook0 := rfl

theorem witness_LoadIndex : (∀ b ∈ [indexBody, { indexBody with action := 1#8 }], reqOf (loadIndexHost b) rid0 = some { pendingReq with job := .index b 3 false }
      ∧ heldIndex (loadIndexHost b) 3 = some index0)
    ∧ componentsOk indexBody parts0 = true ∧ componentsOk indexBody { parts0 with regions := [] } = false := by
  decide +kernel

def itemOf (text : Option (List Byte)) (staged : Option (List IRec)) : ItemState :=
  { entry := ⟨2, 0xFFFF#16, 0, 0#32, 0#64, []⟩, status := none, text := text, fileType := [], path := [], truncated := false, staged := staged
    accepted := false, first := 0, key := 0 }
def itemsHost (x : ItemState) : State := withJob host (.items false ingest0 1 [x])

/-- An item of one byte, its text read; its passages are staged on an index whose passage key is drawn with it. -/
def itemRead : ItemState := itemOf (some [65#8]) none
def itemPassage : List (List Nat) := passagesOf meta0 ingest0 [65#8]
def itemKeyed : State × Index := passageKey (itemsHost itemRead) index0 itemRead.entry.tenant.toNat

theorem witness_Items : reqOf (itemsHost (itemOf none none)) rid0 = some { pendingReq with job := .items false ingest0 1 [itemOf none none] }
    ∧ (0 ≤ 32 ∧ 4095 ≤ 4095) ∧ [65#8].length ≤ maxItem ∧ heldIndex (itemsHost itemRead) 3 = some index0
    ∧ imageOf (itemsHost itemRead) 1 = some image0 ∧ earlierDone [itemRead] 0 = true ∧ itemPassage ≠ []
    ∧ (itemFragments itemKeyed.2 meta0 itemRead itemPassage).all recordFits = true
    ∧ itemFits (itemsHost itemRead) index0 itemPassage.length (itemPlacing itemKeyed.1 itemKeyed.2 meta0 itemRead itemPassage).2 = true
    ∧ (itemOf (some [65#8]) (some [])).staged.isSome = true ∧ (itemOf (some [65#8]) (some [])).accepted = false
    ∧ unitStands (itemsHost itemRead) 9 = false := by decide +kernel

theorem witness_Merges : heldIndex mergeHost 3 = some setIndex ∧ setIndex.merge = some merge1 ∧ merge1.snap = some [] ∧ merge1.committed = false
    ∧ unitStands mergeHost 9 = false := by
  decide +kernel

/-- R297: of a live and a tombstoned record of the Thicket, the merge into list 0 keeps the live one. -/
theorem test_merge_drops_the_dead : ((buildMerge index0 merge1
    [⟨4, none, 5, 0, [], List.replicate 8 0, 0, List.replicate 64 0, false⟩, ⟨5, none, 5, 0, [], List.replicate 8 0, 0, List.replicate 64 0, true⟩]).1.map
      (fun x => (x.pid, x.tomb))) = [(4, false)] := by decide +kernel

def sampledHost : State := { host with tabs := { host.tabs with samples := [(0, 0)] } }
def copying : HotRow :=
  { stride := 32, offset := 0, pinned := false, since := 0, keep := [], share := 0, below := 0, repl := .copying :: List.replicate 11 .absent
    lock := [.copy 0], leaving := false, grace := [] }
def copyingHost : State := { host with tabs := { host.tabs with hot := [(0, some copying)] } }
theorem witness_HotRows : sampledHost.tabs.hot = [] ∧ (∀ x ∈ sampledHost.tabs.samples, x.2 = 0)
    ∧ (∃ x ∈ sampledHost.tabs.samples, sampledHost.time < x.1 + 1000000) ∧ strideAt sampledHost 0 = some 32 ∧ rowSpace 32 ≤ 2 ^ 27
    ∧ sampledHost.media.channels = [] ∧ copying.leaving = false
    ∧ hotAt copyingHost 0 = some copying ∧ copying.lock.head? = some (.copy 0) ∧ .copy 0 ∉ copying.lock.tail
    ∧ copying.repl[0]? = some .copying := by decide +kernel

/-- R192, R195: the promoted row's first replica is being copied; the copy that is done is valid. -/
theorem test_hot_row : (match exec .hotRowRank sampledHost with | .next t => (hotAt t 0).map (fun e => e.repl.head?) | _ => none) = some (some .copying)
    ∧ (match exec (.replicaCopyDone 0 0) copyingHost with | .next t => (hotAt t 0).map (fun e => e.repl.head?) | _ => none)
      = some (some .valid) := by decide +kernel

def applying0 : Apply := ⟨1, 1, rid0, [row0], 0, true⟩
def applyHost : State := { withJob host (.table (.tableUpdate sealedOwner 1 [row0]) []) with tabs := { host.tabs with applying := [applying0] } }
def replace0 : Replace := ⟨rid0, 1, 4, 32, 1, 0, 16384, none⟩
def replaceHost : State := { host with tabs := { host.tabs with replaces := [replace0] } }
/-- A leaving entry still being copied stands where the new version's pinned row has its home. -/
def blockedHost : State := { replaceHost with tabs := { replaceHost.tabs with hot := [(0, some { copying with leaving := true })] } }

theorem witness_TableChanges : applyHost.tabs.applying.filter (fun a => a.table == 1) = [applying0] ∧ applyReady applyHost applying0 = true
    ∧ applyHost.chip.cores = [] ∧ (applyHost.tabs.versions.find? (fun v => v.table == 1 && v.version == 1)).isSome = true
    ∧ hotAt applyHost 0 = none ∧ (reqOf applyHost rid0).isSome = true
    ∧ replaceHost.tabs.replaces.find? (fun x => x.req == rid0) = some replace0 ∧ commitOk replaceHost replace0 [row0] 0 = true
    ∧ replicated (builtReplace replaceHost replace0 [row0] 0).1 (builtReplace replaceHost replace0 [row0] 0).2 = true
    ∧ blockedHost.tabs.replaces.find? (fun x => x.req == rid0) = some replace0 ∧ commitOk blockedHost replace0 [row0] 0 = true
    ∧ replicated (builtReplace blockedHost replace0 [row0] 0).1 (builtReplace blockedHost replace0 [row0] 0).2 = false := by decide +kernel

/-! ### Media and the Understory -/

def chanHost (x : ChanState) : State := { host with media := { Media.reset with channels := [(0, x)] } }
def outHost : State := { host with under := ⟨[], [(7, some 8)], []⟩ }
theorem witness_Media : alive host = true ∧ 75399167 < t2Tiles ∧ chanOf host 0 = .live [] ∧ t2Channel 0 = 0
    ∧ (([] : List Nat).filter (fun t => decide (host.time < t + 1000000))).length < 2
    ∧ chanOf (chanHost (.live [0, 0])) 0 = .live [0, 0]
    ∧ 2 ≤ ([0, 0].filter (fun t => decide ((chanHost (.live [0, 0])).time < t + 1000000))).length ∧ stackFree host 0 ∧ stackFree (chanHost (.live [0, 0])) 0
    ∧ groupShort host 0 = false ∧ groupShort (chanHost (.live [0, 0])) 0 = false ∧ dState (tileDesc host 0) ≠ 3
    ∧ (∀ i, i < 32 → chanOf host (32 * stackOfChannel 0 + i) ≠ .retired)
    ∧ (∀ i, i < 32 → chanOf { host with media := { Media.reset with spareInUse := [0] } } (32 * stackOfChannel 0 + i) ≠ .rebuilding)
    ∧ programTile host 9 = false ∧ tableOfTile host 9 = none ∧ dKind (tileDesc host 9) ≠ 1 ∧ dKind (tileDesc host 9) ≠ 3
    ∧ { Media.reset with spareInUse := [0] }.spareInUse.contains (stackOfChannel 0) = true ∧ chanOf (chanHost .rebuilding) 0 = .rebuilding
    ∧ host.flash = true ∧ AMap.get none host.under.out 255 = none ∧ host.changes = [] ∧ AMap.get none outHost.under.out 7 = some 8
    ∧ 7 ∉ outHost.under.moved := by
  unfold stackFree; decide +kernel

theorem witness_Settled : settled host ∧ settled (chanHost (.live [0, 0])) :=
  ⟨⟨restAll_none _ rfl rfl, fun u hu => nomatch (show u ∈ ([] : List UnitState) from hu)⟩,
   ⟨restAll_none _ rfl rfl, fun u hu => nomatch (show u ∈ ([] : List UnitState) from hu)⟩⟩

/-- R242: 1,000 corrected errors an hour are watched, one more retires the channel. -/
theorem test_corrected_rate : (match exec (.t2CorrectedRateWatch 0 1000) host with | .next t => chanOf t 0 | _ => .retired) = .live []
    ∧ (match exec (.t2CorrectedRateWatch 0 1001) host with | .next t => chanOf t 0 | _ => .retired) = .rebuilding := by decide +kernel

def open0 : ScanOpen := ⟨5#64, 3, 1, 8, 0, 0, 0, 16, 4, 0#32, ⟨0#16, 0#8, [], none⟩⟩
def tableSet0 : TableSet := ⟨0#32, 0, false, [], 0, 0, []⟩
/-- A set whose envelope bounds every score by −5. -/
def lowSet : TableSet := ⟨0#32, -5, true, [[0]], 0, 0, [[0]]⟩
def scan0 : UScan := ⟨7, 5, openDesc open0, 0#32, { collClosed with isOpen := true, k := 4 }, [tableSet0], []⟩
def fullScan : UScan := { scan0 with coll := { scan0.coll with k := 1, entries := [⟨0, 1, 0⟩] }, tables := [lowSet] }
def segTile : BitVec 512 := BitVec.ofNat 512 (2 + 3 * 4 + 3 * 2 ^ 128)
/-- The T3 tile on channel 7, FULL, a list segment of index 3; the scan draws on Glade 0. -/
def scanHost (x : UScan) : State :=
  { host with under := ⟨[x], [], []⟩, media := { Media.reset with tiles := [(t3Base + 7, segTile)] }
              regs := [(0, some ⟨bucket0, bucket0, bucket0, bucket0, bucket0⟩)] }

theorem witness_Understory : unitFor host 7 = some 7 ∧ openOk open0 = true ∧ open0.tag = 5#64 ∧ (unitScans host 7).length < 64
    ∧ unitFor (scanHost scan0) 7 = some 7 ∧ findScan (scanHost scan0) 7 5#64 = some scan0 ∧ pagesUsed (scanHost scan0) 7 + tablePages scan0.desc ≤ 1024
    ∧ scan0.todo = [] ∧ skips fullScan.coll (setBound fullScan.desc (viewOf lowSet)) = true ∧ findScan (scanHost fullScan) 7 5#64 = some fullScan
    ∧ skips scan0.coll (setBound scan0.desc (viewOf tableSet0)) = false ∧ t3Channel 7 = 7 ∧ channelLost (scanHost scan0) 7 = false
    ∧ dState (tileDesc (scanHost scan0) (t3Base + 7)) = 2 ∧ (scanDraw (scanHost scan0) scan0 .t3 (16384 * pageReads (scanHost scan0) 7) 0).isSome = true
    ∧ tagOk scan0.desc (tileDesc (scanHost scan0) (t3Base + 7)) (viewOf tableSet0).word (segCount (unitView (scanHost scan0) scan0 7) ((t3Base + 7) * 16384))
        (segWord (unitView (scanHost scan0) scan0 7) ((t3Base + 7) * 16384)) = true
    ∧ dState (tileDesc (scanHost scan0) 9) = 0 ∧ scan0.coll.k ≤ 256 ∧ scan0.coll.entries.length ≤ scan0.coll.k ∧ (scanHost scan0).chip.cores = []
    ∧ (scanDraw (scanHost scan0) scan0 .t2 (64 + 16 * scan0.coll.k) 1).isSome = true := by decide +kernel

/-- R475, R535, R536: READY and AWAKE of a running module are high; RECOVERY and a flash channel out of service pull their pins low. -/
theorem test_output_pins : gpioLevel host 3 = some true ∧ gpioLevel State.reset 3 = some false ∧ gpioLevel outHost 5 = some false
    ∧ gpioLevel { host with power := { host.power with warning := true } } 2 = some false ∧ thermtripN host = true
    ∧ gpioLevel { host with tap := { host.tap with cut := true } } 3 = none := by decide +kernel

/-! ### The Grove -/

def upPort : Port := { portReset with state := 2, width := 8, rxSeq := 4 }
def portHost (x : Port) : State := { host with grove := { Grove.reset with ports := [(3, x)] } }

/-- Sequence number 4 has been received: 5 is next, 4 was seen, 6 is ahead; seven failures in a row, or six. -/
theorem witness_FramesInOrder : frameOf (.heartbeatFrame 3#3 5#64 true) = some (3, 5#64, true) ∧ portUp host 3 = false
    ∧ portUp (portHost upPort) 3 = true ∧ (4#64 : W64).toNat ≤ (portAt (portHost upPort) 3).rxSeq
    ∧ (portAt (portHost upPort) 3).rxSeq + 1 < (6#64 : W64).toNat ∧ (portAt (portHost { upPort with fails := 6 }) 3).fails < 7
    ∧ 7 ≤ (portAt (portHost { upPort with fails := 7 }) 3).fails ∧ portUp (portHost { upPort with fails := 7 }) 3 = true
    ∧ nextFrame (portHost upPort) 3 5#64 := by
  unfold nextFrame; decide +kernel

/-- A QUERY that waits for a GRANT of member 1. -/
def waiting0 : Serve :=
  { serveNew 0 ⟨8, 1000000, 10000, 10000, 10000, 10000, 10000, 64⟩ defaultParams 0#64 0 ⟨1, true, [65#8]⟩ with
    handle := 3, version := 1, image := 1, k := 4, pr := 1, p := 1, pMax := 1, outLen := 192, awaits := [1] }

def grantHost : State := withJob (portHost upPort) (.serve waiting0)
def formingHost : State :=
  { portHost upPort with grove := { (portHost upPort).grove with forming := some ⟨rid0, setBody0, [], none⟩ } }
def nakPort : Port := { upPort with unacked := [(9, [1#8])] }

theorem witness_Frames : nextFrame grantHost 3 5#64 ∧ reqOf grantHost rid0 = some { pendingReq with job := .serve waiting0 } ∧ 1 ∈ waiting0.awaits
    ∧ nextFrame formingHost 3 5#64 ∧ formingHost.grove.forming = some ⟨rid0, setBody0, [], none⟩ ∧ (0#256 : BitVec 256) ≠ setDigest setBody0
    ∧ tilePopulated (portHost upPort) 9 = true ∧ (portHost upPort).chip.cores = []
    ∧ reqOf (withJob (portHost upPort) (.table (.hotPin ownerHead 1 [0]) [])) rid0
      = some { pendingReq with job := .table (.hotPin ownerHead 1 [0]) [] }
    ∧ portUp (portHost nakPort) 3 = true ∧ (portAt (portHost nakPort) 3).unacked.find? (fun f => f.1 == 9) = some (9, [1#8])
    ∧ (portAt (portHost nakPort) 3).fails < 7 := by
  unfold nextFrame; decide +kernel

/-- R447: the heartbeat that is next is acknowledged with its number; one that was received before is acknowledged again. -/
theorem test_heartbeat : (match exec (.heartbeatFrame 3#3 5#64 true) (portHost upPort) with | .next t => (portAt t 3).rxSeq | _ => 0) = 5
    ∧ (match exec (.heartbeatFrame 3#3 4#64 true) (portHost upPort) with | .next t => (portAt t 3).rxSeq | _ => 0) = 4 := by decide +kernel

def trainHost (set : Bool) : State :=
  { (if set then setHost else host) with grove := { (if set then setHost else host).grove with ports := [(3, { portReset with state := 1 })] } }
def groveSet : State := { setHost with grove := { setHost.grove with present := 3#16, ready := 3#16, ports := [(3, upPort)] } }

/-- R450: in a set of two, port 3 of member 0 faces port 3 of member 1. -/
theorem witness_PortsAndMembers : (portAt (trainHost false) 3).state = 1 ∧ bitOf (trainHost false).grove.porten 3 = true ∧ (trainHost false).tap.cut = false
    ∧ layoutOf (trainHost true) = some (2, 0) ∧ layoutPeer 2 0 3 = (1, 3) ∧ layoutPeer 2 0 3 ≠ (1, 2) ∧ (portAt (trainHost true) 3).state = 1
    ∧ bitOf (trainHost true).grove.porten 3 = true ∧ (trainHost true).tap.cut = false ∧ layoutOf (trainHost false) = none
    ∧ portUp (portHost upPort) 3 = true ∧ bitOf (portAt (portHost upPort) 3).laneFail 7 = false ∧ (portAt (portHost upPort) 3).width = 8
    ∧ (portAt (portHost { upPort with width := 4 }) 3).width ≠ 8 ∧ presentMember groveSet 1 = true ∧ layoutOf groveSet = some (2, 0)
    ∧ 1 ∉ groveSet.grove.out := by decide +kernel

/-- A link unit of 128 bytes from T2 tile 0 to tile 1, with the partials of the other member. -/
def linkD (root : Byte) : LinkDesc := ⟨9, none, [], root, 9#8, 128, 0, 16384, 1, 0, []⟩
def linkHost (kind : LinkKind) (root : Byte) : State :=
  { setHost with chip := { Chip.reset with links := [⟨kind, linkD root, 0, false⟩] }, media := { Media.reset with tiles := [(0, fullTile)] } }

theorem witness_LinkUnits : layoutOf (linkHost .allreduce 0#8) = some (2, 0)
    ∧ (linkHost .allreduce 0#8).chip.links.find? (fun u => u.desc.unitId == 9 && u.kind == .allreduce) = some ⟨.allreduce, linkD 0#8, 0, false⟩
    ∧ (allParts 2 0 (wordsOf (devBytes (linkHost .allreduce 0#8) 0 128)) [(1, List.replicate 32 0#32)]).isSome = true
    ∧ (wordsOf (devBytes (linkHost .allreduce 0#8) 0 128)).length = 32 ∧ linkBytesOk (linkD 0#8) 2 = true ∧ (linkD 0#8).format = 9#8
    ∧ (allParts 2 0 (devBytes (linkHost .allgather 0#8) 0 64) [(1, List.replicate 64 (0#8 : Byte))]).isSome = true
    ∧ (devBytes (linkHost .allgather 0#8) 0 64).length = 64 ∧ (linkD 0#8).root.toNat = 0 ∧ (linkD 1#8).root.toNat ≠ 0
    ∧ (linkD 1#8).root.toNat % 16 ≠ 0 ∧ (linkD 1#8).root.toNat / 16 = 0 ∧ (linkD 16#8).root.toNat % 16 = 0
    ∧ sourceFull (linkHost .send 0#8) (linkD 0#8) 128 = true ∧ (linkDraw (linkHost .send 0#8) (linkD 0#8) 128).isSome = true
    ∧ (linkD 0#8).dest % 16384 = 0 ∧ (∀ t ∈ tileRange (linkD 0#8).dest 128, tilePopulated (linkHost .send 0#8) t = true)
    ∧ (linkHost .send 0#8).chip.cores = [] := by decide +kernel

/-- R458: BROADCAST puts the root's bytes in the destination tile. -/
theorem test_broadcast : (match exec (.broadcast (linkD 1#8) (List.replicate 128 7#8)) (linkHost .broadcast 1#8) with
    | .next t => (readByte t.media.bytes 16384, readByte t.media.bytes (16384 + 127), readByte t.media.bytes (16384 + 128)) | _ => (0#8, 0#8, 0#8))
    = (7#8, 7#8, 0#8) := by decide +kernel

theorem witness_LinkOverrun : ({ linkD 0#8 with owner := some rid0 } : LinkDesc).owner = some rid0
    ∧ [(⟨.send, linkD 0#8, 0, true⟩ : LinkState)].find? (fun u => u.desc.unitId == 9) = some ⟨.send, linkD 0#8, 0, true⟩
    ∧ [(⟨.send, linkD 0#8, 0, false⟩ : LinkState)].find? (fun u => u.desc.unitId == 9) = some ⟨.send, linkD 0#8, 0, false⟩ := by decide

/-! ### Shutdown, self-test, Clearing, boundaries -/

def drainHost (x : Option Shut) : State := { host with kt := { host.kt with shut := x }, bi := { SelfTest.reset with pinDrain := 5000 } }
theorem witness_Shutdown : alive (drainHost none) = true ∧ pinLimit (drainHost none) ≠ 0 ∧ (drainHost none).kt.shut = none
    ∧ alive (drainHost (some ⟨none, false, 60000, false⟩)) = true ∧ (drainHost (some ⟨none, false, 60000, false⟩)).sched.inside = false
    ∧ clearingNow (drainHost (some ⟨none, false, 60000, true⟩)) = true ∧ (drainHost (some ⟨none, false, 60000, true⟩)).kt.run = none := by
  decide +kernel

/-- R515: the pin brings the limit forward to 5,000 ms; R517: a failed check of the cleared secrets leaves scan locked. -/
theorem test_shutdown : (match exec .shdnReqNHeld (drainHost (some ⟨none, false, 60000, false⟩)) with
      | .next t => t.kt.shut.map (fun x => x.limit) | _ => none) = some 5000
    ∧ (match exec (.zeroizationDone false) (drainHost (some ⟨none, false, 60000, true⟩)) with
      | .next t => (t.kt.life, t.kt.cleared) | _ => (.off, true)) = (.kettleOnly, false) := by decide +kernel

def bistHost (n : Nat) : State := { drainHost (some ⟨none, false, 60000, true⟩) with kt := { host.kt with
  shut := some ⟨none, false, 60000, true⟩, run := some ⟨false, n⟩, cleared := true } }
def testHost (x : Option Nat) : State := { fencedHost with bi := { SelfTest.reset with wanted := [100], testing := x } }
theorem witness_SelfTests : (bistHost 7).kt.run = some ⟨false, 7⟩ ∧ 7 < 8 ∧ (bistHost 8).kt.run = some ⟨false, 8⟩ ∧ 8 ≤ 8
    ∧ (testHost none).kt.life = .running ∧ clearingNow (testHost none) = false ∧ nextTest (testHost none) = some 100
    ∧ 10 * powerHeld (testHost none) + 71 ≤ 10 * (testHost none).power.sust
    ∧ 10 * 0 < 10 * powerHeld (testHost none) + 71 ∧ (testHost (some 100)).bi.testing = some 100 := by decide +kernel

/-- R523: a site of the group under test is recorded. -/
theorem test_bist_group : (match exec (.bistGroupDone [] [] []) (bistHost 0) with | .next t => t.kt.run | _ => none) = some ⟨false, 1⟩ := by
  decide +kernel

/-- A Clearing whose whole unit is under replay, with two suspects or one. -/
def clearing0 (l : List ReqId) : Clearing :=
  ⟨{ unit0 with members := l }, 4, 30, ⟨1, 0, 0, 0⟩, some 31, true, l, [], none, [], true, .none, 0⟩
def clearingHost (l : List ReqId) : State := { host with chip := { Chip.reset with clearings := [clearing0 l] } }
theorem witness_Replays : ∀ l ∈ [[rid0], [rid0, ⟨1#8, 5#64⟩]],
    (clearingHost l).chip.clearings.find? (fun x => x.unit.unitId == 7 && x.quarantine.isSome) = some (clearing0 l) ∧ (clearing0 l).whole = true
    ∧ (clearing0 l).result = .none ∧ (clearing0 l).current = l := by decide

def plan0 : BoundaryPlan := ⟨[unit0], [], [], [], [], []⟩
theorem witness_Boundaries : boundaryRuns running = true ∧ mayWork running = true ∧ running.reqs = [] ∧ running.changes = [] ∧ running.idx.loaded = []
    ∧ running.tabs.hot = [] ∧ running.tabs.versions = [] ∧ running.images.current = none ∧ running.images.outgoing = none
    ∧ running.under.scans = [] ∧ inSet running = false ∧ running.grove.recheck = false ∧ running.chip.cores = [] ∧ running.chip.moves = [] ∧ running.chip.units = [] ∧ plan0.work = []
    ∧ running.prot.dying = [] ∧ plan0.links = [] ∧ plan0.groups = [] ∧ plan0.tiles = [] ∧ plan0.units ≠ [] ∧ boundaryRuns State.reset = false := by
  decide +kernel

/-- R8, R9: a boundary counts the step and commits the unit. -/
theorem test_boundary : (match exec (.stepBoundary plan0) running with
    | .next t => (t.chip.step, t.chip.units.map (fun u => u.desc.unitId)) | _ => (0, [])) = (1, [7]) := by decide +kernel

/-! ### Words and steps -/

theorem witness_Words : encodeEngine (.nop 3#11 hdr0 0#88) = some 0xF0000000000000000000000000000000#128
    ∧ decodeEngine 3#11 0xF0000000000000000000000000000000#128 = some (.nop 3#11 hdr0 0#88) := by decide

theorem witness_Steps : stateWf State.reset = true ∧ ∃ t, step State.reset = .next t := ⟨by decide, ⟨_, rfl⟩⟩

end Sys2Proof.Tests
end

section
/-!
SUPPORT. The clock of a state: the fields that a step boundary moves (R8, R9), and that every operation which a boundary carries out leaves
alone. One lemma per operation, in the order of the model. An update is `rfl` or a case for each branch, each branch an update of states
whose clock is known; `by rfl` keeps a plain update a rewrite rule with a proof, which the discharger of `clockOf_foldl` needs.
-/
namespace Sys2Proof.Machine

/-- What a boundary moves and its parts leave alone: the time, the step and its length, its place in the run of its iteration, the
life of the module, DEEP IDLE, and the number of the next admission. -/
structure Clock where
  time   : Nat
  step   : Nat
  life   : Life
  deep   : Bool
  start  : Nat
  length : Nat
  runAt  : Nat
  runOf  : Nat
  admits : Nat

def clockOf (s : State) : Clock :=
  ⟨s.time, s.chip.step, s.kt.life, s.power.deep, s.sched.start, s.sched.length, s.sched.runAt, s.sched.runOf, s.sched.admits⟩

/-- The clock of a state written out by its fields. -/
@[simp] theorem clockOf_mk (chip : Chip) (media : Media) (log : Log) (tabs : Tables) (glades : Glades) (regs : AMap (Option RegSet))
    (holds : List Ticket) (keys : Keys) (prot : Prot) (caddy : Caddy) (side : Sideband) (images : Images) (idx : Indexes) (reqs : List Req)
    (changes : List Change) (sched : Sched) (kt : Kettle) (power : Power) (grove : Grove) (pins : Pins) (rc : ResetCtl) (bi : SelfTest)
    (tap : Tap) (under : Under) (host : List HostOut) (flash : Bool) (serial : W128) (time freeCount : Nat) (pending : List Instr) :
    clockOf ⟨chip, media, log, tabs, glades, regs, holds, keys, prot, caddy, side, images, idx, reqs, changes, sched, kt, power, grove, pins,
      rc, bi, tap, under, host, flash, serial, time, freeCount, pending⟩
    = ⟨time, chip.step, kt.life, power.deep, sched.start, sched.length, sched.runAt, sched.runOf, sched.admits⟩ := rfl

/-- An update that leaves the clock's fields alone leaves the clock alone. -/
@[simp] theorem clock_eta (s : State) : (⟨s.time, s.chip.step, s.kt.life, s.power.deep, s.sched.start, s.sched.length, s.sched.runAt,
    s.sched.runOf, s.sched.admits⟩ : Clock) = clockOf s := rfl

@[simp] theorem clockOf_ite (c : Prop) [Decidable c] (s t : State) :
    clockOf (if c then s else t) = if c then clockOf s else clockOf t := apply_ite clockOf c s t

@[simp] theorem clockOf_foldl {α : Type} (f : State → α → State) (l : List α) (s : State) (h : ∀ s a, clockOf (f s a) = clockOf s) :
    clockOf (l.foldl f s) = clockOf s := foldl_keeps f clockOf h l s

/-- The same of a fold that carries more than the state. -/
theorem clockOf_foldl_fst {α β : Type} (f : State × β → α → State × β) (h : ∀ p a, clockOf (f p a).1 = clockOf p.1) (l : List α)
    (p : State × β) : clockOf (l.foldl f p).1 = clockOf p.1 := by
  induction l generalizing p with
  | nil => rfl
  | cons a t ih => rw [List.foldl_cons, ih, h]

@[simp] theorem dropLines_step (s : State) (key : Nat) : (dropLines s key).chip.step = s.chip.step := rfl

/-! ### States and their parts -/

@[simp] theorem clockOf_drawn (s : State) : clockOf (drawn s) = clockOf s := by rfl

@[simp] theorem clockOf_setCore (s : State) (c : Nat) (k : Core) : clockOf (setCore s c k) = clockOf s := by rfl

@[simp] theorem clockOf_setTile (s : State) (key : Nat) (d : BitVec 512) : clockOf (setTile s key d) = clockOf s := by rfl

@[simp] theorem clockOf_setDevBytes (s : State) (b : List Host.Cell) : clockOf (setDevBytes s b) = clockOf s := by rfl

@[simp] theorem clockOf_dropLines (s : State) (key : Nat) : clockOf (dropLines s key) = clockOf s := by rfl

@[simp] theorem clockOf_pageOp (s : State) : clockOf (pageOp s) = clockOf s := by
  unfold pageOp
  split <;> rfl

@[simp] theorem clockOf_logAdd (s : State) (r : LogRec) : clockOf (logAdd s r) = clockOf s := by rfl

@[simp] theorem clockOf_setGroveState (s : State) (n : Nat) : clockOf (setGroveState s n) = clockOf s := by
  unfold setGroveState
  split <;> rfl

@[simp] theorem clockOf_putDecisions (s : State) (l : List Decision) : clockOf (putDecisions s l) = clockOf s := by rfl

@[simp] theorem clockOf_addDecision (s : State) (kind value comp : Nat) : clockOf (addDecision s kind value comp) = clockOf s := by rfl

@[simp] theorem clockOf_dropDecision (s : State) (kind comp : Nat) : clockOf (dropDecision s kind comp) = clockOf s := by rfl

theorem clockOf_of_drawTokens {s t : State} {set n : Nat} {x : Resource} {admitted : Bool} {k : Ticket}
    (h : drawTokens s set x n admitted k = some t) : clockOf t = clockOf s := by
  unfold drawTokens at h
  split at h
  · cases h
    rfl
  · split at h
    · cases h
    · split at h
      · cases h
      · obtain ⟨b, -, rfl⟩ := Option.map_eq_some_iff.mp h
        rfl

@[simp] theorem clockOf_chargeTokens (s : State) (set : Nat) (x : Resource) (n : Nat) (admitted : Bool) :
    clockOf (chargeTokens s set x n admitted) = clockOf s := by
  unfold chargeTokens
  split <;> rfl

@[simp] theorem clockOf_holdTicket (s : State) (t : Ticket) : clockOf (holdTicket s t) = clockOf s := by
  unfold holdTicket
  split <;> rfl

/-! ### The G engine -/

@[simp] theorem clockOf_sampleLookups (s : State) (first : Nat) (l : List GCtx) : clockOf (sampleLookups s first l) = clockOf s := by rfl

/-- What an engine answers with leaves the clock alone. -/
def BeginS.keeps (s : State) : BeginS → Prop
  | .park t => clockOf t = clockOf s
  | .go t _ _ => clockOf t = clockOf s
  | _ => True

@[simp] theorem keeps_wait (s : State) : BeginS.wait.keeps s := trivial
@[simp] theorem keeps_fail (s : State) (a b : Nat) : (BeginS.fail a b).keeps s := trivial
@[simp] theorem keeps_park (s t : State) : (BeginS.park t).keeps s ↔ clockOf t = clockOf s := Iff.rfl
@[simp] theorem keeps_go (s t : State) (k : Core) (f : Flight) : (BeginS.go t k f).keeps s ↔ clockOf t = clockOf s := Iff.rfl

@[simp] theorem lift_keeps (s : State) (b : Begin) : (b.lift s).keeps s := by
  cases b <;> simp [Begin.lift]

@[simp] theorem gGo_keeps (s : State) (c : Nat) (k : Core) (u : UnitDesc) (f : Flight) (desc : Nat) (d : GDesc) (l : List GCtx) :
    (gGo s c k u f desc d l).keeps s := by
  unfold gGo
  split <;> simp

@[simp] theorem gBegin_keeps (s : State) (c : Nat) (k : Core) (u : UnitDesc) (f : Flight) : (gBegin s c k u f).keeps s := by
  unfold gBegin
  split
  · trivial
  · trivial
  · dsimp only
    split
    · trivial
    · split
      · trivial
      · split
        · trivial
        · split
          · trivial
          · split <;> simp

@[simp] theorem gResume_keeps (s : State) (c : Nat) (k : Core) (u : UnitDesc) (f : Flight) : (gResume s c k u f).keeps s := by
  unfold gResume
  split
  next desc _ _ _ l _ =>
    have hk := gGo_keeps s c k u f desc (gDesc k.bytes desc) l
    split
    · trivial
    · split
      next h =>
        rw [h] at hk
        split
        · trivial
        · exact hk
      · exact hk
  · trivial

/-! ### Hot rows -/

@[simp] theorem clockOf_countVersion (s : State) (t n : Nat) : clockOf (countVersion s t n) = clockOf s := by rfl

@[simp] theorem clockOf_putHot (s : State) (home : Nat) (e : Option HotRow) : clockOf (putHot s home e) = clockOf s := by rfl

@[simp] theorem clockOf_promote (s : State) (home stride share : Nat) (pinned : Bool) :
    clockOf (promote s home stride share pinned) = clockOf s := by
  unfold promote
  split
  · rfl
  · split <;> simp

@[simp] theorem clockOf_demote (s : State) (home : Nat) : clockOf (demote s home) = clockOf s := by
  unfold demote
  split <;> rfl

@[simp] theorem clockOf_dropRange (s : State) (a n : Nat) : clockOf (dropRange s a n) = clockOf s := by rfl

@[simp] theorem clockOf_dropReplicas (s : State) (e : HotRow) : clockOf (dropReplicas s e) = clockOf s := by
  simp [dropReplicas]

@[simp] theorem clockOf_purgeCleared (s : State) : clockOf (purgeCleared s) = clockOf s := by simp [purgeCleared]

@[simp] theorem clockOf_freeRange (s : State) (a n : Nat) : clockOf (freeRange s a n) = clockOf s := by rfl

@[simp] theorem clockOf_promoteWaiting (s : State) : clockOf (promoteWaiting s) = clockOf s := by simp [promoteWaiting]

@[simp] theorem clockOf_reclaim (s : State) : clockOf (reclaim s) = clockOf s := by simp [reclaim]

@[simp] theorem clockOf_makeRoom (s : State) (stride : Nat) : clockOf (makeRoom s stride) = clockOf s := by
  unfold makeRoom
  split
  · split <;> simp
  · rfl

@[simp] theorem clockOf_ensurePins (s : State) : clockOf (ensurePins s) = clockOf s := by simp [ensurePins]

@[simp] theorem clockOf_lockRows (s : State) (v : TableVer) (rows : List RowRecord) : clockOf (lockRows s v rows) = clockOf s := by
  unfold lockRows
  refine clockOf_foldl _ _ _ fun s a => ?_
  split <;> simp

@[simp] theorem clockOf_unlockRow (s : State) (v : TableVer) (r : RowRecord) : clockOf (unlockRow s v r) = clockOf s := by
  unfold unlockRow
  split <;> rfl

@[simp] theorem clockOf_askLocks (s : State) : clockOf (askLocks s) = clockOf s := by
  unfold askLocks
  refine clockOf_foldl _ _ _ fun s a => ?_
  split
  · rfl
  · dsimp only
    split <;> simp

/-! ### Caddy: pairs, interrupts, records -/

@[simp] theorem clockOf_setPair (s : State) (n : Nat) (p : Pair) : clockOf (setPair s n p) = clockOf s := by rfl

@[simp] theorem clockOf_setFunc (s : State) (f : Nat) (x : Func) : clockOf (setFunc s f x) = clockOf s := by rfl

@[simp] theorem clockOf_setVec (s : State) (f v : Nat) (x : Vec) : clockOf (setVec s f v x) = clockOf s := by rfl

@[simp] theorem clockOf_raiseVec (s : State) (f v : Nat) : clockOf (raiseVec s f v) = clockOf s := by
  unfold raiseVec
  split <;> rfl

@[simp] theorem clockOf_raiseEvent (s : State) (f : Nat) : clockOf (raiseEvent s f) = clockOf s := by simp [raiseEvent]

@[simp] theorem clockOf_setReadyWord (s : State) (w : W64) : clockOf (setReadyWord s w) = clockOf s := by
  unfold setReadyWord
  split
  · rfl
  · exact (clockOf_foldl _ _ _ fun s f => by simp).trans rfl

@[simp] theorem clockOf_setReady (s : State) (i : Nat) (v : Bool) : clockOf (setReady s i v) = clockOf s := by simp [setReady]

@[simp] theorem clockOf_writeRecord (s : State) (n : Nat) (c : Completion) : clockOf (writeRecord s n c) = clockOf s := by rfl

@[simp] theorem clockOf_drainHeld (k : Nat) (s : State) (n : Nat) : clockOf (drainHeld k s n) = clockOf s := by
  induction k generalizing s with
  | zero => rfl
  | succ k ih =>
    unfold drainHeld
    split
    · rfl
    · split <;> simp [ih]

@[simp] theorem clockOf_postRecord (s : State) (n : Nat) (c : Completion) : clockOf (postRecord s n c) = clockOf s := by simp [postRecord]

@[simp] theorem clockOf_putOutput (s : State) (r : ReqId) (b : List Byte) : clockOf (putOutput s r b) = clockOf s := by simp [putOutput]

@[simp] theorem clockOf_logOutcome (s : State) (id : ReqId) (glade : Option Nat) (status detail : Nat) :
    clockOf (logOutcome s id glade status detail) = clockOf s := by rfl

@[simp] theorem clockOf_endRecord (s : State) (id : ReqId) (pair session head : Nat) (glade : Option Nat) (e : Ending) :
    clockOf (endRecord s id pair session head glade e) = clockOf s := by simp [endRecord]

@[simp] theorem clockOf_touchIdle (s : State) (session : Nat) : clockOf (touchIdle s session) = clockOf s := by
  unfold touchIdle
  split <;> rfl

@[simp] theorem clockOf_clearVerifies (s : State) (j : Job) : clockOf (clearVerifies s j) = clockOf s := by
  unfold clearVerifies
  split <;> rfl

@[simp] theorem clockOf_completeReq (s : State) (q : Req) (e : Ending) : clockOf (completeReq s q e) = clockOf s := by simp [completeReq]

@[simp] theorem clockOf_completeId (s : State) (r : ReqId) (e : Ending) : clockOf (completeId s r e) = clockOf s := by
  unfold completeId
  split <;> simp

@[simp] theorem clockOf_putReq (s : State) (q : Req) : clockOf (putReq s q) = clockOf s := by rfl

@[simp] theorem clockOf_setJob (s : State) (q : Req) (j : Job) : clockOf (setJob s q j) = clockOf s := by rfl

@[simp] theorem clockOf_addChange (s : State) (c : Change) : clockOf (addChange s c) = clockOf s := by rfl

/-! ### Copies -/

@[simp] theorem clockOf_tileToMedia (s : State) (key : Nat) (cells : List Host.Cell) (d : BitVec 512) :
    clockOf (tileToMedia s key cells d) = clockOf s := by
  unfold tileToMedia
  split <;> rfl

@[simp] theorem clockOf_queueTiles (s : State) (l : List TileWait) : clockOf (queueTiles s l) = clockOf s := by rfl

@[simp] theorem clockOf_leaveTiles (s : State) (l : List TileWait) : clockOf (leaveTiles s l) = clockOf s := by rfl

theorem clockOf_of_copyTokens_error {s t : State} {core id i : Nat} {u : UnitDesc} {c : Copy} (h : copyTokens s core u id i c = .error t) :
    clockOf t = clockOf s := by
  unfold copyTokens at h
  dsimp only at h
  split at h
  · cases h
    exact clockOf_holdTicket _ _
  · split at h <;> cases h
    exact clockOf_holdTicket _ _

theorem clockOf_of_copyTokens_ok {s t : State} {core id i : Nat} {u : UnitDesc} {c : Copy} (h : copyTokens s core u id i c = .ok t) :
    clockOf t = clockOf s := by
  unfold copyTokens at h
  dsimp only at h
  split at h
  · cases h
  next h3 =>
    split at h
    · cases h
    next h2 =>
      cases h
      exact (clockOf_of_drawTokens h2).trans (clockOf_of_drawTokens h3)

@[simp] theorem clockOf_copyMove (s : State) (k : Core) (c : Copy) : clockOf (copyMove s k c).1 = clockOf s := by
  unfold copyMove
  dsimp only
  split
  · rfl
  · rfl
  · split <;> simp
  · split <;> simp

/-- What a copy's start answers with leaves the clock alone. -/
def CopyStep.keeps (s : State) : CopyStep → Prop
  | .wait t => clockOf t = clockOf s
  | .go t _ _ => clockOf t = clockOf s
  | .fail _ _ => True

theorem copyStart_keeps (s : State) (core : Nat) (k : Core) (u : UnitDesc) (f : Flight) (i : Nat) (c : Copy) :
    (copyStart s core k u f i c).keeps s := by
  unfold copyStart
  dsimp only
  split
  · rfl
  · split
    · rfl
    · split
      · rfl
      · exact clockOf_queueTiles _ _
      · trivial
      · exact clockOf_leaveTiles _ _
      · split
        next h => exact clockOf_of_copyTokens_error h
        next h => exact (clockOf_copyMove _ _ _).trans ((clockOf_leaveTiles _ _).trans (clockOf_of_copyTokens_ok h))

@[simp] theorem clockOf_countMatch (s : State) (u : UnitDesc) (o : Ops88) (op : Nat) :
    clockOf (countMatch s u o op) = clockOf s := by simp [countMatch]

@[simp] theorem cBegin_keeps (s : State) (k : Core) (u : UnitDesc) (f : Flight) : (cBegin s k u f).keeps s := by
  unfold cBegin
  split
  · dsimp only
    split
    · trivial
    · split <;> simp
  · dsimp only
    split
    · trivial
    · split <;> simp
  · dsimp only
    split
    · split
      · trivial
      · split <;> simp
    · split <;> simp

@[simp] theorem clockOf_startCopies (core : Nat) (u : UnitDesc) (f : Flight) (l : List (Copy × Nat)) (s : State) (k : Core)
    (acc : List Copy) : clockOf (startCopies core u f l s k acc).2.1 = clockOf s := by
  induction l generalizing s k acc with
  | nil => rfl
  | cons p r ih =>
    obtain ⟨c, i⟩ := p
    unfold startCopies
    split
    · exact ih _ _ _
    · dsimp only
      split
      next h => exact (h ▸ copyStart_keeps _ _ _ _ _ _ _ :)
      · rfl
      next h => exact (ih _ _ _).trans (h ▸ copyStart_keeps _ _ _ _ _ _ _ :)

theorem clockOf_of_deliverOne {s t : State} {g kth n unit : Nat} {c : Copy} (h : deliverOne s g kth n c unit = some (.ok t)) :
    clockOf t = clockOf s := by
  unfold deliverOne at h
  obtain ⟨core, -, h⟩ := Option.bind_eq_some_iff.mp h
  obtain ⟨f, -, h⟩ := Option.bind_eq_some_iff.mp h
  split at h
  · split at h
    · cases h
    · split at h
      · cases h
      · cases h
        exact clockOf_setCore _ _ _
  · cases h

@[simp] theorem clockOf_deliverTile (g kth n : Nat) (c : Copy) (l : List Nat) (s : State) :
    clockOf (deliverTile g kth n c l s).1 = clockOf s := by
  induction l generalizing s with
  | nil => rfl
  | cons m r ih =>
    unfold deliverTile
    split
    · exact ih s
    · exact ih s
    next h => exact (ih _).trans (clockOf_of_deliverOne h)

@[simp] theorem clockOf_deliverCopies (n : Nat) (l : List Copy) (s : State) : clockOf (deliverCopies n l s).1 = clockOf s := by
  induction l generalizing s with
  | nil => rfl
  | cons c r ih =>
    unfold deliverCopies
    split
    · split
      · exact (ih _).trans (clockOf_deliverTile _ _ _ _ _ _)
      · exact ih s
    · exact ih s

@[simp] theorem clockOf_deliverCore (s : State) (core : Nat) : clockOf (deliverCore s core).1 = clockOf s := by
  refine clockOf_foldl_fst _ (fun p f => ?_) _ _
  split
  · split
    · simp
    · rfl
  · rfl

/-! ### The X engine -/

@[simp] theorem clockOf_writeSegment (s : State) (e : OutEntry) (key : BitVec 256) (plain : List Byte) :
    clockOf (writeSegment s e key plain) = clockOf s := by rfl

theorem afterGate_keeps {s : State} {g : Gate} {r : BeginS} (h : r.keeps s) : (afterGate g r).keeps s := by
  cases g
  case pass => exact h
  all_goals trivial

@[simp] theorem xBegin_keeps (s : State) (c : Nat) (k : Core) (u : UnitDesc) (f : Flight) : (xBegin s c k u f).keeps s := by
  unfold xBegin
  dsimp only
  split
  · -- XDEC
    split
    · trivial
    · exact clockOf_queueTiles _ _
    · trivial
    · trivial
    · split
      · trivial
      · refine afterGate_keeps ?_
        split
        · exact clockOf_holdTicket _ _
        next hd =>
          split
          · trivial
          · exact (clockOf_leaveTiles _ _).trans (clockOf_of_drawTokens hd)
  · split
    · -- XENC
      refine afterGate_keeps ?_
      split
      · trivial
      · exact clockOf_drawn _
    · split
      · -- XOPEN
        split
        · trivial
        · split
          · trivial
          · split
            · trivial
            · exact clockOf_queueTiles _ _
            · trivial
            · trivial
            · split
              · trivial
              · refine afterGate_keeps ?_
                split
                · exact clockOf_holdTicket _ _
                next hd => exact (clockOf_leaveTiles _ _).trans (clockOf_of_drawTokens hd)
      · -- XSEAL
        split
        · trivial
        · split
          · trivial
          · refine afterGate_keeps ?_
            split
            · exact clockOf_holdTicket _ _
            next hd => exact (clockOf_writeSegment _ _ _ _).trans (clockOf_of_drawTokens hd)

/-! ### Requests -/

@[simp] theorem clockOf_putIndex (s : State) (i : Index) : clockOf (putIndex s i) = clockOf s := by rfl

@[simp] theorem clockOf_addKey (s : State) (key : BitVec 256) (purpose : Purpose) (glade tenant : Option Nat) :
    clockOf (addKey s key purpose glade tenant).1 = clockOf s := by rfl

@[simp] theorem clockOf_setHalf (s : State) (n : Nat) (half : BitVec 256) : clockOf (setHalf s n half) = clockOf s := by rfl

@[simp] theorem clockOf_dropKey (s : State) (n : Nat) : clockOf (dropKey s n) = clockOf s := by rfl

@[simp] theorem clockOf_putSegment (s : State) (q : Req) (v : Serve) (final : Bool) (bytes : List Byte) :
    clockOf (putSegment s q v final bytes).1 = clockOf s := by simp [putSegment]

@[simp] theorem clockOf_endServe (s : State) (q : Req) (v : Serve) (status detail flags : Nat) :
    clockOf (endServe s q v status detail flags) = clockOf s := by simp [endServe]

@[simp] theorem clockOf_dropItemKeys (s : State) (l : List ItemState) : clockOf (dropItemKeys s l) = clockOf s := by simp [dropItemKeys]

@[simp] theorem clockOf_endItems (s : State) (q : Req) (l : List ItemState) (detail flags hint : Nat) :
    clockOf (endItems s q l detail flags hint) = clockOf s := by simp [endItems]

@[simp] theorem clockOf_dropMerge (s : State) (handle : Nat) : clockOf (dropMerge s handle) = clockOf s := by
  unfold dropMerge
  dsimp only
  split <;> simp

@[simp] theorem clockOf_leaveSeq (s : State) (q : Req) (v : Serve) (e : Ending) :
    clockOf (leaveSeq s q v e) = clockOf s := by simp [leaveSeq]

@[simp] theorem clockOf_endSequence (s : State) (q : Req) (v : Serve) (status detail flags : Nat) :
    clockOf (endSequence s q v status detail flags) = clockOf s := by
  unfold endSequence
  split <;> simp

@[simp] theorem clockOf_dropTable (s : State) (r : ReqId) : clockOf (dropTable s r) = clockOf s := by
  simp only [dropTable, clockOf_mk, clock_eta]
  refine (clockOf_foldl _ _ _ fun s a => ?_).trans ((clockOf_foldl _ _ _ fun s x => ?_).trans (clockOf_foldl _ _ _ clockOf_demote))
  · split <;> simp
  · split <;> simp

@[simp] theorem clockOf_endRequest (s : State) (q : Req) (status detail flags : Nat) :
    clockOf (endRequest s q status detail flags) = clockOf s := by
  unfold endRequest
  split <;> simp

@[simp] theorem clockOf_closeSession (s : State) (x : Session) (reason : Option Nat) : clockOf (closeSession s x reason) = clockOf s := by
  unfold closeSession
  split <;> rfl

@[simp] theorem clockOf_dropLeaving (s : State) : clockOf (dropLeaving s) = clockOf s := by simp [dropLeaving]

@[simp] theorem clockOf_closeByChange (s : State) (x : Session) (reason : Nat) (but : Option ReqId) :
    clockOf (closeByChange s x reason but) = clockOf s := by simp [closeByChange]

@[simp] theorem clockOf_closePrincipal (s : State) (role principal reason : Nat) (but : Option ReqId) :
    clockOf (closePrincipal s role principal reason but) = clockOf s := by simp [closePrincipal]

/-! ### Frames between members -/

@[simp] theorem clockOf_setPort (s : State) (p : Nat) (x : Port) : clockOf (setPort s p x) = clockOf s := by rfl

@[simp] theorem clockOf_sendPort (s : State) (p : Nat) (payload : List Byte) : clockOf (sendPort s p payload) = clockOf s := by rfl

@[simp] theorem clockOf_sendTo (s : State) (m : Nat) (bytes : List Byte) : clockOf (sendTo s m bytes) = clockOf s := by
  unfold sendTo
  split
  · split <;> simp
  · rfl

@[simp] theorem clockOf_tellPeers (s : State) (kind : Nat) (r : ReqId) : clockOf (tellPeers s kind r) = clockOf s := by simp [tellPeers]

/-! ### Units on their cores -/

@[simp] theorem clockOf_replayStart (s : State) (cl : Clearing) : clockOf (replayStart s cl) = clockOf s := by rfl

@[simp] theorem clockOf_assignQuarantine (s : State) : clockOf (assignQuarantine s) = clockOf s := by
  unfold assignQuarantine
  split
  · rfl
  · split <;> simp

@[simp] theorem clockOf_endCopies (s : State) (k : Core) : clockOf (endCopies s k) = clockOf s := by simp [endCopies]

@[simp] theorem clockOf_dropHolds (s : State) (c : Nat) : clockOf (dropHolds s c) = clockOf s := by rfl

@[simp] theorem clockOf_stopUnit (s : State) (c : Nat) (st : Stop) : clockOf (stopUnit s c st) = clockOf s := by
  unfold stopUnit
  split <;> simp

@[simp] theorem beginFlight_keeps (s : State) (c : Nat) (k : Core) (u : UnitDesc) (f : Flight) : (beginFlight s c k u f).keeps s := by
  unfold beginFlight
  split <;> simp

@[simp] theorem resumeFlight_keeps (s : State) (c : Nat) (k : Core) (u : UnitDesc) (f : Flight) : (resumeFlight s c k u f).keeps s := by
  unfold resumeFlight
  split
  · split
    · trivial
    · split
      · split <;> simp
      · trivial
      · trivial
  · exact gResume_keeps s c k u f
  · exact lift_keeps s _
  next l _ _ =>
    have hk := clockOf_startCopies c u f l.zipIdx s k []
    split
    · trivial
    · split
      · trivial
      next h =>
        rw [h] at hk
        split <;> exact hk
  · trivial

theorem tryFlight_keeps (s : State) (c : Nat) (k : Core) (u : UnitDesc) (f : Flight) : (tryFlight s c k u f).keeps s := by
  unfold tryFlight
  split
  · exact resumeFlight_keeps s c k u f
  · split
    · exact beginFlight_keeps s c k u f
    · trivial

theorem clockOf_of_engineMove {s t : State} {c : Nat} {k : Core} {r : Running} {l : List Flight} (h : engineMove s c k r l = some t) :
    clockOf t = clockOf s := by
  induction l with
  | nil => cases h
  | cons f l ih =>
    unfold engineMove at h
    have hk := tryFlight_keeps s c k r.desc f
    split at h
    · exact ih h
    next hf =>
      split at h
      · exact ih h
      · cases h
        simpa [hf] using hk
    · cases h
      exact clockOf_stopUnit _ _ _
    next hf =>
      cases h
      exact (clockOf_setCore _ _ _).trans (by simpa [hf] using hk)

theorem clockOf_of_issueMove {s t : State} {c : Nat} {k : Core} {r : Running} (h : issueMove s c k r = some t) : clockOf t = clockOf s := by
  unfold issueMove at h
  split at h
  · cases h
  · split at h <;> cases h
    · exact clockOf_stopUnit _ _ _
    · exact clockOf_setCore _ _ _

theorem clockOf_of_serveMove {s t : State} {c : Nat} {k : Core} (h : serveMove s c k = some t) : clockOf t = clockOf s := by
  unfold serveMove at h
  split at h
  · cases h
    exact clockOf_setCore _ _ _
  · obtain ⟨p, -, rfl⟩ := Option.map_eq_some_iff.mp h
    exact clockOf_setCore _ _ _

theorem clockOf_of_coreMove {s t : State} {c : Nat} (h : coreMove s c = some t) : clockOf t = clockOf s := by
  unfold coreMove at h
  dsimp only at h
  split at h
  · cases h
  · split at h
    next he =>
      cases h
      exact clockOf_of_engineMove he
    · split at h
      next hs =>
        cases h
        exact clockOf_of_serveMove hs
      · exact clockOf_of_issueMove h

@[simp] theorem clockOf_settleCasts (s : State) (c : Nat) : clockOf (settleCasts s c) = clockOf s := by
  refine (clockOf_foldl _ _ _ fun s u => ?_).trans (clockOf_deliverCore s c)
  split <;> simp

@[simp] theorem clockOf_pump (n : Nat) (s : State) (c : Nat) : clockOf (pump n s c) = clockOf s := by
  induction n generalizing s with
  | zero => rfl
  | succ n ih =>
    unfold pump
    split
    next h => exact (ih _).trans (clockOf_of_coreMove h)
    · rfl

@[simp] theorem clockOf_goOn (s : State) (c : Nat) : clockOf (goOn s c) = clockOf s := by simp [goOn]

@[simp] theorem clockOf_goAll (s : State) (c : Nat) : clockOf (goAll s c) = clockOf s := by simp [goAll]

/-! ### Sessions -/

@[simp] theorem clockOf_dropChallenge (s : State) (id : Nat) : clockOf (dropChallenge s id) = clockOf s := by rfl

@[simp] theorem clockOf_writeStore (s : State) (t : Store) : clockOf (writeStore s t) = clockOf s := by rfl

@[simp] theorem clockOf_firstOwner (s : State) (ch : Challenge) : clockOf (firstOwner s ch) = clockOf s := by
  unfold firstOwner
  split
  · refine (clockOf_foldl _ _ _ fun s x => ?_).trans (clockOf_writeStore _ _)
    dsimp only
    split <;> simp
  · rfl

@[simp] theorem clockOf_openSession (s : State) (q : Req) (id : Nat) : clockOf (openSession s q id) = clockOf s := by
  unfold openSession
  split
  · simp
  · split <;> simp

@[simp] theorem clockOf_finishClose (s : State) (q : Req) (id : Nat) : clockOf (finishClose s q id) = clockOf s := by
  unfold finishClose
  split <;> simp

@[simp] theorem clockOf_applyClose (s : State) (q : Req) (id : Nat) (abort : Bool) :
    clockOf (applyClose s q id abort) = clockOf s := by simp [applyClose]

@[simp] theorem clockOf_closeDrained (s : State) : clockOf (closeDrained s) = clockOf s := by
  unfold closeDrained
  refine clockOf_foldl _ _ _ fun s a => ?_
  split <;> simp

@[simp] theorem clockOf_undrain (s : State) (q : Req) : clockOf (undrain s q) = clockOf s := by
  unfold undrain
  split <;> rfl

@[simp] theorem clockOf_noteCancel (s : State) (t : Req) (cancel : ReqId) (before : Bool) :
    clockOf (noteCancel s t cancel before) = clockOf s := by
  unfold noteCancel
  split <;> simp

@[simp] theorem clockOf_applyCancel (s : State) (q : Req) (target : ReqId) : clockOf (applyCancel s q target).1 = clockOf s := by
  unfold applyCancel
  split
  · simp
  · split
    · dsimp only
      split <;> simp
    · simp

/-! ### Programs of units -/

theorem clockOf_of_fetchProgram_error {s t : State} {c : Nat} {d : UnitDesc} (h : fetchProgram s c d = .error t) :
    clockOf t = clockOf s := by
  unfold fetchProgram at h
  dsimp only at h
  split at h <;> cases h
  exact clockOf_holdTicket _ _

theorem clockOf_of_fetchProgram_ok {s : State} {c : Nat} {d : UnitDesc} {p : State × List W128} (h : fetchProgram s c d = .ok p) :
    clockOf p.1 = clockOf s := by
  unfold fetchProgram at h
  dsimp only at h
  split at h
  · cases h
  next hd =>
    cases h
    exact (clockOf_setCore _ _ _).trans (clockOf_of_drawTokens hd)

@[simp] theorem clockOf_loadAhead (s : State) (c : Nat) : clockOf (loadAhead s c) = clockOf s := by
  unfold loadAhead
  split
  · rfl
  · split
    · rfl
    · split
      next h => exact clockOf_of_fetchProgram_error h
      next h => exact (clockOf_setCore _ _ _).trans (clockOf_of_fetchProgram_ok h)

/-! ### Stages of retrievals and generations -/

@[simp] theorem clockOf_onTokenized (s : State) (q : Req) (v : Serve) : clockOf (onTokenized s q v) = clockOf s := by
  unfold onTokenized
  split <;> simp

@[simp] theorem clockOf_onSearched (s : State) (q : Req) (v : Serve) (peers : List Entry) (skipped scored filtered tombstoned : Nat) :
    clockOf (onSearched s q v peers skipped scored filtered tombstoned) = clockOf s := by
  unfold onSearched
  split <;> simp

@[simp] theorem clockOf_onReranked (s : State) (q : Req) (v : Serve) : clockOf (onReranked s q v) = clockOf s := by
  unfold onReranked
  split <;> simp

@[simp] theorem clockOf_onPacked (s : State) (q : Req) (v : Serve) : clockOf (onPacked s q v) = clockOf s := by
  unfold onPacked
  split
  · split
    · rfl
    · dsimp only
      split <;> simp
  · rfl

@[simp] theorem clockOf_tellToken (s : State) (r : ReqId) (before after : Serve) : clockOf (tellToken s r before after) = clockOf s := by
  unfold tellToken
  split <;> simp

@[simp] theorem clockOf_onSampled (s : State) (q : Req) (v : Serve) : clockOf (onSampled s q v) = clockOf s := by
  unfold onSampled
  split <;> simp

@[simp] theorem clockOf_onServe (s : State) (r : ReqId) (f : State → Req → Serve → State) (h : ∀ s q v, clockOf (f s q v) = clockOf s) :
    clockOf (onServe s r f) = clockOf s := by
  unfold onServe
  split
  · split
    · exact h _ _ _
    · rfl
  · rfl

@[simp] theorem clockOf_applyResult (s : State) (x : UnitResult) : clockOf (applyResult s x) = clockOf s := by
  unfold applyResult
  split <;> simp

/-! ### Double faults -/

@[simp] theorem clockOf_faultReqs (s : State) (f : Req → Bool) : clockOf (faultReqs s f) = clockOf s := by
  unfold faultReqs
  refine clockOf_foldl _ _ _ fun s a => ?_
  split <;> simp

@[simp] theorem clockOf_doubleFault (s : State) (u : UnitDesc) (key : Nat) : clockOf (doubleFault s u key) = clockOf s := by
  unfold doubleFault
  dsimp only
  split
  · simp
  · split
    · split
      · split <;> split <;> simp
      · simp
      · simp
    · split
      · split <;> simp
      · simp
    · simp

/-! ### Units that end -/

@[simp] theorem clockOf_releaseSuccs (s : State) (l : List Nat) : clockOf (releaseSuccs s l) = clockOf s := by rfl

@[simp] theorem clockOf_freeGroups (s : State) : clockOf (freeGroups s) = clockOf s := by rfl

@[simp] theorem clockOf_unitEnded (s : State) (d : UnitDesc) (res : UnitResult) :
    clockOf (unitEnded s d res) = clockOf s := by simp [unitEnded]

@[simp] theorem clockOf_finishUnit (s : State) (c : Nat) : clockOf (finishUnit s c) = clockOf s := by
  unfold finishUnit
  dsimp only
  split <;> simp

@[simp] theorem clockOf_finishAll (s : State) : clockOf (finishAll s) = clockOf s := by simp [finishAll]

/-! ### Protection and Glades -/

@[simp] theorem clockOf_bumpStore (s : State) (code : Nat) : clockOf (bumpStore s code) = clockOf s := by
  unfold bumpStore
  split <;> rfl

@[simp] theorem clockOf_setStore (s : State) (f : Store → Store) : clockOf (setStore s f) = clockOf s := by rfl

@[simp] theorem clockOf_configDone (s : State) (q : Req) : clockOf (configDone s q) = clockOf s := by simp [configDone]

@[simp] theorem clockOf_putBuckets (s : State) (g : GladeSettings) : clockOf (putBuckets s g) = clockOf s := by rfl

@[simp] theorem clockOf_putGlade (s : State) (g : Nat) (x : Option GladeState) : clockOf (putGlade s g x) = clockOf s := by rfl

@[simp] theorem clockOf_gladeChanged (s : State) (g : Nat) : clockOf (gladeChanged s g) = clockOf s := by simp [gladeChanged]

@[simp] theorem clockOf_assignShares (s : State) : clockOf (assignShares s) = clockOf s := by
  refine clockOf_foldl_fst _ (fun p g => ?_) _ _
  split <;> simp

@[simp] theorem clockOf_endDenied (s : State) (g : GladeSettings) : clockOf (endDenied s g) = clockOf s := by
  unfold endDenied
  refine clockOf_foldl _ _ _ fun s a => ?_
  split
  · rfl
  · split
    · split <;> simp
    · split <;> simp
    · rfl

@[simp] theorem clockOf_applyGladeSet (s : State) (g : GladeSettings) : clockOf (applyGladeSet s g) = clockOf s := by
  unfold applyGladeSet
  split <;> simp

@[simp] theorem clockOf_applyPending (s : State) : clockOf (applyPending s) = clockOf s := by
  refine clockOf_foldl _ _ _ fun s g => ?_
  split
  · split
    · split <;> simp
    · rfl
  · rfl

@[simp] theorem clockOf_putTenant (s : State) (n : Nat) (t : Option TenBind) : clockOf (putTenant s n t) = clockOf s := by rfl

@[simp] theorem clockOf_putOper (s : State) (n : Nat) (o : Option OperBind) : clockOf (putOper s n o) = clockOf s := by rfl

@[simp] theorem clockOf_denyItems (s : State) (t : Nat) : clockOf (denyItems s t) = clockOf s := by
  unfold denyItems
  refine clockOf_foldl _ _ _ fun s a => ?_
  split <;> simp

@[simp] theorem clockOf_applyTenantUnbind (s : State) (q : Req) (t : Nat) :
    clockOf (applyTenantUnbind s q t) = clockOf s := by simp [applyTenantUnbind]

@[simp] theorem clockOf_applyPolicy (s : State) (q : Req) (p : Policy) : clockOf (applyPolicy s q p) = clockOf s := by
  unfold applyPolicy
  refine clockOf_foldl _ _ _ fun s a => ?_
  split <;> simp

@[simp] theorem clockOf_giveKek (s : State) (n : Nat) (kek : BitVec 256) : clockOf (giveKek s n kek) = clockOf s := by
  unfold giveKek
  split <;> simp

@[simp] theorem clockOf_applyCredential (s : State) (q : Req) (role principal : Nat) (b : Blob) :
    clockOf (applyCredential s q role principal b) = clockOf s := by
  unfold applyCredential
  split
  · simp
  · split <;> simp
  · split <;> simp

@[simp] theorem clockOf_applyReset (s : State) (q : Req) : clockOf (applyReset s q) = clockOf s := by simp [applyReset]

@[simp] theorem clockOf_applyTenantBind (s : State) (b : TenantBody) (x : Blob) : clockOf (applyTenantBind s b x) = clockOf s := by rfl

@[simp] theorem clockOf_applyGladeRemove (s : State) (q : Req) (g : Nat) : clockOf (applyGladeRemove s q g) = clockOf s := by
  unfold applyGladeRemove
  refine clockOf_foldl _ _ _ fun s a => ?_
  split <;> simp

@[simp] theorem clockOf_applyGladeDefine (s : State) (g : GladeSettings) :
    clockOf (applyGladeDefine s g) = clockOf s := by simp [applyGladeDefine]

@[simp] theorem clockOf_putProfile (s : State) (n : Nat) (p : Option Profile) : clockOf (putProfile s n p) = clockOf s := by rfl

@[simp] theorem clockOf_applyProtection (s : State) (q : Req) (i : Instr) : clockOf (applyProtection s q i) = clockOf s := by
  unfold applyProtection
  split
  case h_3 | h_6 | h_9 => split <;> simp
  all_goals simp

@[simp] theorem clockOf_loadStore (s : State) (i : StoreImage) : clockOf (loadStore s i) = clockOf s := by
  simp only [loadStore, clockOf_setReady, clockOf_assignShares]
  refine (clockOf_foldl _ _ _ fun s p => ?_).trans ((clockOf_foldl _ _ _ fun s g => ?_).trans
    ((clockOf_foldl _ _ _ fun s g => clockOf_setFunc _ _ _).trans rfl))
  · split
    · split <;> simp
    · rfl
  · split <;> simp

@[simp] theorem clockOf_applyRestore (s : State) (q : Req) (generation : Nat) : clockOf (applyRestore s q generation) = clockOf s := by
  unfold applyRestore
  split <;> simp

/-! ### Table changes -/

@[simp] theorem clockOf_putTileImage (s : State) (t : TileImage) : clockOf (putTileImage s t) = clockOf s := by
  unfold putTileImage
  split <;> rfl

@[simp] theorem clockOf_beginApply (s : State) (q : Req) (table : Nat) (rows : List RowRecord) :
    clockOf (beginApply s q table rows) = clockOf s := by
  unfold beginApply
  split <;> simp

@[simp] theorem clockOf_swapTable (s : State) (q : Req) (v : TableVer) : clockOf (swapTable s q v) = clockOf s := by simp [swapTable]

@[simp] theorem clockOf_applyTable (s : State) (q : Req) (i : Instr) : clockOf (applyTable s q i).1 = clockOf s := by
  unfold applyTable
  split
  · split <;> simp
  · split
    · split
      · split <;> simp
      · rfl
    · rfl
  · simp
  · simp
  · rfl

@[simp] theorem clockOf_dropVersions (s : State) (gone : TableVer → Bool) :
    clockOf (dropVersions s gone) = clockOf s := by simp [dropVersions]

@[simp] theorem clockOf_freeVersions (s : State) : clockOf (freeVersions s) = clockOf s := by simp [freeVersions]

/-! ### Images -/

@[simp] theorem clockOf_failLoad (s : State) (q : Req) (check : Nat) : clockOf (failLoad s q check) = clockOf s := by simp [failLoad]

@[simp] theorem clockOf_swapImage (s : State) (q : Req) (j : LoadJob) (m : ImageMeta) :
    clockOf (swapImage s q j m) = clockOf s := by simp [swapImage]

@[simp] theorem clockOf_applyLoad (s : State) (q : Req) (j : LoadJob) : clockOf (applyLoad s q j).1 = clockOf s := by
  unfold applyLoad
  split
  · split
    · rfl
    · split <;> simp
  · rfl

@[simp] theorem clockOf_freeOutgoing (s : State) : clockOf (freeOutgoing s) = clockOf s := by
  unfold freeOutgoing
  split <;> simp

@[simp] theorem clockOf_freeDrained (s : State) : clockOf (freeDrained s) = clockOf s := by
  unfold freeDrained
  split <;> simp

@[simp] theorem clockOf_freeImages (s : State) : clockOf (freeImages s) = clockOf s := by simp [freeImages]

/-! ### Indexes -/

@[simp] theorem clockOf_drawKey (s : State) (p : Purpose) (glade tenant : Option Nat) :
    clockOf (drawKey s p glade tenant).1 = clockOf s := by rfl

@[simp] theorem clockOf_drawXtsKey (s : State) (p : Purpose) (glade tenant : Option Nat) :
    clockOf (drawXtsKey s p glade tenant).1 = clockOf s := by rfl

@[simp] theorem clockOf_applyIndex (s : State) (q : Req) (b : LoadIndexBody) (n : Nat) : clockOf (applyIndex s q b n) = clockOf s := by
  unfold applyIndex
  split
  · simp
  · dsimp only
    split <;> simp

@[simp] theorem clockOf_settleItems (s : State) (r : ReqId) : clockOf (settleItems s r) = clockOf s := by
  unfold settleItems
  split
  · split <;> simp
  · rfl

/-! ### Items, merges, deletions -/

@[simp] theorem clockOf_applyItem (s0 s : State) (r : ReqId) (n : Nat) : clockOf (applyItem s0 s r n).1 = clockOf s := by
  unfold applyItem
  split
  · rfl
  · split
    · split
      · split
        · rfl
        · split <;> simp
      · rfl
    · rfl

@[simp] theorem clockOf_applyDelete (s0 s : State) (q : Req) (b : DeleteBody) : clockOf (applyDelete s0 s q b).1 = clockOf s := by
  unfold applyDelete
  split
  · simp
  · split
    · simp
    · dsimp only
      split <;> simp

@[simp] theorem clockOf_applyFarDelete (s0 s : State) (handle : Nat) (tenant : Option Nat) (ranges : List (Nat × Nat)) :
    clockOf (applyFarDelete s0 s handle tenant ranges).1 = clockOf s := by
  unfold applyFarDelete
  split
  · rfl
  · split <;> simp

@[simp] theorem clockOf_applySnapshot (s : State) (h : Nat) : clockOf (applySnapshot s h) = clockOf s := by
  unfold applySnapshot
  split <;> rfl

@[simp] theorem clockOf_applySwap (s : State) (h : Nat) : clockOf (applySwap s h).1 = clockOf s := by
  unfold applySwap
  split
  · rfl
  · split
    · rfl
    · split
      · rfl
      · split
        · rfl
        · split
          · dsimp only
            split <;> simp

@[simp] theorem clockOf_autoMerges (s : State) : clockOf (autoMerges s) = clockOf s := by
  unfold autoMerges
  refine clockOf_foldl _ _ _ fun s a => ?_
  split <;> simp

@[simp] theorem clockOf_removeGrants (s : State) (h : Nat) : clockOf (removeGrants s h) = clockOf s := by rfl

@[simp] theorem clockOf_applyDrop (s : State) (q : Req) (h : Nat) : clockOf (applyDrop s q h) = clockOf s := by
  unfold applyDrop
  dsimp only
  split <;> simp only [clockOf_configDone, clockOf_bumpStore, clockOf_mk, clock_eta, clockOf_putIndex, clockOf_removeGrants, clockOf_dropMerge]
  all_goals
    refine clockOf_foldl _ _ _ fun s x => ?_
    split <;> simp

@[simp] theorem clockOf_applyRetain (s : State) (q : Req) (h seconds : Nat) : clockOf (applyRetain s q h seconds) = clockOf s := by
  unfold applyRetain
  split <;> simp

@[simp] theorem clockOf_applyPolicyOf (s : State) (q : Req) (h threshold : Nat) : clockOf (applyPolicyOf s q h threshold) = clockOf s := by
  unfold applyPolicyOf
  split <;> simp

@[simp] theorem clockOf_dropPins (s : State) : clockOf (dropPins s) = clockOf s := by rfl

@[simp] theorem clockOf_forgetIndex (s : State) (i : Index) : clockOf (forgetIndex s i) = clockOf s := by simp [forgetIndex]

@[simp] theorem clockOf_freeIndexes (s : State) : clockOf (freeIndexes s) = clockOf s := by
  unfold freeIndexes
  refine clockOf_foldl _ _ _ fun s a => ?_
  split <;> simp

@[simp] theorem clockOf_freeTenants (s : State) : clockOf (freeTenants s) = clockOf s := by rfl

/-! ### Ports and sets -/

@[simp] theorem clockOf_setPortState (s : State) (p n : Nat) : clockOf (setPortState s p n) = clockOf s := by simp [setPortState]

@[simp] theorem clockOf_applySetForm (s : State) (q : Req) (b : SetBody) :
    clockOf (applySetForm s q b) = clockOf s := by simp [applySetForm]

@[simp] theorem clockOf_applyDissolve (s : State) (q : Req) : clockOf (applyDissolve s q) = clockOf s := by
  simp only [applyDissolve, clockOf_configDone, clockOf_bumpStore, clockOf_setGroveState, clockOf_mk, clock_eta, clockOf_setStore,
    clockOf_setReady, clockOf_dropVersions]
  refine clockOf_foldl _ _ _ fun s x => ?_
  split <;> simp

@[simp] theorem clockOf_releaseEnded (s : State) : clockOf (releaseEnded s) = clockOf s := by simp [releaseEnded]

@[simp] theorem clockOf_shareEntries (s : State) : clockOf (shareEntries s) = clockOf s := by simp [shareEntries]

/-! ### Scans of the Understory -/

@[simp] theorem clockOf_applyChannelOut (s : State) (c : Nat) : clockOf (applyChannelOut s c) = clockOf s := by rfl

@[simp] theorem clockOf_applyMoveEnd (s : State) (c : Nat) : clockOf (applyMoveEnd s c) = clockOf s := by rfl

@[simp] theorem clockOf_dropScan (s : State) (c tag : Nat) : clockOf (dropScan s c tag) = clockOf s := by rfl

@[simp] theorem clockOf_putScan (s : State) (x : UScan) : clockOf (putScan s x) = clockOf s := by rfl

theorem clockOf_of_scanDraw {s t : State} {x : UScan} {r : Resource} {n which : Nat} (h : scanDraw s x r n which = some t) :
    clockOf t = clockOf s := by
  unfold scanDraw at h
  split at h
  · exact clockOf_of_drawTokens h
  · cases h
    rfl

@[simp] theorem clockOf_scanHold (s : State) (x : UScan) (r : Resource) (which : Nat) : clockOf (scanHold s x r which) = clockOf s := by
  unfold scanHold
  split <;> simp

@[simp] theorem clockOf_mismatchStop (s : State) (x : UScan) : clockOf (mismatchStop s x) = clockOf s := by rfl

/-- What a piece of a scan's work answers with leaves the clock alone. -/
def UStep.keeps (s : State) : UStep → Prop
  | .wait t => clockOf t = clockOf s
  | .stop t => clockOf t = clockOf s
  | .go t _ => clockOf t = clockOf s

theorem scanOne_keeps (s : State) (x : UScan) (t : TableSet) (r : SegmentRef) : (scanOne s x t r).keeps s := by
  unfold scanOne
  dsimp only
  split
  · rfl
  · split
    · exact clockOf_mismatchStop _ _
    · split
      · exact clockOf_doubleFault _ _ _
      · split
        · rfl
        · split
          · exact clockOf_scanHold _ _ _ _
          next h =>
            have hd := clockOf_of_scanDraw h
            split
            · exact (clockOf_mismatchStop _ _).trans ((clockOf_pageOp _).trans hd)
            · exact (clockOf_pageOp _).trans hd

@[simp] theorem clockOf_candidateTile (s : State) (x : UScan) (dest : Nat) : clockOf (candidateTile s x dest) = clockOf s := by rfl

theorem drainOne_keeps (s : State) (x : UScan) (dest : Nat) : (drainOne s x dest).keeps s := by
  unfold drainOne
  split
  · rfl
  · split
    · rfl
    · split
      · exact clockOf_scanHold _ _ _ _
      next h => exact (clockOf_candidateTile _ _ _).trans (clockOf_of_scanDraw h)

theorem scanStep_keeps (s : State) (x : UScan) (w : UTodo) : (scanStep s x w).keeps s := by
  cases w with
  | seg t r =>
    rw [scanStep]
    split
    · exact scanOne_keeps _ _ _ _
    · rfl
  | drain d => exact drainOne_keeps _ _ _

@[simp] theorem clockOf_runScan (l : List UTodo) (s : State) (x : UScan) : clockOf (runScan l s x) = clockOf s := by
  induction l generalizing s x with
  | nil => rfl
  | cons w l ih =>
    unfold runScan
    have hk := scanStep_keeps s x w
    split <;> rename_i h <;> rw [h] at hk
    · exact (clockOf_putScan _ _).trans hk
    · exact (clockOf_dropScan _ _ _).trans hk
    · exact (ih _ _).trans hk

@[simp] theorem clockOf_runScans (s : State) : clockOf (runScans s) = clockOf s := by simp [runScans]

/-! ### Power -/

@[simp] theorem clockOf_recost (s : State) : clockOf (recost s) = clockOf s := by rfl

@[simp] theorem clockOf_applyPower (s : State) (sust peak : Nat) : clockOf (applyPower s sust peak) = clockOf s := by
  unfold applyPower
  split <;> rfl

@[simp] theorem clockOf_applyCut (s : State) : clockOf (applyCut s) = clockOf s := by
  unfold applyCut
  split <;> simp

@[simp] theorem clockOf_applyPorts (s : State) : clockOf (applyPorts s) = clockOf s := by simp [applyPorts]

@[simp] theorem clockOf_choosePoint (s : State) (plan : List (Nat × Nat)) : clockOf (choosePoint s plan) = clockOf s := by rfl

@[simp] theorem clockOf_reserveRates (s : State) : clockOf (reserveRates s) = clockOf s := by
  unfold reserveRates
  refine clockOf_foldl _ _ _ fun s a => ?_
  split <;> simp

@[simp] theorem clockOf_applyHostScale (s : State) : clockOf (applyHostScale s) = clockOf s := by
  unfold applyHostScale
  refine clockOf_foldl _ _ _ fun s a => ?_
  split <;> simp

@[simp] theorem clockOf_moduleEvent (s : State) (code detail : Nat) : clockOf (moduleEvent s code detail) = clockOf s := by rfl

@[simp] theorem clockOf_setPoint (s : State) (n : Nat) (p : VfPoint) : clockOf (setPoint s n p) = clockOf s := by rfl

@[simp] theorem clockOf_replanPoint (s : State) (n steps : Nat) : clockOf (replanPoint s n steps) = clockOf s := by simp [replanPoint]

@[simp] theorem clockOf_setOver (s : State) : clockOf (setOver s) = clockOf s := by simp [setOver]

@[simp] theorem clockOf_applyReplan (s : State) (needed : List (Nat × Nat)) (site slack : Nat) :
    clockOf (applyReplan s needed site slack) = clockOf s := by simp [applyReplan]

/-! ### The parts of the boundary -/

@[simp] theorem clockOf_mapServes (s : State) (f : Serve → Serve) : clockOf (mapServes s f) = clockOf s := by rfl

@[simp] theorem clockOf_eachServe (s : State) (f : State → Req → Serve → State) (h : ∀ s q v, clockOf (f s q v) = clockOf s) :
    clockOf (eachServe s f) = clockOf s := by
  refine clockOf_foldl _ _ _ fun s q => ?_
  split
  · split
    · exact h _ _ _
    · rfl
  · rfl

@[simp] theorem clockOf_leaveAll (s : State) : clockOf (leaveAll s) = clockOf s := by
  refine clockOf_eachServe _ _ fun s q v => ?_
  split <;> simp

@[simp] theorem clockOf_endDoomed (s : State) : clockOf (endDoomed s) = clockOf s := by
  refine clockOf_eachServe _ _ fun s q v => ?_
  split
  · dsimp only
    split <;> simp
  · rfl

@[simp] theorem clockOf_writeSegments (s : State) : clockOf (writeSegments s) = clockOf s := by simp [writeSegments]

@[simp] theorem clockOf_applyFirmware (s : State) : clockOf (applyFirmware s) = clockOf s := by rfl

@[simp] theorem clockOf_applyExport (s : State) (q : Req) (c : Instr) : clockOf (applyExport s q c) = clockOf s := by simp [applyExport]

@[simp] theorem clockOf_applyConfig (s : State) (q : Req) (c : Instr) : clockOf (applyConfig s q c).1 = clockOf s := by
  unfold applyConfig
  split
  · simp
  · split
    case h_4 => split <;> simp
    all_goals simp

@[simp] theorem clockOf_applyReq (s0 s : State) (q : Req) : clockOf (applyReq s0 s q).1 = clockOf s := by
  unfold applyReq
  split <;> simp

@[simp] theorem clockOf_applyPair (s : State) (n : Nat) : clockOf (applyPair s n) = clockOf s := by
  unfold applyPair
  dsimp only
  split <;> simp

@[simp] theorem clockOf_applyExpire (s : State) (id reason : Nat) : clockOf (applyExpire s id reason) = clockOf s := by
  unfold applyExpire
  split <;> simp

@[simp] theorem clockOf_logHeld (s : State) : clockOf (logHeld s) = clockOf s := by simp [logHeld]

@[simp] theorem clockOf_applyLinkReset (s : State) : clockOf (applyLinkReset s) = clockOf s := by
  simp only [applyLinkReset, clockOf_mk, clock_eta]
  refine (clockOf_foldl _ _ _ fun s x => clockOf_closeSession s x none).trans ((clockOf_foldl _ _ _ fun s q => ?_).trans (clockOf_logHeld s))
  split <;> simp

@[simp] theorem clockOf_applyReg (s : State) (offset : Nat) (value : W64) :
    clockOf (applyReg s offset value) = clockOf s := by simp [applyReg]

@[simp] theorem clockOf_putHome (s : State) (c : Nat) (h : Option Nat) : clockOf (putHome s c h) = clockOf s := by
  unfold putHome
  split <;> rfl

@[simp] theorem clockOf_moveCore (s : State) (c : Nat) : clockOf (moveCore s c) = clockOf s := by simp [moveCore]

@[simp] theorem clockOf_moveCores (s : State) : clockOf (moveCores s) = clockOf s := by simp [moveCores]

@[simp] theorem clockOf_fillAbsent (n : Nat) (s : State) : clockOf (fillAbsent n s) = clockOf s := by
  induction n generalizing s with
  | zero => rfl
  | succ n ih =>
    unfold fillAbsent
    split
    · split
      · split
        · exact (ih _).trans (clockOf_putHome _ _ _)
        · rfl
      · rfl
    · rfl

@[simp] theorem clockOf_holdBack (s : State) : clockOf (holdBack s) = clockOf s := by rfl

@[simp] theorem clockOf_coverAbsent (s : State) : clockOf (coverAbsent s) = clockOf s := by
  refine clockOf_foldl_fst _ (fun p g => ?_) _ _
  split <;> simp

@[simp] theorem clockOf_applyUnfence (s : State) (site : Nat) : clockOf (applyUnfence s site).1 = clockOf s := by
  unfold applyUnfence
  dsimp only
  split
  · trivial
  · split
    · trivial
    · split
      · trivial
      · split <;> simp

@[simp] theorem clockOf_applyChange (s0 s : State) (c : Change) : clockOf (applyChange s0 s c).1 = clockOf s := by
  unfold applyChange
  split
  case h_1 => split <;> simp
  all_goals simp

@[simp] theorem clockOf_applyAll (s : State) : clockOf (applyAll s) = clockOf s := by simp [applyAll]

@[simp] theorem clockOf_failSet (s : State) : clockOf (failSet s) = clockOf s := by
  unfold failSet
  refine clockOf_foldl _ _ _ fun s a => ?_
  split <;> simp

@[simp] theorem clockOf_membersOut (s : State) : clockOf (membersOut s) = clockOf s := by simp [membersOut]

@[simp] theorem clockOf_membersBack (s : State) : clockOf (membersBack s) = clockOf s := by simp [membersBack]

@[simp] theorem clockOf_ownReady (s : State) : clockOf (ownReady s) = clockOf s := by simp [ownReady]

@[simp] theorem clockOf_setBoundary (s : State) : clockOf (setBoundary s) = clockOf s := by
  unfold setBoundary
  split
  · rfl
  · simp

@[simp] theorem clockOf_endUnfit (s : State) : clockOf (endUnfit s) = clockOf s := by
  unfold endUnfit
  split
  · rfl
  · refine (clockOf_foldl _ _ _ fun s r => ?_).trans rfl
    split
    · split <;> simp
    · rfl

@[simp] theorem clockOf_dropEnded (s : State) : clockOf (dropEnded s) = clockOf s := by simp [dropEnded]

@[simp] theorem clockOf_loadAheads (s : State) : clockOf (loadAheads s) = clockOf s := by simp [loadAheads]

@[simp] theorem clockOf_freeAll (s : State) : clockOf (freeAll s) = clockOf s := by simp [freeAll]

@[simp] theorem clockOf_seqsBefore (s : State) (begins : Bool) : clockOf (seqsBefore s begins) = clockOf s := by simp [seqsBefore]

@[simp] theorem clockOf_seqsAfter (s : State) (begins : Bool) : clockOf (seqsAfter s begins) = clockOf s := by simp [seqsAfter]

@[simp] theorem clockOf_sitesAfter (s : State) : clockOf (sitesAfter s) = clockOf s := by simp [sitesAfter]

@[simp] theorem clockOf_powerAfter (s : State) (p : BoundaryPlan) : clockOf (powerAfter s p) = clockOf s := by simp [powerAfter]

end Sys2Proof.Machine
end

section
/-!
SUPPORT. The clock over a whole boundary: what begins it, what it commits, and that nothing else moves the clock.
-/
namespace Sys2Proof.Machine

open Sys2Proof.Claims

/-- The state in which a boundary begins: the time has come, and the step is the next. -/
def beginStep (s : State) : State :=
  let s := advance s (s.sched.start + boundaryGap s - s.time)
  { s with
    chip := { s.chip with step := s.chip.step + 1 }
    sched := { s.sched with start := s.time, lag := [] }
    tabs := { s.tabs with stepRows := 0 }
    media := { s.media with spareCost := s.media.spareInUse } }

/-- The state in which the boundary commits its plan. -/
def beforeCommit (s : State) : State :=
  let begins := iterationEnds s
  let s := dropLeaving (releaseEnded (seqsBefore (beginStep s) begins))
  let s := applyAll { s with sched := { s.sched with inside := !begins } }
  let s := endUnfit (setBoundary s)
  let s := nextStep (seqsAfter { s with sched := { s.sched with inside := false } } begins) begins
  let s := shareEntries (applyPending (sitesAfter (freeAll s)))
  dropEnded { s with sched := { s.sched with lag := [], admits := s.sched.admits + 1 } }

/-- What follows the commit. -/
def afterCommit (s : State) (p : BoundaryPlan) : State :=
  finishAll (goAll (loadAheads (runScans (reserveRates (powerAfter s p)))) 0)

theorem boundary_eq (s : State) (p : BoundaryPlan) : boundary s p = afterCommit (commitPlan (beforeCommit s) p) p := by
  unfold boundary afterCommit beforeCommit beginStep
  with_reducible rfl

/-- The clock's fields of a state whose clock is known. -/
theorem clockOf_eq_iff (s : State) (c : Clock) : clockOf s = c ↔ s.time = c.time ∧ s.chip.step = c.step ∧ s.kt.life = c.life
    ∧ s.power.deep = c.deep ∧ s.sched.start = c.start ∧ s.sched.length = c.length ∧ s.sched.runAt = c.runAt ∧ s.sched.runOf = c.runOf
    ∧ s.sched.admits = c.admits := by
  obtain ⟨time, step, life, deep, start, length, runAt, runOf, admits⟩ := c
  exact Clock.mk.injEq .. ▸ Iff.rfl

theorem clockOf_advance (s : State) (n : Nat) : clockOf (advance s n) = { clockOf s with time := s.time + n } := by
  unfold advance
  dsimp only
  split
  next h => rw [h]; rfl
  · rfl

/-- The time is at least the least gap after the boundary before (R8, R479). -/
theorem clockOf_beginStep (s : State) : clockOf (beginStep s) = { clockOf s with
    time := max s.time (s.sched.start + boundaryGap s), step := s.chip.step + 1, start := max s.time (s.sched.start + boundaryGap s) } := by
  have hm : s.time + (s.sched.start + boundaryGap s - s.time) = max s.time (s.sched.start + boundaryGap s) := by omega
  obtain ⟨htime, hstep, hlife, hdeep, -, hlength, hat, hof, hadmits⟩ :=
    (clockOf_eq_iff _ _).mp (hm ▸ clockOf_advance s (s.sched.start + boundaryGap s - s.time))
  exact (clockOf_eq_iff _ _).mpr ⟨htime, congrArg (· + 1) hstep, hlife, hdeep, htime, hlength, hat, hof, hadmits⟩

theorem clockOf_nextStep (s : State) (begins : Bool) : clockOf (nextStep s begins) = { clockOf s with
    runAt := if begins then 0 else (clockOf s).runAt + 1, runOf := (nextStep s begins).sched.runOf } := by
  cases begins <;> rfl

theorem boundaryGap_bounds (s : State) : 250 ≤ boundaryGap s ∧ boundaryGap s ≤ 20000 := by
  unfold boundaryGap
  split <;> decide

/-- R8: a step is tiled no shorter than the gap and no longer than 20 ms. -/
theorem stepLength_bounds (s t : State) : 250 ≤ stepLength s (boundaryGap t) ∧ stepLength s (boundaryGap t) ≤ 20000 := by
  have := boundaryGap_bounds t
  unfold stepLength
  omega

theorem clockOf_admit (s : State) : clockOf { s with sched := { s.sched with lag := [], admits := s.sched.admits + 1 } }
    = { clockOf s with admits := (clockOf s).admits + 1 } := rfl

/-- Up to the commit, the boundary moves the clock to the next step and admits the batch's units. -/
theorem clockOf_beforeCommit (s : State) : ∃ n, clockOf (beforeCommit s) = { clockOf (beginStep s) with
    runAt := if iterationEnds s then 0 else s.sched.runAt + 1, runOf := n, admits := s.sched.admits + 1 } := by
  unfold beforeCommit
  dsimp only
  rw [clockOf_dropEnded, clockOf_admit, clockOf_shareEntries, clockOf_applyPending, clockOf_sitesAfter, clockOf_freeAll, clockOf_nextStep]
  simp only [clockOf_seqsAfter, clockOf_mk, clock_eta, clockOf_endUnfit, clockOf_setBoundary, clockOf_applyAll, clockOf_dropLeaving,
    clockOf_releaseEnded, clockOf_seqsBefore, clockOf_beginStep]
  exact ⟨_, rfl⟩

@[simp] theorem clockOf_afterCommit (s : State) (p : BoundaryPlan) : clockOf (afterCommit s p) = clockOf s := by
  simp [afterCommit]

/-! ### The commit -/

/-- The state with the plan's tiles, the step's length and its cold experts: what `commitPlan` adds the units to. -/
def tiled (s : State) (p : BoundaryPlan) : State :=
  let s := p.tiles.foldl putTileImage s
  { s with sched := { s.sched with length := stepLength s (boundaryGap s), staging := stepRounds s } }

/-- The tiled state, woken where the plan holds work. -/
def woken (s : State) (p : BoundaryPlan) : State :=
  if p.units.isEmpty && p.links.isEmpty then tiled s p else wake (tiled s p)

theorem commitPlan_eq (s : State) (p : BoundaryPlan) : commitPlan s p = if !mayWork (tiled s p) then tiled s p else
    { woken s p with chip := { (woken s p).chip with
      units := (woken s p).chip.units ++ ((p.units.filter (unitOk (woken s p) p)).take 65536).map
        (fun d => ⟨d, d.preds, false, admitOrder (woken s p) d⟩)
      groups := (woken s p).chip.groups ++ p.groups.map (fun g => ⟨g, 0, []⟩)
      links := (woken s p).chip.links ++ p.links.map (fun l => ⟨l.1, l.2, l.2.preds, false⟩) } } := rfl

theorem clockOf_wake (s : State) : clockOf (wake s)
    = if s.power.deep then { clockOf s with deep := false, length := s.time + 310 - s.sched.start } else clockOf s := by
  unfold wake
  split <;> rfl

theorem clockOf_tiled (s : State) (p : BoundaryPlan) : clockOf (tiled s p) = { clockOf s with length := (tiled s p).sched.length } := by
  have h : clockOf (p.tiles.foldl putTileImage s) = clockOf s := clockOf_foldl _ _ _ clockOf_putTileImage
  rw [← h]
  rfl

theorem tiled_length_bounds (s : State) (p : BoundaryPlan) : 250 ≤ (tiled s p).sched.length ∧ (tiled s p).sched.length ≤ 20000 :=
  stepLength_bounds _ _

/-- The commit leaves all of the clock but the length and DEEP IDLE; a wake takes 310 µs (R479). -/
theorem clockOf_commitPlan (s : State) (p : BoundaryPlan) (hs : s.sched.start = s.time) :
    ∃ n d, clockOf (commitPlan s p) = { clockOf s with length := n, deep := d } ∧ 250 ≤ n ∧ n ≤ 20000 := by
  have hb := tiled_length_bounds s p
  have hp := clockOf_tiled s p
  have hw : clockOf (woken s p) = clockOf (tiled s p)
      ∨ clockOf (woken s p) = { clockOf (tiled s p) with deep := false, length := 310 } := by
    obtain ⟨htime, -, -, -, hstart, -⟩ := (clockOf_eq_iff _ _).mp hp
    have h310 : (tiled s p).time + 310 - (tiled s p).sched.start = 310 := by rw [htime, hstart]; simp only [clockOf]; omega
    unfold woken
    split
    · exact .inl rfl
    · rw [clockOf_wake, h310]
      split
      · exact .inr rfl
      · exact .inl rfl
  rw [commitPlan_eq]
  split
  · exact ⟨_, s.power.deep, hp, hb⟩
  · simp only [clockOf_mk, clock_eta]
    rcases hw with hw | hw
    · exact ⟨_, s.power.deep, hw.trans hp, hb⟩
    · exact ⟨310, false, by rw [hw, hp], by decide, by decide⟩

/-! ### R8, R9, R319 -/

/-- The clock over a whole boundary. -/
theorem boundary_clock (s : State) (p : BoundaryPlan) : ∃ n d k, clockOf (boundary s p) = { clockOf (beginStep s) with
    length := n, deep := d, runAt := if iterationEnds s then 0 else s.sched.runAt + 1, runOf := k, admits := s.sched.admits + 1 }
    ∧ 250 ≤ n ∧ n ≤ 20000 := by
  obtain ⟨k, hk⟩ := clockOf_beforeCommit s
  obtain ⟨htime, -, -, -, hstart, -⟩ := (clockOf_eq_iff _ _).mp hk
  have hs : (beforeCommit s).sched.start = (beforeCommit s).time := by rw [htime, hstart, clockOf_beginStep]
  obtain ⟨n, d, hn, hb⟩ := clockOf_commitPlan (beforeCommit s) p hs
  exact ⟨n, d, k, by rw [boundary_eq, clockOf_afterCommit, hn, hk], hb⟩

theorem boundary_advances_step : boundariesAdvanceTheStep := by
  intro s p
  refine ⟨fun h => ?_, fun h => ?_⟩
  · simp [exec, execStepBoundary, h]
  · obtain ⟨n, d, k, hc, hb⟩ := boundary_clock s p
    rw [clockOf_beginStep] at hc
    obtain ⟨htime, hstep, hlife, -, hstart, hlength, hat, -⟩ := (clockOf_eq_iff _ _).mp hc
    refine ⟨boundary s p, by simp [exec, execStepBoundary, h], hstep, hstart.trans htime.symm, htime, ?_, ?_, hat, hlife⟩
    · exact hlength ▸ hb.1
    · exact hlength ▸ hb.2

end Sys2Proof.Machine
end

section
/-!
SUPPORT. A module at rest over a boundary: with no request, change, index, scan or core, every part of the boundary leaves it so.
-/
namespace Sys2Proof.Machine

/-- A module without work: no request, change, index, scan or core; the given units, bytes and Kettle. -/
structure Resting (units : List UnitState) (bytes : List Host.Cell) (kt : Kettle) (s : State) : Prop where
  reqs : s.reqs = []
  changes : s.changes = []
  loaded : s.idx.loaded = []
  scans : s.under.scans = []
  cores : s.chip.cores = []
  units : s.chip.units = units
  bytes : s.media.bytes = bytes
  kt : s.kt = kt

section
variable {us : List UnitState} {b : List Host.Cell} {kt : Kettle} {s : State}

theorem resting_foldl {α : Type} (f : State → α → State) (hf : ∀ s a, Resting us b kt s → Resting us b kt (f s a)) (l : List α) (s : State)
    (h : Resting us b kt s) : Resting us b kt (l.foldl f s) := by
  induction l generalizing s with
  | nil => exact h
  | cons a t ih => exact ih _ (hf s a h)

theorem resting_foldl_fst {α β : Type} (f : State × β → α → State × β) (hf : ∀ p a, Resting us b kt p.1 → Resting us b kt (f p a).1)
    (l : List α) (p : State × β) (h : Resting us b kt p.1) : Resting us b kt (l.foldl f p).1 := by
  induction l generalizing p with
  | nil => exact h
  | cons a t ih => exact ih _ (hf p a h)

theorem resting_logAdd (r : LogRec) (h : Resting us b kt s) : Resting us b kt (logAdd s r) := { h with }

theorem resting_dropKey (n : Nat) (h : Resting us b kt s) : Resting us b kt (dropKey s n) := { h with }

theorem resting_dropLeaving (h : Resting us b kt s) : Resting us b kt (dropLeaving s) :=
  resting_foldl _ (fun _ _ => resting_dropKey _) _ _ { h with }

/-! ### Tables -/

theorem resting_putHot (home : Nat) (e : Option HotRow) (h : Resting us b kt s) : Resting us b kt (putHot s home e) := { h with }

theorem resting_demote (home : Nat) (h : Resting us b kt s) : Resting us b kt (demote s home) := by
  unfold demote
  split
  · exact h
  · exact resting_putHot _ _ h

theorem resting_promote (home stride share : Nat) (pinned : Bool) (h : Resting us b kt s) :
    Resting us b kt (promote s home stride share pinned) := by
  unfold promote
  split
  · exact h
  · split
    · exact resting_putHot _ _ h
    · exact h

theorem resting_dropRange (a n : Nat) (h : Resting us b kt s) : Resting us b kt (dropRange s a n) :=
  { h with cores := by simp [dropRange, h.cores] }

theorem resting_freeRange (a n : Nat) (h : Resting us b kt s) : Resting us b kt (freeRange s a n) :=
  { resting_dropRange a n h with }

theorem resting_purgeCleared (h : Resting us b kt s) : Resting us b kt (purgeCleared s) := by
  refine resting_foldl _ (fun s p h => ?_) _ _ h
  split
  · exact resting_putHot _ _ (resting_foldl _ (fun _ _ => resting_dropRange _ _) _ _ h)
  · exact h

theorem resting_promoteWaiting (h : Resting us b kt s) : Resting us b kt (promoteWaiting s) := by
  refine resting_foldl _ (fun s w h => ?_) _ _ h
  split
  · exact h
  · exact resting_promote _ _ _ _ { h with }

theorem resting_makeRoom (stride : Nat) (h : Resting us b kt s) : Resting us b kt (makeRoom s stride) := by
  unfold makeRoom
  split
  · split
    · exact resting_purgeCleared (resting_demote _ h)
    · exact h
  · exact h

theorem resting_ensurePins (h : Resting us b kt s) : Resting us b kt (ensurePins s) := by
  refine resting_foldl _ (fun s x h => ?_) _ _ (resting_foldl _ (fun s p h => ?_) _ _ h)
  · split
    · exact h
    · exact resting_promote _ _ _ _ (resting_makeRoom _ h)
  · split
    · exact h
    · exact resting_putHot _ _ h

theorem resting_dropVersions (gone : TableVer → Bool) (h : Resting us b kt s) : Resting us b kt (dropVersions s gone) := by
  have hd : Resting us b kt ((s.tabs.versions.filter gone).foldl (fun s v => (hotList s).foldl (fun s p =>
      if decide (v.base ≤ p.1) && decide (p.1 < v.base + tableBytes v.rows v.width v.code) then demote s p.1 else s) s) s) := by
    refine resting_foldl _ (fun s v h => resting_foldl _ (fun s p h => ?_) _ _ h) _ _ h
    split
    · exact resting_demote _ h
    · exact h
  exact { resting_foldl _ (fun _ _ => resting_freeRange _ _) (s.tabs.versions.filter gone) _ hd with }

theorem resting_lockRows (v : TableVer) (rows : List RowRecord) (h : Resting us b kt s) : Resting us b kt (lockRows s v rows) := by
  refine resting_foldl _ (fun s r h => ?_) _ _ h
  split
  · split
    · exact h
    · exact resting_putHot _ _ h
  · exact h

theorem resting_askLocks (h : Resting us b kt s) : Resting us b kt (askLocks s) := by
  refine resting_foldl _ (fun s a h => ?_) _ _ h
  split
  · exact h
  · dsimp only
    split
    · exact resting_lockRows _ _ { h with }
    · exact { h with }

/-! ### Interrupts, Glades, frames -/

theorem resting_raiseEvent (f : Nat) (h : Resting us b kt s) : Resting us b kt (raiseEvent s f) := by
  unfold raiseEvent raiseVec
  split
  · split <;> exact { h with }
  · exact h

theorem resting_gladeChanged (g : Nat) (h : Resting us b kt s) : Resting us b kt (gladeChanged s g) :=
  resting_raiseEvent _ { h with }

theorem resting_putGlade (g : Nat) (x : Option GladeState) (h : Resting us b kt s) : Resting us b kt (putGlade s g x) := { h with }

theorem resting_applyPending (h : Resting us b kt s) : Resting us b kt (applyPending s) := by
  refine resting_foldl _ (fun s g h => ?_) _ _ h
  split
  · split
    · split
      · exact resting_gladeChanged _ { h with }
      · exact h
    · exact h
  · exact h

theorem resting_sendTo (m : Nat) (l : List Byte) (h : Resting us b kt s) : Resting us b kt (sendTo s m l) := by
  unfold sendTo
  split
  · split
    · exact { h with }
    · exact h
  · exact h

theorem resting_tellPeers (kind : Nat) (r : ReqId) (h : Resting us b kt s) : Resting us b kt (tellPeers s kind r) :=
  resting_foldl _ (fun _ _ => resting_sendTo _ _) _ _ h

theorem resting_setGroveState (n : Nat) (h : Resting us b kt s) : Resting us b kt (setGroveState s n) := by
  unfold setGroveState
  split
  · exact h
  · exact resting_logAdd _ { h with }

/-! ### Sequences and changes -/

theorem resting_eachServe (f : State → Req → Serve → State) (h : Resting us b kt s) : Resting us b kt (eachServe s f) := by
  simp only [eachServe, h.reqs, List.foldl_nil]
  exact h

theorem resting_mapServes (f : Serve → Serve) (h : Resting us b kt s) : Resting us b kt (mapServes s f) :=
  { h with reqs := by simp only [mapServes, h.reqs, List.map_nil] }

theorem resting_seqsBefore (begins : Bool) (h : Resting us b kt s) : Resting us b kt (seqsBefore s begins) := by
  unfold seqsBefore
  split
  · exact resting_mapServes _ (resting_eachServe _ (resting_eachServe _ h))
  · exact h

theorem resting_seqsAfter (begins : Bool) (h : Resting us b kt s) : Resting us b kt (seqsAfter s begins) := by
  unfold seqsAfter
  split
  · exact resting_eachServe _ (resting_mapServes _ h)
  · exact h

theorem resting_releaseEnded (h : Resting us b kt s) : Resting us b kt (releaseEnded s) := by
  simp only [releaseEnded, h.reqs, List.filterMap_nil, List.foldl_nil, List.map_nil]
  exact { h with reqs := rfl }

theorem resting_applyAll (h : Resting us b kt s) : Resting us b kt (applyAll s) := by
  simp only [applyAll, h.changes, List.foldl_nil]
  exact { h with changes := rfl }

theorem resting_nextStep (begins : Bool) (h : Resting us b kt s) : Resting us b kt (nextStep s begins) := by
  cases begins <;> exact { h with }

/-! ### The set -/

theorem resting_failSet (h : Resting us b kt s) : Resting us b kt (failSet s) := by
  simp only [failSet, h.reqs, List.filter_nil, List.foldl_nil]
  exact h

theorem resting_membersOut (h : Resting us b kt s) : Resting us b kt (membersOut s) := by
  unfold membersOut
  dsimp only
  split
  · exact h
  · exact resting_setGroveState _ { resting_failSet h with }

theorem resting_membersBack (h : Resting us b kt s) : Resting us b kt (membersBack s) := by
  unfold membersBack
  dsimp only
  split <;> split
  · exact resting_setGroveState _ h
  · exact h
  · exact resting_setGroveState _ { h with }
  · exact { h with }

theorem resting_ownReady (h : Resting us b kt s) : Resting us b kt (ownReady s) := by
  unfold ownReady
  dsimp only
  split
  · exact h
  · exact resting_tellPeers _ _ { h with }

theorem resting_announce (h : Resting us b kt s) : Resting us b kt (if leaderOf s = memberIndex s then
    (peersOf s).foldl (fun s m => sendTo s m (leBytes 1 10 ++ leBytes 8 s.grove.step)) s else s) := by
  split
  · exact resting_foldl _ (fun _ _ => resting_sendTo _ _) _ _ h
  · exact h

theorem resting_setBoundary (h : Resting us b kt s) : Resting us b kt (setBoundary s) := by
  unfold setBoundary
  split
  · exact h
  · exact resting_announce (resting_membersBack (resting_ownReady (resting_membersOut { h with })))

theorem resting_endUnfit (h : Resting us b kt s) : Resting us b kt (endUnfit s) := by
  have hl : unfitServes s = [] := by simp only [unfitServes, h.reqs, List.foldl_nil]
  unfold endUnfit
  split
  · exact h
  · simp only [hl, List.foldl_nil]
    exact { h with }

theorem resting_shareEntries (h : Resting us b kt s) : Resting us b kt (shareEntries s) := by
  unfold shareEntries
  split
  · exact h
  · simp only [h.reqs, List.filterMap_nil, List.filter_nil, List.foldl_nil]
    exact { resting_foldl _ (fun _ _ => resting_tellPeers _ _) (s.grove.told.filter _) _ h with }

/-! ### What is freed -/

theorem resting_closeDrained (h : Resting us b kt s) : Resting us b kt (closeDrained s) := by
  simp only [closeDrained, h.reqs, List.foldl_nil]
  exact h

theorem resting_freeTenants (h : Resting us b kt s) : Resting us b kt (freeTenants s) :=
  { h with loaded := by simp [freeTenants, setStore, h.loaded] }

theorem resting_freeIndexes (h : Resting us b kt s) : Resting us b kt (freeIndexes s) := by
  have hp : Resting us b kt (dropPins s) := { h with reqs := by simp only [dropPins, h.reqs, List.map_nil] }
  simp only [freeIndexes, hp.loaded, List.foldl_nil]
  exact hp

theorem resting_freeOutgoing (h : Resting us b kt s) : Resting us b kt (freeOutgoing s) := by
  unfold freeOutgoing
  split
  · exact h
  · split
    · exact h
    · exact { resting_dropVersions _ h with }

/-- With no request, no load is in progress. -/
theorem resting_freeDrained (h : Resting us b kt s) : Resting us b kt (freeDrained s) := by
  have hl : loading s = none := by simp only [loading, h.reqs, List.findSome?_nil]
  simp only [freeDrained, hl]
  exact h

theorem resting_autoMerges (h : Resting us b kt s) : Resting us b kt (autoMerges s) := by
  simp only [autoMerges, h.loaded, List.foldl_nil]
  exact h

theorem resting_freeVersions (h : Resting us b kt s) : Resting us b kt (freeVersions s) := resting_dropVersions _ h

theorem resting_freeAll (h : Resting us b kt s) : Resting us b kt (freeAll s) := by
  have hv := resting_freeVersions (resting_freeIndexes (resting_freeTenants (resting_closeDrained h)))
  have hi : Resting us b kt (freeImages _) := resting_freeDrained (resting_freeOutgoing hv)
  have hr : Resting us b kt (reclaim _) := resting_promoteWaiting (resting_purgeCleared hi)
  exact resting_autoMerges (resting_ensurePins hr)

/-! ### The site map -/

theorem resting_putHome (c : Nat) (x : Option Nat) (h : Resting us b kt s) : Resting us b kt (putHome s c x) := by
  unfold putHome
  dsimp only
  split
  · exact { h with }
  · exact { h with cores := by simp [setCore, h.cores]; rfl }

theorem resting_fillAbsent (n : Nat) (s : State) (h : Resting us b kt s) : Resting us b kt (fillAbsent n s) := by
  induction n generalizing s with
  | zero => exact h
  | succ n ih =>
    unfold fillAbsent
    split
    · split
      · split
        · exact ih _ (resting_putHome _ _ h)
        · exact h
      · exact h
    · exact h

theorem resting_moveCores (h : Resting us b kt s) : Resting us b kt (moveCores s) :=
  resting_foldl _ (fun _ _ => resting_putHome _ _) _ _ { h with }

theorem resting_assignShares (h : Resting us b kt s) : Resting us b kt (assignShares s) := by
  refine resting_foldl_fst _ (fun p g h => ?_) _ _ h
  split
  · exact resting_putGlade _ _ h
  · exact h

theorem resting_holdBack (h : Resting us b kt s) : Resting us b kt (holdBack s) := { h with }

theorem resting_coverAbsent (h : Resting us b kt s) : Resting us b kt (coverAbsent s) := by
  refine resting_foldl_fst _ (fun p g h => ?_) _ _ h
  split
  · exact resting_putGlade _ _ h
  · exact h

theorem resting_sitesAfter (h : Resting us b kt s) : Resting us b kt (sitesAfter s) :=
  resting_coverAbsent (resting_holdBack (resting_assignShares (resting_fillAbsent 512 _ (resting_moveCores h))))

theorem resting_dropEnded (h : Resting [] b kt s) : Resting [] b kt (dropEnded s) := by
  simp only [dropEnded, h.units, List.filter_nil, List.foldl_nil]
  exact { h with units := rfl }

theorem resting_advance (n : Nat) (h : Resting us b kt s) : Resting us b kt (advance s n) := by
  unfold advance
  dsimp only
  split
  · exact h
  · exact { h with }

theorem resting_sched (x : Sched) (h : Resting us b kt s) : Resting us b kt { s with sched := x } := { h with }

theorem resting_beginStep (h : Resting us b kt s) : Resting us b kt (beginStep s) := { resting_advance _ h with }

/-- A module at rest is at rest when the boundary commits. -/
theorem resting_beforeCommit (h : Resting [] b kt s) : Resting [] b kt (beforeCommit s) :=
  resting_dropEnded (resting_sched _ (resting_shareEntries (resting_applyPending (resting_sitesAfter (resting_freeAll
    (resting_nextStep _ (resting_seqsAfter _ (resting_sched _ (resting_endUnfit (resting_setBoundary (resting_applyAll (resting_sched _
      (resting_dropLeaving (resting_releaseEnded (resting_seqsBefore _ (resting_beginStep h))))))))))))))))

/-! ### After the commit -/

theorem resting_recost (h : Resting us b kt s) : Resting us b kt (recost s) := { h with }

theorem resting_applyPorts (h : Resting us b kt s) : Resting us b kt (applyPorts s) := by
  unfold applyPorts
  dsimp only
  split
  · exact { h with }
  · exact h

theorem resting_applyCut (h : Resting us b kt s) : Resting us b kt (applyCut s) := by
  unfold applyCut
  split
  · split
    · exact resting_recost { h with }
    · exact h
  · exact h

theorem resting_setOver (h : Resting us b kt s) : Resting us b kt (setOver s) := by
  unfold setOver
  dsimp only
  split
  · exact resting_logAdd _ { h with }
  · exact { h with }

theorem resting_choosePoint (l : List (Nat × Nat)) (h : Resting us b kt s) : Resting us b kt (choosePoint s l) := { h with }

theorem resting_powerAfter (p : BoundaryPlan) (h : Resting us b kt s) : Resting us b kt (powerAfter s p) :=
  resting_choosePoint _ (resting_setOver (resting_recost (resting_applyCut (resting_applyPorts h))))

theorem resting_reserveRates (h : Resting us b kt s) : Resting us b kt (reserveRates s) := by
  refine resting_foldl _ (fun s g h => ?_) _ _ h
  split
  · exact h
  · exact { h with }

theorem coreOf_resting (c : Nat) (h : Resting us b kt s) : coreOf s c = coreOff := by
  simp only [coreOf, h.cores]
  rfl

/-- With no core, a unit neither runs nor ends: the cores' turn only asks for row locks. -/
theorem resting_goAll (c : Nat) (h : Resting us b kt s) : Resting us b kt (goAll s c) := by
  have hg : goOn s c = s := goOn_rest s c (by rw [coreOf_resting c h]; rfl) (by rw [coreOf_resting c h]; rfl)
  simp only [goAll, hg, h.cores, List.map_nil, List.append_nil, List.foldl_nil]
  exact resting_askLocks h

theorem resting_afterCommit (p : BoundaryPlan) (h : Resting us b kt s) : Resting us b kt (afterCommit s p) := by
  have hr := resting_reserveRates (resting_powerAfter p h)
  have hs : runScans (reserveRates (powerAfter s p)) = reserveRates (powerAfter s p) := by
    simp only [runScans, hr.scans, List.foldl_nil]
  have hl : loadAheads (reserveRates (powerAfter s p)) = reserveRates (powerAfter s p) := by
    simp only [loadAheads, hr.cores, List.map_nil, List.foldl_nil]
  have hg := resting_goAll 0 hr
  simp only [afterCommit, hs, hl, finishAll, hg.cores, List.map_nil, List.foldl_nil]
  exact hg

end

end Sys2Proof.Machine
end

section
/-!
PROOF. The plan that a module at rest commits (R319, R558), and O54.
-/
namespace Sys2Proof.Machine

open Sys2Proof.Claims

/-- Whether plans may hold work is the Kettle's to say. -/
theorem mayWork_of_kt {s t : State} (h : t.kt = s.kt) : mayWork t = mayWork s := by
  simp only [mayWork, readyBit, h]

@[simp] theorem wake_deep (s : State) : (wake s).power.deep = false := by
  unfold wake
  split
  · rfl
  next h => exact Bool.eq_false_iff.mpr h

section
variable {us : List UnitState} {b : List Host.Cell} {kt : Kettle} {s : State}

theorem resting_wake (h : Resting us b kt s) : Resting us b kt (wake s) := by
  unfold wake
  split
  · exact { h with }
  · exact h

theorem resting_tiled (p : BoundaryPlan) (hp : p.tiles = []) (h : Resting us b kt s) : Resting us b kt (tiled s p) := by
  simp only [tiled, hp, List.foldl_nil]
  exact resting_sched _ h

theorem resting_woken (p : BoundaryPlan) (hp : p.tiles = []) (h : Resting us b kt s) : Resting us b kt (woken s p) := by
  unfold woken
  split
  · exact resting_tiled p hp h
  · exact resting_wake (resting_tiled p hp h)

theorem reqOf_resting (r : ReqId) (h : Resting us b kt s) : reqOf s r = none := by
  simp only [reqOf, h.reqs, List.find?_nil]

/-- No request pins a table, and without work in layers every unit of a plan may stand (R201, R58). -/
theorem unitOk_resting (p : BoundaryPlan) (hp : p.work = []) (d : UnitDesc) (h : Resting us b kt s) : unitOk s p d = true := by
  simp [unitOk, sameTables, hp, reqOf_resting _ h]

theorem admitOrder_resting (d : UnitDesc) (h : Resting us b kt s) : admitOrder s d = s.sched.admits := by
  cases hd : d.owner <;> simp [admitOrder, hd, reqOf_resting _ h]

/-- The units that a plan of a module at rest commits: batch units, in order. -/
def batchUnits (p : BoundaryPlan) (order : Nat) : List UnitState := (p.units.take 65536).map (fun d => ⟨d, d.preds, false, order⟩)

theorem resting_commitPlan (p : BoundaryPlan) (hw : mayWork s = true) (htiles : p.tiles = []) (hwork : p.work = [])
    (h : Resting [] b kt s) : Resting (batchUnits p s.sched.admits) b kt (commitPlan s p) := by
  have ht := resting_tiled p htiles h
  have hk := resting_woken p htiles h
  have hm : mayWork (tiled s p) = true := (mayWork_of_kt (ht.kt.trans h.kt.symm)).trans hw
  have ha : (woken s p).sched.admits = s.sched.admits := by
    have hc : (clockOf (woken s p)).admits = (clockOf (tiled s p)).admits := by
      unfold woken
      split
      · rfl
      · rw [clockOf_wake]; split <;> rfl
    rw [clockOf_tiled] at hc
    exact hc
  have hall : p.units.filter (unitOk (woken s p) p) = p.units := List.filter_eq_self.mpr fun d _ => unitOk_resting p hwork d hk
  rw [commitPlan_eq, hm]
  refine { hk with units := ?_ }
  simp [hk.units, hall, admitOrder_resting _ hk, ha, batchUnits]

theorem commitPlan_deep (p : BoundaryPlan) (hw : mayWork (tiled s p) = true) (hp : p.units ≠ []) : (commitPlan s p).power.deep = false := by
  have hwake : woken s p = wake (tiled s p) := by
    simp [woken, hp]
  rw [commitPlan_eq, hw, hwake]
  exact wake_deep _

end

theorem boundary_commits_plan : boundariesCommitTheirPlan := by
  intro s p hruns hwork hreqs hchanges hloaded _ _ _ _ hscans _ _ hcores _ hunits _ _ _ htiles hplan hne
  have hs : Resting [] s.media.bytes s.kt s := ⟨hreqs, hchanges, hloaded, hscans, hcores, hunits, rfl, rfl⟩
  have hb := resting_beforeCommit hs
  have hw : mayWork (beforeCommit s) = true := (mayWork_of_kt hb.kt).trans hwork
  have ha : (beforeCommit s).sched.admits = s.sched.admits + 1 := by
    obtain ⟨n, hn⟩ := clockOf_beforeCommit s
    obtain ⟨-, -, -, -, -, -, -, -, hadmits⟩ := (clockOf_eq_iff _ _).mp hn
    exact hadmits
  have ht : mayWork (tiled (beforeCommit s) p) = true := (mayWork_of_kt ((resting_tiled p htiles hb).kt.trans hb.kt.symm)).trans hw
  have hc := resting_afterCommit p (resting_commitPlan p hw htiles hplan hb)
  rw [← boundary_eq, ha] at hc
  have hdeep : (boundary s p).power.deep = false := by
    obtain ⟨-, -, -, hd, -⟩ := (clockOf_eq_iff _ _).mp (clockOf_afterCommit (commitPlan (beforeCommit s) p) p)
    rw [boundary_eq, hd]
    exact commitPlan_deep p ht hne
  exact ⟨boundary s p, by simp [exec, execStepBoundary, hruns], hc.units, hdeep, hc.reqs, hc.changes, hc.bytes, hc.cores⟩

/-- Settles O54: the parts of a boundary leave its clock alone, and a module at rest stays at rest up to the commit of its plan. -/
theorem boundaries : Obligations.Boundaries := by
  unfold Obligations.Boundaries
  exact ⟨boundary_advances_step, boundary_commits_plan⟩

end Sys2Proof.Machine
end

section
/-!
SUPPORT. What a tile filled from outside the engines holds (R214), the ports of the Grove under the frames they carry (R447, R448), and
the Grove while a request ends.
-/
namespace Sys2Proof.Machine

open Sys2Proof.Claims

/-! ### Fields of words -/

theorem getLsbD_setFld {n : Nat} (w : BitVec n) (lo len v i : Nat) (hi : i < n) :
    (setFld w lo len v).getLsbD i = if lo ≤ i ∧ i < lo + len then v.testBit (i - lo) else w.getLsbD i := by
  simp only [setFld, BitVec.getLsbD_or, BitVec.getLsbD_and, BitVec.getLsbD_not, BitVec.getLsbD_ofNat, Nat.testBit_mul_two_pow,
    Nat.testBit_two_pow_sub_one, Nat.testBit_mod_two_pow, hi, decide_true, Bool.true_and]
  by_cases h1 : lo ≤ i
  · by_cases h2 : i < lo + len
    · simp [h1, h2, show i - lo < len by omega]
    · simp [h1, h2, show ¬ i - lo < len by omega]
  · simp [h1]

/-- A field just set reads as the value's low bits. -/
theorem fld_setFld_same {n : Nat} (w : BitVec n) (lo len v : Nat) (h : lo + len ≤ n) : fld (setFld w lo len v) lo len = v % 2 ^ len := by
  refine Nat.eq_of_testBit_eq fun i => ?_
  rw [fld, BitVec.testBit_toNat, BitVec.getLsbD_extractLsb', Nat.testBit_mod_two_pow]
  by_cases hi : i < len
  · rw [getLsbD_setFld _ _ _ _ _ (by omega), if_pos (by omega), Nat.add_sub_cancel_left]
  · simp [hi]

/-- A field that a set field does not meet reads as before. -/
theorem fld_setFld_other {n : Nat} (w : BitVec n) (lo len v lo' len' : Nat) (hn : lo' + len' ≤ n) (h : lo' + len' ≤ lo ∨ lo + len ≤ lo') :
    fld (setFld w lo len v) lo' len' = fld w lo' len' := by
  refine Nat.eq_of_testBit_eq fun i => ?_
  simp only [fld, BitVec.testBit_toNat, BitVec.getLsbD_extractLsb']
  by_cases hi : i < len'
  · rw [getLsbD_setFld _ _ _ _ _ (by omega), if_neg (by omega)]
  · simp [hi]

/-! ### Modules at rest -/

/-- Dropping the near-cache lines of a tile leaves each core's unit and its instructions in execution. -/
theorem coreOf_dropLines (s : State) (key c : Nat) :
    coreOf (dropLines s key) c = { coreOf s c with near := (coreOf s c).near.filter (fun l => l.1 / 256 != key) } := by
  unfold coreOf dropLines
  dsimp only
  induction s.chip.cores with
  | nil => rfl
  | cons p r ih =>
    obtain ⟨k, v⟩ := p
    rw [List.map_cons, AMap.get_cons, AMap.get_cons, ih]
    split <;> rfl

theorem restAll_dropLines {s : State} (key : Nat) (h : restAll s) : restAll (dropLines s key) := by
  obtain ⟨hcores, hlocks⟩ := h
  refine ⟨fun n => ?_, hlocks⟩
  rw [coreOf_dropLines]
  exact hcores n

/-! ### Tiles filled (R214, R459) -/

/-- The descriptor of a tile that bytes from outside have filled. -/
def filledDesc (s : State) (key : Nat) (bytes : List Byte) : BitVec 512 :=
  setFld (setDState (tileDesc s key) tileFull) 32 15 (min bytes.length tileBytes)

theorem dState_filledDesc (s : State) (key : Nat) (bytes : List Byte) : dState (filledDesc s key bytes) = 2 := by
  rw [dState, filledDesc, fld_setFld_other _ _ _ _ _ _ (by omega) (by omega), setDState, fld_setFld_same _ _ _ _ (by omega)]
  rfl

theorem dLength_filledDesc (s : State) (key : Nat) (bytes : List Byte) : dLength (filledDesc s key bytes) = min bytes.length 16384 := by
  rw [dLength, filledDesc, fld_setFld_same _ _ _ _ (by omega)]
  exact Nat.mod_eq_of_lt (Nat.lt_of_le_of_lt (Nat.min_le_right _ _) (by decide))

section
variable {s : State} {key : Nat} (bytes : List Byte)

theorem fillTile_eq (h : tilePopulated s key = true) : fillTile s key bytes
    = setTile (setDevBytes (dropLines s key) (putCells s.media.bytes (key * tileBytes) tileBytes (cellsOf 0 (bytes.take tileBytes)))) key
        (filledDesc s key bytes) := by
  simp only [fillTile, putTileImage, h, Bool.not_true, Bool.false_eq_true, if_false, if_true, dropLines_media, filledDesc]

theorem restAll_fillTile (h : tilePopulated s key = true) (hr : restAll s) : restAll (fillTile s key bytes) := by
  rw [fillTile_eq bytes h]
  exact restAll_dropLines key hr

theorem fillTile_reqs (h : tilePopulated s key = true) : (fillTile s key bytes).reqs = s.reqs := by
  rw [fillTile_eq bytes h]
  rfl

theorem fillTile_grove (h : tilePopulated s key = true) : (fillTile s key bytes).grove = s.grove := by
  rw [fillTile_eq bytes h]
  rfl

theorem tileDesc_fillTile_same (h : tilePopulated s key = true) : tileDesc (fillTile s key bytes) key = filledDesc s key bytes := by
  rw [fillTile_eq bytes h, tileDesc_setTile_same]

theorem tileDesc_fillTile_other (h : tilePopulated s key = true) {x : Nat} (hx : x ≠ key) :
    tileDesc (fillTile s key bytes) x = tileDesc s x := by
  rw [fillTile_eq bytes h, tileDesc_setTile_other _ _ _ _ hx]
  rfl

/-- The filled tile holds the bytes, and zeros behind them. -/
theorem readByte_fillTile_inside (h : tilePopulated s key = true) {i : Nat} (hi : i < tileBytes) :
    readByte (fillTile s key bytes).media.bytes (16384 * key + i) = (bytes[i]?).getD 0#8 := by
  rw [fillTile_eq bytes h, setTile_bytes, setDevBytes_bytes, show 16384 * key = key * tileBytes from Nat.mul_comm _ _,
    readByte_putCells_inside _ _ _ _ _ hi, get_cellsOf, if_pos (Nat.zero_le i), Nat.sub_zero, List.getElem?_take_of_lt hi]

theorem fillTile_sameOutside (h : tilePopulated s key = true) :
    sameOutside s.media.bytes (fillTile s key bytes).media.bytes (16384 * key) 16384 := by
  intro x hx
  rw [fillTile_eq bytes h, setTile_bytes, setDevBytes_bytes]
  refine readByte_putCells_outside _ _ _ _ _ (fun p hp => ?_) ?_
  · exact Nat.lt_of_lt_of_le (cellsOf_lt _ p hp) (List.length_take_le _ _)
  · rwa [show key * tileBytes = 16384 * key from Nat.mul_comm _ _]

end

/-! ### Ports that send (R447, R448) -/

/-- An idle port keeps the frame it sends until it is acknowledged. -/
theorem portAt_sendPort_idle (s : State) (p : Nat) (b : List Byte) (h : (portAt s p).unacked = []) : portAt (sendPort s p b) p
    = { portAt s p with
        txSeq := (portAt s p).txSeq + 1, unacked := [((portAt s p).txSeq + 1, frameBytes s p ((portAt s p).txSeq + 1) b)] } := by
  refine (portAt_setPort_same s p _).trans ?_
  rw [h]
  rfl

theorem portAt_sendPort_other (s : State) (p x : Nat) (b : List Byte) (h : x ≠ p) : portAt (sendPort s p b) x = portAt s x :=
  portAt_setPort_other s p x _ h

/-- What a port sends does not move what it expects. -/
theorem rxSeq_sendPort (s : State) (p x : Nat) (b : List Byte) : (portAt (sendPort s p b) x).rxSeq = (portAt s x).rxSeq := by
  by_cases h : x = p
  · subst h
    change (portAt (setPort s x _) x).rxSeq = _
    rw [portAt_setPort_same]
  · rw [portAt_sendPort_other _ _ _ _ h]

/-- A frame on one port leaves what another port would send as it was. -/
theorem frameBytes_sendPort_other (s : State) (q p seq : Nat) (b l : List Byte) (h : p ≠ q) :
    frameBytes (sendPort s q b) p seq l = frameBytes s p seq l := by
  have hl : layoutOf (sendPort s q b) = layoutOf s := rfl
  have hk : ∀ n, keyValue (sendPort s q b) n = keyValue s n := fun _ => rfl
  simp only [frameBytes, frameNonce, portAt_sendPort_other s q p b h, hl, hk]

theorem rxSeq_sendTo (s : State) (m x : Nat) (b : List Byte) : (portAt (sendTo s m b) x).rxSeq = (portAt s x).rxSeq := by
  unfold sendTo
  split
  · split
    · exact rxSeq_sendPort _ _ _ _
    · rfl
  · rfl

@[simp] theorem sendTo_reserves (s : State) (m : Nat) (b : List Byte) : (sendTo s m b).grove.reserves = s.grove.reserves := by
  unfold sendTo
  split
  · split <;> rfl
  · rfl

/-! ### The Grove while a request ends -/

@[simp] theorem demote_grove (s : State) (home : Nat) : (demote s home).grove = s.grove := by
  unfold demote
  split <;> rfl

@[simp] theorem unlockRow_grove (s : State) (v : TableVer) (r : RowRecord) : (unlockRow s v r).grove = s.grove := by
  unfold unlockRow
  split <;> rfl

@[simp] theorem freeRange_grove (s : State) (a n : Nat) : (freeRange s a n).grove = s.grove := rfl

theorem foldl_grove {α : Type} (f : State → α → State) (h : ∀ s a, (f s a).grove = s.grove) (l : List α) (s : State) :
    (l.foldl f s).grove = s.grove := foldl_keeps f State.grove h l s

@[simp] theorem dropTable_grove (s : State) (r : ReqId) : (dropTable s r).grove = s.grove := by
  unfold dropTable
  dsimp only
  rw [foldl_grove _ fun s a => ?_, foldl_grove _ fun s a => ?_, foldl_grove _ demote_grove]
  · split <;> rfl
  · split
    · exact foldl_grove _ (fun s x => unlockRow_grove s _ x) _ _
    · rfl

/-- A list with an element put in has it. -/
theorem mem_setHas {α : Type} [BEq α] [LawfulBEq α] (l : List α) (x : α) : x ∈ setHas l x := by
  unfold setHas
  split
  next h => exact List.contains_iff_mem.mp h
  · exact List.mem_append_right _ List.mem_cons_self

end Sys2Proof.Machine
end

section
/-!
PROOF. What each frame does when its turn has come, acknowledgements and heartbeats (R27, R447, R448, R453, R455), and O48.
-/
namespace Sys2Proof.Machine

open Sys2Proof.Claims

/-! ### A frame whose turn has come (R448) -/

/-- The next frame expected on a port that is up has its effect on the state that has acknowledged it. -/
theorem received_next {s : State} {p : Nat} {n : W64} (h : nextFrame s p n) (f : State → State) :
    received s p n true f = f (inOrder s p) := by
  obtain ⟨hup, hn⟩ := h
  simp [received, hup, hn, inOrder]

@[simp] theorem inOrder_media (s : State) (p : Nat) : (inOrder s p).media = s.media := rfl
@[simp] theorem inOrder_changes (s : State) (p : Nat) : (inOrder s p).changes = s.changes := rfl
@[simp] theorem inOrder_forming (s : State) (p : Nat) : (inOrder s p).grove.forming = s.grove.forming := rfl

theorem rxSeq_inOrder {s : State} {p : Nat} {n : W64} (h : nextFrame s p n) : (portAt (inOrder s p) p).rxSeq = n.toNat := by
  obtain ⟨-, hn⟩ := h
  rw [hn]
  exact congrArg Port.rxSeq (portAt_setPort_same s p _)

theorem restAll_inOrder {s : State} (p : Nat) (h : restAll s) : restAll (inOrder s p) := h

/-! ### What CONTROL frames bring about (R204, R453) -/

/-- A formation that is complete waits for its boundary; nothing else changes. -/
theorem tryForm_grove (s : State) : (tryForm s).grove = s.grove := by
  unfold tryForm
  split
  · split <;> rfl
  · rfl

/-- A peer that cannot carry out a change, noted: its reservations for the request are gone. -/
def peerFailure (s : State) (m : Nat) (r : ReqId) : State :=
  { s with grove := { s.grove with
    failed := setHas s.grove.failed (m, r)
    reserves := s.grove.reserves.filter (fun x => !(x.member == m && x.req == r)) } }

/-- A table change that a peer cannot carry out is given up, and its request ends (R204). -/
theorem peerFails_table {s : State} {r : ReqId} {q : Req} {i : Instr} {l : List Nat} (m : Nat) (hq : reqOf s r = some q)
    (hj : q.job = .table i l) :
    peerFails s m r = completeReq (dropTable (peerFailure s m r) q.id) q ⟨stInvalid, 0, fgPeer, []⟩ := by
  have hq' : reqOf (peerFailure s m r) r = some q := hq
  simp only [peerFailure] at hq'
  simp only [peerFails, hq', hj, endRequest, peerFailure]

/-! ### DATA and RESERVE (R27, R214, R447) -/

section
variable {s : State} {p : BitVec 3} {n : W64} (h : nextFrame s p.toNat n)
include h

theorem dataFrame_fills (dest : Nat) (bytes : List Byte) (hd : tilePopulated s dest = true) (hr : restAll s) :
    ∃ t, exec (.dataFrame p n true dest bytes) s = .next t ∧ dState (tileDesc t dest) = 2 ∧ dLength (tileDesc t dest) = min bytes.length 16384
      ∧ (∀ i, i < 16384 → readByte t.media.bytes (16384 * dest + i) = (bytes[i]?).getD 0#8)
      ∧ sameOutside s.media.bytes t.media.bytes (16384 * dest) 16384 ∧ (∀ x, x ≠ dest → tileDesc t x = tileDesc s x)
      ∧ (portAt t p.toNat).rxSeq = n.toNat ∧ t.reqs = s.reqs := by
  have hp : tilePopulated (inOrder s p.toNat) dest = true := hd
  have hrest := goAll_rest _ 0 (restAll_fillTile bytes hp (restAll_inOrder p.toNat hr))
  refine ⟨fillTile (inOrder s p.toNat) dest bytes, ?_, ?_, ?_, fun i hi => readByte_fillTile_inside bytes hp hi,
    fillTile_sameOutside bytes hp, fun x hx => tileDesc_fillTile_other bytes hp hx, ?_, fillTile_reqs bytes hp⟩
  · exact congrArg Host.Outcome.next ((received_next h _).trans hrest)
  · rw [tileDesc_fillTile_same bytes hp, dState_filledDesc]
  · rw [tileDesc_fillTile_same bytes hp, dLength_filledDesc]
  · rw [portAt, fillTile_grove bytes hp]
    exact rxSeq_inOrder h

theorem reserveFrame_reserves (from_ : Nat) (r : ReqId) (handle : Nat) (search : FarSearch) :
    ∃ t, exec (.reserveFrame p n true from_ r handle search) s = .next t
      ∧ t.grove.reserves = s.grove.reserves ++ (farReservation (inOrder s p.toNat) from_ r handle search).toList
      ∧ (portAt t p.toNat).rxSeq = n.toNat ∧ t.reqs = s.reqs ∧ t.media = s.media := by
  refine ⟨_, congrArg Host.Outcome.next (received_next h _), ?_, ?_, ?_, ?_⟩
  · rw [sendTo_reserves]
    rfl
  · rw [rxSeq_sendTo]
    exact rxSeq_inOrder h
  · rw [sendTo_reqs]
    rfl
  · rw [sendTo_media]
    rfl

/-! ### GRANT (R27) -/

theorem grantFrame_answers (from_ : Nat) (r : ReqId) (q : Req) (v : Serve) (hq : reqOf s r = some q) (hj : q.job = .serve v)
    (hf : from_ ∈ v.awaits) :
    (∃ t, exec (.grantFrame p n true from_ r true) s = .next t
      ∧ reqOf t r = some { q with job := .serve { v with awaits := v.awaits.filter (· != from_) } } ∧ t.media = s.media)
    ∧ (∃ t, exec (.grantFrame p n true from_ r false) s = .next t ∧ (∀ x ∈ t.reqs, x.id ≠ r) ∧ t.media = s.media) := by
  have hq' : reqOf (inOrder s p.toNat) r = some q := hq
  have hid : q.id = r := reqOf_id s r q hq
  constructor
  · refine ⟨setJob (inOrder s p.toNat) q (.serve { v with awaits := v.awaits.filter (· != from_) }),
      congrArg Host.Outcome.next ((received_next h _).trans ?_), reqOf_setJob _ _ _ _ hq', rfl⟩
    simp [granted27, hq', hj, hf]
  · refine ⟨tellPeers (completeReq (inOrder s p.toNat) q (busyAt 7 (hintRange (inOrder s p.toNat) 0))) 9 r,
      congrArg Host.Outcome.next ((received_next h _).trans ?_), fun x hx => ?_, ?_⟩
    · simp [granted27, hq', hj, hf]
    · rw [tellPeers_reqs, completeReq_reqs] at hx
      simpa [hid] using (List.mem_filter.mp hx).2
    · rw [tellPeers_media, completeReq_media, inOrder_media]

/-! ### CONTROL (R27, R66, R453, R455, R456) -/

/-- A CONTROL frame whose turn has come. -/
theorem controlFrame_next (info : ControlInfo) :
    exec (.controlFrame p n true info) s = .next (gotControl (inOrder s p.toNat) info) :=
  congrArg Host.Outcome.next (received_next h _)

theorem controlFrame_digest_matches (m : Nat) (f : Forming) (hf : s.grove.forming = some f) :
    ∃ t g, exec (.controlFrame p n true (.digest m (setDigest f.body) Config.wenikVersion.toNat true)) s = .next t
      ∧ t.grove.forming = some g ∧ m ∈ g.match_ ∧ g.req = f.req ∧ g.fault = f.fault := by
  refine ⟨_, { f with match_ := setHas f.match_ m }, controlFrame_next h _, ?_, mem_setHas _ _, rfl, rfl⟩
  simp [gotControl, gotDigest, hf, tryForm_grove]

theorem controlFrame_digest_fails (m : Nat) (f : Forming) (hf : s.grove.forming = some f) (d : BitVec 256) (w : Nat) (up : Bool)
    (hd : d ≠ setDigest f.body) (hn : f.fault = none) :
    ∃ t, exec (.controlFrame p n true (.digest m d w up)) s = .next t
      ∧ t.grove.forming = some { f with fault := some dtDigest } ∧ t.changes = s.changes := by
  refine ⟨_, controlFrame_next h _, ?_, ?_⟩ <;>
    simp [gotControl, gotDigest, formFault, hf, hd, hn]

theorem controlFrame_failed_ends (m : Nat) (r : ReqId) (q : Req) (i : Instr) (l : List Nat) (hq : reqOf s r = some q)
    (hj : q.job = .table i l) :
    ∃ t, exec (.controlFrame p n true (.failed m r)) s = .next t ∧ (m, r) ∈ t.grove.failed ∧ ∀ x ∈ t.reqs, x.id ≠ r := by
  have hq' : reqOf (inOrder s p.toNat) r = some q := hq
  have hid : q.id = r := reqOf_id s r q hq
  refine ⟨_, (controlFrame_next h _).trans (congrArg Host.Outcome.next (peerFails_table m hq' hj)), ?_, fun x hx => ?_⟩
  · rw [completeReq_grove, hj]
    change (m, r) ∈ (dropTable (peerFailure (inOrder s p.toNat) m r) q.id).grove.failed
    rw [dropTable_grove]
    exact mem_setHas _ _
  · rw [completeReq_reqs] at hx
    simpa [hid] using (List.mem_filter.mp hx).2

end

/-! ### ACK and NAK (R448) -/

theorem ackFrame_frees {s : State} {p : BitVec 3} (n : W64) (hup : portUp s p.toNat = true) :
    exec (.ackFrame p n) s = .next (setPort s p.toNat { portAt s p.toNat with
      unacked := (portAt s p.toNat).unacked.filter (fun f => decide (n.toNat < f.1)), fails := 0 }) :=
  congrArg Host.Outcome.next (if_pos hup)

/-- The state after a frame is resent: it counts as resent, and as one more failure in a row. -/
def afterResend (s : State) (p : Nat) (b : List Byte) : State :=
  { setPort s p { portAt s p with resent := min 4294967295 ((portAt s p).resent + 1), fails := (portAt s p).fails + 1 } with
    host := s.host ++ [.frame p b] }

theorem portAt_afterResend (s : State) (p : Nat) (b : List Byte) : portAt (afterResend s p b) p
    = { portAt s p with resent := min 4294967295 ((portAt s p).resent + 1), fails := (portAt s p).fails + 1 } :=
  portAt_setPort_same s p _

/-- The frame that a NAK asks for, still unacknowledged, is resent while the failures in a row are fewer than eight. -/
theorem nakFrame_resends {s : State} {p : BitVec 3} {n : W64} (hup : portUp s p.toNat = true) (f : Nat × List Byte)
    (hf : (portAt s p.toNat).unacked.find? (fun f => f.1 == n.toNat) = some f) (hfails : (portAt s p.toNat).fails < 7) :
    ∃ t, exec (.nakFrame p n) s = .next t ∧ t.host = s.host ++ [.frame p.toNat f.2]
      ∧ (portAt t p.toNat).resent = min 4294967295 ((portAt s p.toNat).resent + 1)
      ∧ (portAt t p.toNat).unacked = (portAt s p.toNat).unacked ∧ t.reqs = s.reqs ∧ t.media = s.media := by
  refine ⟨afterResend s p.toNat f.2, ?_, rfl, ?_, ?_, rfl, rfl⟩
  · have hfew : ¬ 7 ≤ (portAt s p.toNat).fails := by omega
    simp [exec, execNakFrame, hup, hf, hfew, afterResend]
  · rw [portAt_afterResend]
  · rw [portAt_afterResend]

/-! ### HEARTBEAT on the idle ports (R447, R463) -/

/-- A HEARTBEAT goes out on a port that is up and idle. -/
def beat (s : State) (p : Nat) : State := if portUp s p && (portAt s p).unacked.isEmpty then sendPort s p [] else s

/-- The port after the heartbeats: one frame more, when it is up and idle. -/
def beatPort (s : State) (p : Nat) : Port :=
  if portUp s p = true ∧ (portAt s p).unacked = [] then
    { portAt s p with
      txSeq := (portAt s p).txSeq + 1, unacked := [((portAt s p).txSeq + 1, frameBytes s p ((portAt s p).txSeq + 1) [])] }
  else portAt s p

theorem execHeartbeatSend_eq (s : State) : execHeartbeatSend s = .next ((List.range 8).foldl beat s) := rfl

theorem beat_reqs (s : State) (p : Nat) : (beat s p).reqs = s.reqs := by
  unfold beat
  split <;> rfl

theorem beat_media (s : State) (p : Nat) : (beat s p).media = s.media := by
  unfold beat
  split <;> rfl

theorem portAt_beat_same (s : State) (p : Nat) : portAt (beat s p) p = beatPort s p := by
  unfold beat beatPort
  by_cases h : portUp s p = true ∧ (portAt s p).unacked = []
  · obtain ⟨hup, hidle⟩ := h
    rw [if_pos (by simp [hup, hidle]), if_pos ⟨hup, hidle⟩, portAt_sendPort_idle _ _ _ hidle]
  · rw [if_neg (by simpa using h), if_neg h]

theorem portAt_beat_other (s : State) {p x : Nat} (h : x ≠ p) : portAt (beat s p) x = portAt s x := by
  unfold beat
  split
  · exact portAt_sendPort_other s p x [] h
  · rfl

/-- A heartbeat on one port leaves what another will send as it was. -/
theorem beatPort_beat_other (s : State) {p x : Nat} (h : x ≠ p) : beatPort (beat s p) x = beatPort s x := by
  have hf : ∀ seq, frameBytes (beat s p) x seq [] = frameBytes s x seq [] := fun seq => by
    unfold beat
    split
    · exact frameBytes_sendPort_other s p x seq [] [] h
    · rfl
  unfold beatPort portUp
  rw [portAt_beat_other s h, hf]

theorem portAt_foldl_beat (l : List Nat) (hl : l.Nodup) (s : State) (p : Nat) :
    portAt (l.foldl beat s) p = if p ∈ l then beatPort s p else portAt s p := by
  induction l generalizing s with
  | nil => rfl
  | cons a l ih =>
    obtain ⟨ha, hl⟩ := List.nodup_cons.mp hl
    rw [List.foldl_cons, ih hl]
    by_cases hp : p = a
    · subst hp
      rw [if_neg ha, if_pos List.mem_cons_self, portAt_beat_same]
    · simp only [List.mem_cons, hp, false_or, beatPort_beat_other s hp, portAt_beat_other s hp]

theorem heartbeatSend_beats (s : State) :
    ∃ t, exec .heartbeatSend s = .next t ∧ (∀ p, p < 8 → portAt t p = beatPort s p) ∧ t.reqs = s.reqs ∧ t.media = s.media := by
  refine ⟨_, execHeartbeatSend_eq s, fun p hp => ?_, foldl_keeps _ State.reqs beat_reqs _ _, foldl_keeps _ State.media beat_media _ _⟩
  rw [portAt_foldl_beat _ List.nodup_range, if_pos (List.mem_range.mpr hp)]

/-- Settles O48: each kind of frame acts on the state that has acknowledged it, and a heartbeat on one port leaves the others alone.
The bytes of an ACK and the contents of CONTROL and RESERVE frames are the model's own (log 20). -/
theorem framesHaveTheirEffect : Obligations.FramesHaveTheirEffect := by
  unfold Obligations.FramesHaveTheirEffect
  refine ⟨fun s p n h => ⟨?_, fun step commit => ?_, dataFrame_fills h, reserveFrame_reserves h, grantFrame_answers h, fun m on => ?_,
    fun m r => ?_, fun m x => ?_, fun m f hf => ⟨controlFrame_digest_matches h m f hf, controlFrame_digest_fails h m f hf⟩,
    controlFrame_failed_ends h⟩, fun s p n hup => ⟨ackFrame_frees n hup, nakFrame_resends hup⟩, heartbeatSend_beats⟩
  · exact congrArg Host.Outcome.next (received_next h id)
  · exact congrArg Host.Outcome.next (received_next h _)
  · exact ⟨_, controlFrame_next h _, rfl, rfl, rfl⟩
  · exact ⟨_, controlFrame_next h _, mem_setHas _ _, rfl⟩
  · exact ⟨_, controlFrame_next h _, mem_setHas _ _, rfl⟩

end Sys2Proof.Machine
end

section
/-!
PROOF. The admission of QUERY, ASK and GENERATE (R24, R26, R27, R29, R316), and O25.
-/
namespace Sys2Proof.Machine

open Sys2Proof.Claims

/-- The state that an admission accepts its request on: a generation that brings no seed has drawn one (R327). -/
def seeded (s : State) (v : Serve) : State := if v.kind = 0 then s else seedDrawn s v.params

/-- A seed drawn moves the count of values drawn and nothing else. -/
theorem seeded_cases (s : State) (v : Serve) : seeded s v = s ∨ seeded s v = drawn s := by
  unfold seeded seedDrawn
  split
  · exact .inl rfl
  · split
    · exact .inl rfl
    · exact .inr rfl

/-- What RESERVE frames leave alone is, after an admission, what it is after the request is accepted (R27). -/
theorem admitOne_part {α : Type} (f : State → α) (hf : ∀ s m b, f (sendTo s m b) = f s) (s : State) (h : MsgHead) (c : Ctx) (op g : Nat)
    (v : Serve) : f (admitOne s h c op g v) = f (acceptReq (seeded s v) h c op (some g) (sessionTenant c.sess) (.serve v)) := by
  unfold admitOne seeded
  dsimp only
  generalize acceptReq _ h c op (some g) (sessionTenant c.sess) (.serve v) = t
  split
  · rfl
  · exact foldl_keeps _ f (fun s m => hf s m _) _ t

/-- An admission adds its request, with what it reserves, and leaves the module's other contents alone. -/
theorem admitOne_admits (s : State) (h : MsgHead) (c : Ctx) (op g : Nat) (v : Serve) :
    (admitOne s h c op g v).reqs = s.reqs ++ [newReq s h c op (some g) (sessionTenant c.sess) (.serve v)]
    ∧ (admitOne s h c op g v).changes = s.changes ∧ (admitOne s h c op g v).media = s.media
    ∧ (admitOne s h c op g v).chip = s.chip ∧ (admitOne s h c op g v).idx = s.idx := by
  rw [admitOne_part State.reqs sendTo_reqs, admitOne_part State.changes sendTo_changes, admitOne_part State.media sendTo_media,
    admitOne_part State.chip sendTo_chip, admitOne_part State.idx sendTo_idx]
  obtain hs | hs := seeded_cases s v <;> rw [hs] <;> exact ⟨rfl, rfl, rfl, rfl, rfl⟩

/-- The image as the current plan costs it. -/
def plannedImg (s : State) (img : Img) : Img := { img with info := planned s img.info }

/-- QUERY and ASK whose checks hold and whose costs fit are admitted. -/
theorem queryGo_admits {s : State} {h : MsgHead} {b : QueryBody} {ask : Bool} {c : Ctx} {i : Index} {ver : IdxVer} {img : Img} {p : Profile}
    {g : Nat} (hc : queryChecks s h b ask c.sess = .ok (i, ver, img, p, g))
    (hs : strain s (queryAsk s b ask i ver (plannedImg s img) p g) (isFlash i.body)
      (queryCost s b ask i (plannedImg s img) p) = none) :
    queryGo s h b ask c = admitOne s h c (if ask then opAsk else opQuery) g
      (queryServe s b ask i ver (plannedImg s img) p (queryAsk s b ask i ver (plannedImg s img) p g)) := by
  unfold plannedImg at hs
  simp only [queryGo, hc, hs, plannedImg]

/-- GENERATE whose checks hold and whose costs fit is admitted. -/
theorem genGo_admits {s : State} {h : MsgHead} {b : GenBody} {c : Ctx} {img : Img} {g : Nat} (hform : genForm s h b = true)
    (hright : tenRight s c.sess 1 = true) (hmodel : modelCheck s = none) (himg : s.images.current = some img)
    (hglade : sessionGlade s c.sess = some g) (hcores : coresReady s = true) (hset : inSet s = false ∨ setAllReady s = true)
    (hs : strain s (genAsk s b (plannedImg s img) g) false (!(chunkRows (planned s img.info)).isEmpty) = none) :
    genGo s h b c = admitOne s h c opGenerate g
      (genServe s b (plannedImg s img) (genAsk s b (plannedImg s img) g)) := by
  have hready : (inSet s && !setAllReady s) = false := by
    rcases hset with hset | hset <;> simp [hset]
  unfold plannedImg at hs
  simp [genGo, plannedImg, hform, hright, hmodel, himg, hglade, hcores, hready, hs]

theorem exec_queryOrAsk (h : MsgHead) (b : QueryBody) (ask : Bool) (s : State) : exec (if ask then .ask h b else .query h b) s
    = .next (message s h (if ask then opAsk else opQuery) .opened false (fun s c => queryGo s h b ask c)) := by
  cases ask <;> rfl

/-- A message that is taken goes on with its own checks. -/
theorem message_of_taken {s s' : State} {h : MsgHead} {op : Nat} {rule : SessRule} {recOk : Bool} {c : Ctx} (ht : taken s h op rule recOk s' c)
    (go : State → Ctx → State) : message s h op rule recOk go = go s' c := by
  obtain ⟨s1, htake, hseal, hbefore⟩ := ht
  exact message_taken s h op rule recOk go s1 s' c.pair c.head c.sess htake hseal hbefore

/-- Settles O25: a message taken whose checks hold and whose costs fit is admitted, and an admission only adds its request. -/
theorem retrievalAndGenerationAreAdmitted : Obligations.RetrievalAndGenerationAreAdmitted := by
  unfold Obligations.RetrievalAndGenerationAreAdmitted
  constructor
  · intro h b ask s s' c i ver img p g ht hc hs
    obtain ⟨hreqs, hchanges, hmedia, hchip, hidx⟩ := admitOne_admits s' h c (if ask then opAsk else opQuery) g
      (queryServe s' b ask i ver (plannedImg s' img) p (queryAsk s' b ask i ver (plannedImg s' img) p g))
    refine ⟨_, _, ?_, hreqs, rfl, rfl, rfl, rfl, rfl, rfl, rfl, rfl, hchanges, hmedia, hchip, hidx⟩
    rw [exec_queryOrAsk, message_of_taken (op := if ask then opAsk else opQuery) ht, queryGo_admits hc hs]
  · intro h b s s' c img g ht hform hright hmodel himg hglade hcores hset hs
    obtain ⟨hreqs, hchanges, hmedia, hchip, -⟩ := admitOne_admits s' h c opGenerate g
      (genServe s' b (plannedImg s' img) (genAsk s' b (plannedImg s' img) g))
    refine ⟨_, _, ?_, hreqs, rfl, rfl, rfl, rfl, rfl, rfl, hchanges, hmedia, hchip⟩
    exact congrArg Host.Outcome.next ((message_of_taken ht _).trans (genGo_admits hform hright hmodel himg hglade hcores hset hs))

end Sys2Proof.Machine
end

section
/-!
PROOF. What a request that has ended leaves behind, and what a change given up leaves alone (R199, R200, R298, R393).
-/
namespace Sys2Proof.Machine

open Sys2Proof.Claims

/-! ### Requests that have ended -/

theorem completeReq_ends (s : State) (q : Req) (e : Ending) : ∀ x ∈ (completeReq s q e).reqs, x.id ≠ q.id := by
  intro x hx
  rw [completeReq_reqs] at hx
  simpa using (List.mem_filter.mp hx).2

/-- A completion touches the sessions and no other record of the protection. -/
theorem completeReq_store (s : State) (q : Req) (e : Ending) : (completeReq s q e).prot.store = s.prot.store := by
  unfold completeReq touchIdle
  dsimp only
  split <;> simp

/-- A completion adds no change. -/
theorem mem_changes_of_completeReq {s : State} {q : Req} {e : Ending} {c : Change} (h : c ∈ (completeReq s q e).changes) :
    c ∈ s.changes := by
  rw [completeReq_changes] at h
  exact (List.mem_filter.mp h).1

theorem request_not_mem_completeReq (s : State) (q : Req) (e : Ending) : .request q.id ∉ (completeReq s q e).changes := by
  rw [completeReq_changes]
  simp [List.mem_filter]

/-- With no request of a name, every request has another. -/
theorem ne_of_reqOf_none {s : State} {r : ReqId} (h : reqOf s r = none) : ∀ x ∈ s.reqs, x.id ≠ r := by
  simpa [reqOf] using h

theorem completeId_ends (s : State) (r : ReqId) (e : Ending) : ∀ x ∈ (completeId s r e).reqs, x.id ≠ r := by
  unfold completeId
  split
  next q hq => rw [← reqOf_id s r q hq]; exact completeReq_ends s q e
  next hq => exact ne_of_reqOf_none hq

/-- What every completion leaves alone, a completion by name does. -/
theorem completeId_part {α : Type} (f : State → α) (hf : ∀ s q e, f (completeReq s q e) = f s) (s : State) (r : ReqId) (e : Ending) :
    f (completeId s r e) = f s := by
  unfold completeId
  split
  · exact hf s _ e
  · rfl

/-- Of the Grove's records a completion clears what the peers have verified, and no other (R66). -/
theorem completeReq_forming (s : State) (q : Req) (e : Ending) : (completeReq s q e).grove.forming = s.grove.forming := by
  rw [completeReq_grove]
  unfold clearVerifies
  split <;> rfl

theorem completeReq_groveState (s : State) (q : Req) (e : Ending) : (completeReq s q e).grove.state = s.grove.state := by
  rw [completeReq_grove]
  unfold clearVerifies
  split <;> rfl

/-! ### Table changes given up (R199, R200) -/

section
variable {α : Type} (f : State → α) (hhot : ∀ s home e, f (putHot s home e) = f s)
include hhot

theorem demote_part (s : State) (home : Nat) : f (demote s home) = f s := by
  unfold demote
  split
  · rfl
  · exact hhot _ _ _

theorem unlockRow_part (s : State) (v : TableVer) (r : RowRecord) : f (unlockRow s v r) = f s := by
  unfold unlockRow
  split
  · exact hhot _ _ _
  · rfl

/-- What entries of the hot-row directory, freed space, and the lists of changes under way do not hold, a table change given up leaves
alone. -/
theorem dropTable_part (hfree : ∀ s a n, f (freeRange s a n) = f s)
    (hlists : ∀ s l a, f { s with tabs := { s.tabs with replaces := l, applying := a } } = f s) (s : State) (r : ReqId) :
    f (dropTable s r) = f s := by
  unfold dropTable
  dsimp only
  rw [hlists, foldl_keeps _ f fun s a => ?unlocked, foldl_keeps _ f fun s x => ?freed, foldl_keeps _ f (demote_part f hhot)]
  case unlocked =>
    split
    · exact foldl_keeps _ f (fun s x => unlockRow_part f hhot s _ x) _ _
    · rfl
  case freed =>
    split
    · exact hfree _ _ _
    · rfl

end

theorem dropTable_replaces (s : State) (r : ReqId) : ∀ x ∈ (dropTable s r).tabs.replaces, x.req ≠ r := by
  intro x hx
  simpa using (List.mem_filter.mp hx).2

/-! ### Merges given up (R298) -/

theorem dropMerge_part {α : Type} (f : State → α) (hindex : ∀ s i, f (putIndex s i) = f s)
    (hchanges : ∀ s l, f { s with changes := l } = f s) (s : State) (handle : Nat) : f (dropMerge s handle) = f s := by
  unfold dropMerge
  dsimp only
  split
  · rw [hindex, hchanges]
  · exact hchanges _ _

theorem dropMerge_changes (s : State) (handle : Nat) :
    (dropMerge s handle).changes = s.changes.filter (fun c => c != .snapshot handle && c != .swap handle) := by
  unfold dropMerge
  dsimp only
  split <;> rfl

theorem heldIndex_dropMerge {s : State} {handle : Nat} {i : Index} (h : heldIndex s handle = some i) :
    heldIndex (dropMerge s handle) handle = some { i with merge := none } := by
  have hl : ∀ l, heldIndex { s with changes := l } handle = some i := fun _ => h
  unfold dropMerge
  simp only [hl]
  exact heldIndex_putIndex_same _ handle i _ (hl _) (heldIndex_handle s handle i h)

end Sys2Proof.Machine
end

section
/-!
PROOF. Expiries (R294, R374 to R376) and the limits of a set (R66, R204, R306, R453), and O39.
-/
namespace Sys2Proof.Machine

open Sys2Proof.Claims

/-! ### Expiries -/

/-- A session that stands, and whose close waits for no boundary yet, is to be closed at the next one. -/
theorem expireSession_adds {s : State} {n : Nat} (reason : Nat) (hs : ∃ x ∈ s.prot.sessions, x.id = n)
    (hc : ∀ r, Change.expire n r ∉ s.changes) : expireSession s n reason = { s with changes := s.changes ++ [.expire n reason] } := by
  have hstands : s.prot.sessions.any (fun x => x.id == n) = true := by simpa using hs
  unfold expireSession
  rw [if_pos]
  · rfl
  · rw [hstands, Bool.true_and, Bool.not_eq_true', List.any_eq_false]
    intro c hc' hm
    split at hm
    next m r => exact hc r (beq_iff_eq.mp hm ▸ hc')
    · exact absurd hm Bool.false_ne_true

/-- The index with a version retained no longer (R294). -/
def unretain (i : Index) (version : Nat) : Index :=
  { i with versions := i.versions.map (fun v => if v.num = version then { v with retained := false } else v) }

theorem indexRetainExpiry_next {s : State} {handle : Nat} {i : Index} (version : Nat) (hi : heldIndex s handle = some i) :
    exec (.indexRetainExpiry handle version) s = .next (putIndex s (unretain i version)) := by
  change execIndexRetainExpiry handle version s = _
  simp [execIndexRetainExpiry, unretain, hi]

theorem expiries_takeEffect : expiriesTakeEffect := by
  intro s
  refine ⟨fun n => ⟨_, rfl, rfl, fun c => ?challenge⟩, fun role p => ⟨_, rfl, rfl, fun x => ?lock⟩,
    fun n hs hc => ⟨?lifetime, fun hq => ?idle⟩, fun n hq => ?busy, fun handle version i hi => ?retained⟩
  case challenge => simp [List.mem_filter]
  case lock => simp [List.mem_filter]
  case lifetime => exact congrArg Host.Outcome.next (expireSession_adds _ hs hc)
  case idle =>
    have hnone : s.reqs.any (fun q => q.session == n.toNat) = false := by simpa using hq
    exact (if_neg (by simp [hnone])).trans (congrArg Host.Outcome.next (expireSession_adds _ hs hc))
  case busy => exact if_pos (by simpa using hq)
  case retained =>
    have hhandle : (unretain i version).handle = handle := heldIndex_handle s handle i hi
    exact ⟨_, indexRetainExpiry_next version hi, heldIndex_putIndex_same s handle i _ hi hhandle,
      fun n hn => heldIndex_putIndex_other s n _ (hhandle ▸ hn.symm), rfl, rfl, rfl⟩

/-! ### Limits of a set -/

theorem setGroveState_state (s : State) (n : Nat) : (setGroveState s n).grove.state = n := by
  unfold setGroveState
  split
  next h => exact h
  · rfl

/-- What the Grove and the error log do not hold, a change of the set's state leaves alone. -/
theorem setGroveState_part {α : Type} (f : State → α) (hf : ∀ s g l, f { s with grove := g, log := l } = f s) (s : State) (n : Nat) :
    f (setGroveState s n) = f s := by
  unfold setGroveState
  split
  · rfl
  · exact hf s _ _

/-- The set as a formation that is given up leaves it, before its request completes: the peers told, STATE 4 (R453, R465). -/
def formFailed (s : State) (f : Forming) : State :=
  setGroveState { tellPeers s 9 f.req with grove := { (tellPeers s 9 f.req).grove with forming := none } } 4

/-- What frames to peers, the Grove and the error log do not hold, a formation given up leaves alone. -/
theorem formFailed_part {α : Type} (g : State → α) (hg : ∀ s x l, g { s with grove := x, log := l } = g s)
    (hpeers : ∀ s n r, g (tellPeers s n r) = g s) (s : State) (f : Forming) : g (formFailed s f) = g s := by
  unfold formFailed
  rw [setGroveState_part g hg, ← hpeers s 9 f.req]
  exact hg (tellPeers s 9 f.req) _ _

theorem formFailed_forming (s : State) (f : Forming) : (formFailed s f).grove.forming = none := by
  unfold formFailed setGroveState
  split <;> rfl

theorem setFormTimeout_next {s : State} {f : Forming} (hf : s.grove.forming = some f) :
    ∃ e, exec .setFormTimeout s = .next (completeId (formFailed s f) f.req e) := by
  change ∃ e, execSetFormTimeout s = .next (completeId (formFailed s f) f.req e)
  unfold execSetFormTimeout
  rw [hf]
  exact ⟨_, rfl⟩

/-- R453: a formation that has not completed within its limit fails. -/
theorem setFormTimeout_ends (s : State) (f : Forming) (hf : s.grove.forming = some f) :
    ∃ t, exec .setFormTimeout s = .next t ∧ t.grove.forming = none ∧ t.grove.state = 4 ∧ (∀ q ∈ t.reqs, q.id ≠ f.req)
      ∧ t.prot.store = s.prot.store ∧ t.media = s.media ∧ t.chip = s.chip := by
  obtain ⟨e, hnext⟩ := setFormTimeout_next hf
  refine ⟨_, hnext, ?_, ?_, completeId_ends _ _ _, ?_, ?_, ?_⟩
  · rw [completeId_part (fun s => s.grove.forming) completeReq_forming, formFailed_forming]
  · rw [completeId_part (fun s => s.grove.state) completeReq_groveState]
    exact setGroveState_state _ 4
  · rw [completeId_part (fun s => s.prot.store) completeReq_store]
    exact formFailed_part (fun s => s.prot.store) (fun _ _ _ => rfl) (fun s n r => by rw [tellPeers_prot]) s f
  · rw [completeId_part State.media completeReq_media]
    exact formFailed_part State.media (fun _ _ _ => rfl) tellPeers_media s f
  · rw [completeId_part State.chip completeReq_chip]
    exact formFailed_part State.chip (fun _ _ _ => rfl) tellPeers_chip s f

/-- R66: a load that the set has not completed within its limit ends, and no image changes. -/
theorem loadModelSetTimeout_ends (s : State) (r : ReqId) (q : Req) (j : LoadJob) (hq : reqOf s r = some q) (hj : q.job = .load j)
    (hset : inSet s = true) :
    ∃ t, exec (.loadModelSetTimeout r) s = .next t ∧ (∀ x ∈ t.reqs, x.id ≠ r) ∧ t.images = s.images ∧ t.media = s.media
      ∧ t.tabs = s.tabs := by
  refine ⟨completeReq s q ⟨stInvalid, 0, if j.swap then fgPeer else 0, []⟩, ?_, ?_, completeReq_images _ _ _, completeReq_media _ _ _,
    completeReq_tabs _ _ _⟩
  · change execLoadModelSetTimeout r s = _
    simp only [execLoadModelSetTimeout, hq, hj, hset, if_true]
  · exact reqOf_id s r q hq ▸ completeReq_ends s q _

/-- R204: a table change that the set has not completed within its limit is given up. -/
theorem tableSetTimeout_ends (s : State) (r : ReqId) (q : Req) (i : Instr) (p : List Nat) (hq : reqOf s r = some q)
    (hj : q.job = .table i p) (hset : inSet s = true) (hnone : ∀ a ∈ s.tabs.applying, a.req ≠ r) :
    ∃ t, exec (.tableSetTimeout r) s = .next t ∧ (∀ x ∈ t.reqs, x.id ≠ r) ∧ (∀ x ∈ t.tabs.replaces, x.req ≠ r)
      ∧ t.tabs.versions = s.tabs.versions ∧ t.media.bytes = s.media.bytes ∧ .request r ∉ t.changes := by
  have hid : q.id = r := reqOf_id s r q hq
  have happly : s.tabs.applying.any (fun a => a.req == r) = false := by simpa using hnone
  refine ⟨completeReq (dropTable s q.id) q ⟨stInvalid, 0, if tableDone s r i then fgPeer else 0, []⟩, ?_, ?_, ?_, ?_, ?_, ?_⟩
  · change execTableSetTimeout r s = _
    simp [execTableSetTimeout, endRequest, hq, hj, hset, happly]
  · exact hid ▸ completeReq_ends _ q _
  · rw [completeReq_tabs, hid]
    exact dropTable_replaces s r
  · rw [completeReq_tabs]
    exact dropTable_part (fun s => s.tabs.versions) (fun _ _ _ => rfl) (fun _ _ _ => rfl) (fun _ _ _ => rfl) s q.id
  · rw [completeReq_media]
    exact dropTable_part (fun s => s.media.bytes) (fun _ _ _ => rfl) (fun _ _ _ => rfl) (fun _ _ _ => rfl) s q.id
  · exact hid ▸ request_not_mem_completeReq _ q _

section
variable {s : State} {handle : Nat} {i : Index} {m : Merge} (hi : heldIndex s handle = some i) (hm : i.merge = some m)
  (hset : i.body.shardCount ≠ 1)
include hi hm hset

theorem mergeSetTimeout_own (hnone : m.req.bind (reqOf s) = none) :
    exec (.mergeSetTimeout handle) s = .next (dropMerge s handle) := by
  change execMergeSetTimeout handle s = _
  simp only [execMergeSetTimeout, hi, hm, hset, if_false, hnone]

theorem mergeSetTimeout_asked {q : Req} (hq : m.req.bind (reqOf s) = some q) (hjob : q.job = .merge handle) :
    exec (.mergeSetTimeout handle) s
      = .next (completeReq (dropMerge s handle) q ⟨stInvalid, 0, if m.committed then fgPeer else 0, []⟩) := by
  change execMergeSetTimeout handle s = _
  simp only [execMergeSetTimeout, hi, hm, hset, if_false, hq, endRequest, hjob]

end

theorem dropMerge_swap_not_mem (s : State) (handle : Nat) : .swap handle ∉ (dropMerge s handle).changes := by
  simp [dropMerge_changes, List.mem_filter]

theorem dropMerge_snapshot_not_mem (s : State) (handle : Nat) : .snapshot handle ∉ (dropMerge s handle).changes := by
  simp [dropMerge_changes, List.mem_filter]

/-- R306: a merge on a set index that has not completed within its limit is given up, and the request that asked for it ends. -/
theorem mergeSetTimeout_ends (s : State) (handle : Nat) (i : Index) (m : Merge) (hi : heldIndex s handle = some i) (hm : i.merge = some m)
    (hset : i.body.shardCount ≠ 1) (hjob : ∀ q, m.req.bind (reqOf s) = some q → q.job = .merge handle) :
    ∃ t, exec (.mergeSetTimeout handle) s = .next t ∧ heldIndex t handle = some { i with merge := none }
      ∧ (∀ q ∈ t.reqs, some q.id ≠ m.req) ∧ .swap handle ∉ t.changes ∧ .snapshot handle ∉ t.changes ∧ t.media = s.media := by
  have hmedia : (dropMerge s handle).media = s.media := dropMerge_part State.media (fun _ _ => rfl) (fun _ _ => rfl) s handle
  have hreqs : (dropMerge s handle).reqs = s.reqs := dropMerge_part State.reqs (fun _ _ => rfl) (fun _ _ => rfl) s handle
  cases hq : m.req.bind (reqOf s) with
  | none =>
    refine ⟨_, mergeSetTimeout_own hi hm hset hq, heldIndex_dropMerge hi, fun q hmem heq => ?_, dropMerge_swap_not_mem s handle,
      dropMerge_snapshot_not_mem s handle, hmedia⟩
    rw [hreqs] at hmem
    rw [← heq] at hq
    exact ne_of_reqOf_none hq q hmem rfl
  | some q =>
    obtain ⟨r, hr, hqr⟩ := Option.bind_eq_some_iff.mp hq
    have hid : m.req = some q.id := hr.trans (congrArg some (reqOf_id s r q hqr).symm)
    refine ⟨_, mergeSetTimeout_asked hi hm hset hq (hjob q hq), ?_, fun x hx heq => ?_,
      fun hc => dropMerge_swap_not_mem s handle (mem_changes_of_completeReq hc),
      fun hc => dropMerge_snapshot_not_mem s handle (mem_changes_of_completeReq hc), (completeReq_media _ _ _).trans hmedia⟩
    · rw [heldIndex, completeReq_idx]
      exact heldIndex_dropMerge hi
    · exact completeReq_ends _ q _ x hx (Option.some.inj (heq.trans hid))

/-- Settles O39: each expiry ends what it names and nothing else, and at its limit a change of the set is given up with its request. That
STATE is 4 after SET_FORM's limit rests on the code of R465. -/
theorem expiriesAndSetTimeouts : Obligations.ExpiriesAndSetTimeouts := by
  unfold Obligations.ExpiriesAndSetTimeouts
  exact ⟨expiries_takeEffect, fun s => ⟨setFormTimeout_ends s, loadModelSetTimeout_ends s, tableSetTimeout_ends s, mergeSetTimeout_ends s⟩⟩

end Sys2Proof.Machine
end

section
/-!
PROOF. Chunks of an image, its verified content, and the components of an index (R66, R68, R277, R278, R556), and O40.
-/
namespace Sys2Proof.Machine

open Sys2Proof.Claims

/-! ### Fresh tiles (R210, R214) -/

/-- A tile that is EMPTY takes its image. -/
theorem putFresh_one (s : State) (x : TileImage) (hempty : dState (tileDesc s x.key) = 0) : putFresh s [x] = putTileImage s x :=
  if_pos hempty

section
variable {s : State} {x : TileImage} (hp : tilePopulated s x.key = true)
include hp

theorem putTileImage_eq : putTileImage s x
    = setTile (setDevBytes (dropLines s x.key) (putCells s.media.bytes (x.key * tileBytes) tileBytes (cellsOf 0 (x.bytes.take tileBytes))))
        x.key x.desc := by
  simp only [putTileImage, hp, if_true, dropLines_media]

/-- Of the bytes of T2 and T3 a tile image changes what a filled tile does. -/
theorem putTileImage_bytes : (putTileImage s x).media.bytes = (fillTile s x.key x.bytes).media.bytes := by
  rw [putTileImage_eq hp, fillTile_eq x.bytes hp, setTile_bytes, setTile_bytes]

theorem tileDesc_putTileImage_same : tileDesc (putTileImage s x) x.key = x.desc := by
  rw [putTileImage_eq hp, tileDesc_setTile_same]

theorem tileDesc_putTileImage_other {n : Nat} (hn : n ≠ x.key) : tileDesc (putTileImage s x) n = tileDesc s n := by
  rw [putTileImage_eq hp, tileDesc_setTile_other _ _ _ _ hn]
  rfl

theorem putTileImage_changes : (putTileImage s x).changes = s.changes := by
  rw [putTileImage_eq hp]
  rfl

theorem reqOf_putTileImage (r : ReqId) : reqOf (putTileImage s x) r = reqOf s r := by
  rw [putTileImage_eq hp]
  rfl

end

/-! ### Loads (R66, R67, R68) -/

/-- A load that may receive content is a request of that name. -/
theorem reqOf_of_loadJob {s : State} {r : ReqId} {q : Req} {j : LoadJob} (h : loadJob s r = some (q, j)) : reqOf s r = some q := by
  unfold loadJob at h
  split at h
  next p hp =>
    split at h
    · split at h
      · obtain ⟨rfl, -⟩ := Prod.mk.inj (Option.some.inj h)
        exact hp
      · exact absurd h nofun
    · exact absurd h nofun
  · exact absurd h nofun

/-- A load that fails ends, and leaves the images and the memories. -/
theorem failLoad_ends (s : State) (q : Req) (n : Nat) :
    (∀ x ∈ (failLoad s q n).reqs, x.id ≠ q.id) ∧ (failLoad s q n).images = s.images ∧ (failLoad s q n).media = s.media :=
  ⟨completeReq_ends _ q _, by rw [failLoad, completeReq_images, tellPeers_images], by rw [failLoad, completeReq_media, tellPeers_media]⟩

/-- What frames to peers do not hold, the news of a verified slice leaves alone. -/
theorem tellVerified_part {α : Type} (f : State → α) (hf : ∀ s m b, f (sendTo s m b) = f s) (s : State) (r : ReqId) (m : ImageMeta) :
    f (tellVerified s r m) = f s := foldl_keeps _ f (fun s p => hf s p _) _ s

/-- Text units are noted in the record of the images, which keeps its current one. -/
theorem placeVocab_cases (s : State) (m : ImageMeta) :
    ∃ im, placeVocab s m = { s with images := im } ∧ im.current = s.images.current := by
  unfold placeVocab
  split
  · exact ⟨_, rfl, rfl⟩
  · split <;> exact ⟨_, rfl, rfl⟩

/-- The load once its content is verified, before its boundary. -/
def verifiedLoad (s : State) (q : Req) (j : LoadJob) (image : ImageMeta) : State :=
  tellVerified (setJob (placeVocab s image) q (.load { j with info := some image, swap := true })) q.id image

section
variable {s : State} {r : ReqId} {q : Req} {j : LoadJob} (hl : loadJob s r = some (q, j))
include hl

/-! A chunk arrives (R67, R68). -/

theorem imageChunkArrival_badTag (tiles : List TileImage) (hsrc : j.body.source = 0#8) :
    exec (.imageChunkArrival r false tiles) s = .next (failLoad s q 7) := by
  change execImageChunkArrival r false tiles s = _
  simp [execImageChunkArrival, hl, hsrc]

/-- The image store sends no chunks. -/
theorem imageChunkArrival_stored (ok : Bool) (tiles : List TileImage) (hsrc : j.body.source ≠ 0#8) :
    exec (.imageChunkArrival r ok tiles) s = .next s := by
  change execImageChunkArrival r ok tiles s = _
  simp [execImageChunkArrival, hl, hsrc]

theorem imageChunkArrival_arrives (tiles : List TileImage) (hsrc : j.body.source = 0#8) :
    exec (.imageChunkArrival r true tiles) s = .next (setJob (putFresh s tiles) q (.load { j with chunks := j.chunks + 1 })) := by
  change execImageChunkArrival r true tiles s = _
  simp [execImageChunkArrival, hl, hsrc]

theorem imageChunk_fails (tiles : List TileImage) (hsrc : j.body.source = 0#8) :
    ∃ t, exec (.imageChunkArrival r false tiles) s = .next t ∧ (∀ x ∈ t.reqs, x.id ≠ r) ∧ t.images = s.images ∧ t.media = s.media := by
  have hreq := reqOf_of_loadJob hl
  obtain ⟨hends, himages, hmedia⟩ := failLoad_ends s q 7
  exact ⟨_, imageChunkArrival_badTag hl tiles hsrc, reqOf_id s r q hreq ▸ hends, himages, hmedia⟩

/-- A chunk of one tile fills that tile and counts. -/
theorem imageChunk_fills (x : TileImage) (hsrc : j.body.source = 0#8) (hp : tilePopulated s x.key = true)
    (hempty : dState (tileDesc s x.key) = 0) :
    ∃ t, exec (.imageChunkArrival r true [x]) s = .next t
      ∧ reqOf t r = some { q with job := .load { j with chunks := j.chunks + 1 } }
      ∧ tileDesc t x.key = x.desc ∧ (∀ n, n ≠ x.key → tileDesc t n = tileDesc s n)
      ∧ (∀ i, i < 16384 → readByte t.media.bytes (16384 * x.key + i) = (x.bytes[i]?).getD 0#8)
      ∧ sameOutside s.media.bytes t.media.bytes (16384 * x.key) 16384 ∧ t.changes = s.changes := by
  have hreq := reqOf_of_loadJob hl
  refine ⟨setJob (putTileImage s x) q (.load { j with chunks := j.chunks + 1 }), ?_,
    reqOf_setJob _ r q _ ((reqOf_putTileImage hp r).trans hreq), tileDesc_putTileImage_same hp,
    fun n hn => tileDesc_putTileImage_other hp hn, ?_, ?_, putTileImage_changes hp⟩
  · rw [imageChunkArrival_arrives hl [x] hsrc, putFresh_one s x hempty]
  · rw [setJob_media, putTileImage_bytes hp]
    exact fun i hi => readByte_fillTile_inside x.bytes hp hi
  · rw [setJob_media, putTileImage_bytes hp]
    exact fillTile_sameOutside x.bytes hp

/-! The content is verified (R66, R68, R341). -/

theorem contentVerified_passes (m : ImageMeta) (hc : contentCheck s j (loadedImage s j.body m) = none) :
    exec (.loadModelContentVerified r m) s = .next (addChange (verifiedLoad s q j (loadedImage s j.body m)) (.request r)) := by
  change execLoadModelContentVerified r m s = _
  simp only [execLoadModelContentVerified, hl, hc, verifiedLoad]

theorem contentVerified_fails (m : ImageMeta) (n : Nat) (hc : contentCheck s j (loadedImage s j.body m) = some n) :
    exec (.loadModelContentVerified r m) s = .next (failLoad s q n) := by
  change execLoadModelContentVerified r m s = _
  simp only [execLoadModelContentVerified, hl, hc]

theorem verifiedContent_waits (m : ImageMeta) (hc : contentCheck s j (loadedImage s j.body m) = none) :
    ∃ t, exec (.loadModelContentVerified r m) s = .next t ∧ t.changes = s.changes ++ [.request r]
      ∧ reqOf t r = some { q with job := .load { j with info := some (loadedImage s j.body m), swap := true } }
      ∧ t.images.current = s.images.current ∧ t.media = s.media ∧ t.tabs = s.tabs := by
  have hreq := reqOf_of_loadJob hl
  obtain ⟨im, hplace, hcurrent⟩ := placeVocab_cases s (loadedImage s j.body m)
  have hpart : ∀ {α : Type} (f : State → α), (∀ s m b, f (sendTo s m b) = f s) → f (verifiedLoad s q j (loadedImage s j.body m))
      = f (setJob { s with images := im } q (.load { j with info := some (loadedImage s j.body m), swap := true })) :=
    fun f hf => by rw [verifiedLoad, tellVerified_part f hf, hplace]
  refine ⟨_, contentVerified_passes hl m hc, ?_, ?_, ?_, hpart State.media sendTo_media, hpart State.tabs sendTo_tabs⟩
  · exact congrArg (· ++ [.request r]) (hpart State.changes sendTo_changes)
  · exact (hpart (fun t => reqOf t r) fun s m b => by rw [reqOf, sendTo_reqs, reqOf]).trans (reqOf_setJob _ r q _ hreq)
  · exact (congrArg Images.current (hpart State.images sendTo_images)).trans hcurrent

theorem badContent_ends (m : ImageMeta) (n : Nat) (hc : contentCheck s j (loadedImage s j.body m) = some n) :
    ∃ t, exec (.loadModelContentVerified r m) s = .next t ∧ (∀ x ∈ t.reqs, x.id ≠ r) ∧ t.images = s.images ∧ t.media = s.media := by
  have hreq := reqOf_of_loadJob hl
  obtain ⟨hends, himages, hmedia⟩ := failLoad_ends s q n
  exact ⟨_, contentVerified_fails hl m n hc, reqOf_id s r q hreq ▸ hends, himages, hmedia⟩

end

/-! ### Components of an index (R249, R277, R278, R556) -/

section
variable {s : State} {r : ReqId} {q : Req} {b : LoadIndexBody} {n : Nat} {i : Index}
  (hq : reqOf s r = some q) (hj : q.job = .index b n false) (hi : heldIndex s n = some i)
  (regions : RegionParts) (lists : ListParts) (residual flat : List (List (List W32)))
include hq hj hi

/-- What the load of an index does with the components that are written, by its action and their check. -/
theorem loadIndexWritten_next : exec (.loadIndexWritten r regions lists residual flat) s = .next (
    if b.action = 1#8 then addChange (setJob s q (.index b n true)) (.request r)
    else if componentsOk b (indexPartsOf regions lists residual flat) = true then
      addChange (setJob (putIndex s { i with parts := indexPartsOf regions lists residual flat }) q (.index b n true)) (.request r)
    else endRequest s q stInvalid 1 0) := by
  have hfind : s.idx.loaded.find? (fun i => i.handle == n) = some i := hi
  change execLoadIndexWritten r regions lists residual flat s = _
  simp only [execLoadIndexWritten, hq, hj, hfind]
  split
  · rfl
  · cases componentsOk b (indexPartsOf regions lists residual flat) <;> rfl

/-- A restored index has its components (R556). -/
theorem indexRestored_waits (ha : b.action = 1#8) :
    ∃ t, exec (.loadIndexWritten r regions lists residual flat) s = .next t ∧ t.changes = s.changes ++ [.request r]
      ∧ reqOf t r = some { q with job := .index b n true } ∧ t.idx = s.idx := by
  refine ⟨_, (loadIndexWritten_next hq hj hi ..).trans (congrArg Host.Outcome.next (if_pos ha)), rfl, ?_, rfl⟩
  exact reqOf_setJob s r q _ hq

theorem indexComponents_wait (ha : b.action ≠ 1#8) (hok : componentsOk b (indexPartsOf regions lists residual flat) = true) :
    ∃ t, exec (.loadIndexWritten r regions lists residual flat) s = .next t ∧ t.changes = s.changes ++ [.request r]
      ∧ reqOf t r = some { q with job := .index b n true }
      ∧ heldIndex t n = some { i with parts := indexPartsOf regions lists residual flat } ∧ ∀ m, m ≠ n → heldIndex t m = heldIndex s m := by
  have hhandle : i.handle = n := heldIndex_handle s n i hi
  refine ⟨_, (loadIndexWritten_next hq hj hi ..).trans (congrArg Host.Outcome.next ((if_neg ha).trans (if_pos hok))), rfl, ?_, ?_, ?_⟩
  · exact reqOf_setJob _ r q _ hq
  · exact heldIndex_putIndex_same s n i _ hi hhandle
  · exact fun m hm => heldIndex_putIndex_other s m _ (hhandle ▸ hm.symm)

theorem badComponents_end (ha : b.action ≠ 1#8) (hbad : componentsOk b (indexPartsOf regions lists residual flat) = false) :
    ∃ t, exec (.loadIndexWritten r regions lists residual flat) s = .next t ∧ ∀ x ∈ t.reqs, x.id ≠ r := by
  refine ⟨_, (loadIndexWritten_next hq hj hi ..).trans (congrArg Host.Outcome.next
    ((if_neg ha).trans (if_neg (Bool.eq_false_iff.mp hbad)))), ?_⟩
  simp only [endRequest, hj]
  exact reqOf_id s r q hq ▸ completeReq_ends _ q _

end

/-- Settles O40: content that arrives reaches its load, and content that fails its check ends it. What LOAD_INDEX_WRITTEN does rests on R277,
R278 and R556, and check 9 of the content on log 21. -/
theorem loadsReceiveTheirContent : Obligations.LoadsReceiveTheirContent := by
  unfold Obligations.LoadsReceiveTheirContent
  intro s r
  constructor
  · intro q j hl
    exact ⟨fun tiles => imageChunk_fails hl tiles, fun tiles hsrc ok => imageChunkArrival_stored hl ok tiles hsrc, imageChunk_fills hl,
      verifiedContent_waits hl, badContent_ends hl⟩
  · rintro q b n i regions lists residual flat _ rfl hq hj hi
    exact ⟨indexRestored_waits hq hj hi regions lists residual flat, indexComponents_wait hq hj hi regions lists residual flat,
      badComponents_end hq hj hi regions lists residual flat⟩

end Sys2Proof.Machine
end

section
/-!
PROOF. LOAD_MODEL, LOAD_INDEX, INGEST, INSERT, DELETE and MERGE that pass their checks (R67, R246, R284, R286, R289, R295, R402, R403), and O26.
-/
namespace Sys2Proof.Machine

open Sys2Proof.Claims

/-! ### Requests accepted (R9, R20) -/

theorem acceptReq_reqs (s : State) (h : MsgHead) (c : Ctx) (op : Nat) (glade tenant : Option Nat) (j : Job) :
    (acceptReq s h c op glade tenant j).reqs = s.reqs ++ [newReq s h c op glade tenant j] := rfl

/-- A request accepted under a name that no other has is found there. -/
theorem reqOf_acceptReq {s : State} {h : MsgHead} (hnew : ∀ q ∈ s.reqs, q.id ≠ ⟨h.func, h.rid⟩) (c : Ctx) (op : Nat)
    (glade tenant : Option Nat) (j : Job) :
    reqOf (acceptReq s h c op glade tenant j) ⟨h.func, h.rid⟩ = some (newReq s h c op glade tenant j) := by
  have hnone : s.reqs.find? (fun q => q.id == ⟨h.func, h.rid⟩) = none := by simpa using hnew
  rw [reqOf, acceptReq_reqs, List.find?_append, hnone, Option.none_or]
  exact List.find?_cons_of_pos (beq_self_eq_true _)

/-! ### LOAD_MODEL and LOAD_INDEX (R67, R246, R402) -/

/-- A LOAD_MODEL as it is taken: nothing of its image has arrived. -/
def newLoad (s : State) (b : LoadModelBody) : LoadJob := ⟨b, false, 0, b.mode == 0#8 || s.images.current.isNone, none, false, []⟩

theorem loadGo_takes {s : State} {h : MsgHead} {b : LoadModelBody} {c : Ctx} (hc : loadCheck s h b c.sess = none) :
    loadGo s h b c = acceptReq (tellPeers s 4 ⟨h.func, h.rid⟩) h c opLoadModel none none (.load (newLoad s b)) := by
  unfold loadGo
  rw [hc, newLoad]
  simp only [tellPeers_images]

/-- Peers that are told change nothing in the request accepted behind it. -/
theorem newReq_tellPeers (s : State) (n : Nat) (r : ReqId) (h : MsgHead) (c : Ctx) (op : Nat) (glade tenant : Option Nat) (j : Job) :
    newReq (tellPeers s n r) h c op glade tenant j = newReq s h c op glade tenant j := by
  simp only [newReq, tellPeers_time, tellPeers_sched]

theorem loadModel_isTaken (h : MsgHead) (b : LoadModelBody) (s s' : State) (c : Ctx) (ht : taken s h 0x03 .opened false s' c)
    (hc : loadCheck s' h b c.sess = none) :
    ∃ t j, exec (.loadModel h b) s = .next t ∧ t.reqs = s'.reqs ++ [newReq s' h c 0x03 none none (.load j)] ∧ j.body = b ∧ j.chunks = 0
      ∧ j.info = none ∧ t.images = s'.images ∧ t.media = s'.media ∧ t.changes = s'.changes := by
  refine ⟨acceptReq (tellPeers s' 4 ⟨h.func, h.rid⟩) h c opLoadModel none none (.load (newLoad s' b)), newLoad s' b,
    congrArg Host.Outcome.next ((message_of_taken ht _).trans (loadGo_takes hc)), ?_, rfl, rfl, rfl, tellPeers_images _ _ _,
    tellPeers_media _ _ _, tellPeers_changes _ _ _⟩
  rw [acceptReq_reqs, tellPeers_reqs, newReq_tellPeers]
  rfl

/-- The indexes with the one that a LOAD_INDEX makes. -/
def withLoading (s : State) (b : LoadIndexBody) : State :=
  { s with idx := { s.idx with
    loaded := s.idx.loaded.filter (fun x => x.handle != (loadingIndex s b).handle) ++ [loadingIndex s b]
    next := if b.action = 0#8 then s.idx.next + 1 else s.idx.next } }

theorem indexGo_takes {s : State} {h : MsgHead} {b : LoadIndexBody} {c : Ctx} (hc : indexCheck s h b c.sess = none) :
    indexGo s h b c = acceptReq (withLoading s b) h c opLoadIndex none none (.index b (loadingIndex s b).handle false) := by
  unfold indexGo
  rw [hc]
  rfl

theorem loadIndex_isTaken (h : MsgHead) (b : LoadIndexBody) (s s' : State) (c : Ctx) (ht : taken s h 0x04 .opened false s' c)
    (hc : indexCheck s' h b c.sess = none) :
    ∃ t, exec (.loadIndex h b) s = .next t
      ∧ t.reqs = s'.reqs ++ [newReq s' h c 0x04 none none (.index b (loadingIndex s' b).handle false)]
      ∧ t.idx.loaded = s'.idx.loaded.filter (fun x => x.handle != (loadingIndex s' b).handle) ++ [loadingIndex s' b]
      ∧ t.changes = s'.changes ∧ t.media = s'.media :=
  ⟨_, congrArg Host.Outcome.next ((message_of_taken ht _).trans (indexGo_takes hc)), rfl, rfl, rfl, rfl⟩

/-! ### INGEST and INSERT (R284, R286, R403) -/

/-- Items without a key of their own leave the vault alone. -/
theorem dropItemKeys_keyless (s : State) (l : List ItemState) (h : ∀ x ∈ l, x.key = 0) : dropItemKeys s l = s := by
  have hnone : l.filter (fun x => x.status.isSome && x.key != 0) = [] :=
    List.filter_eq_nil_iff.mpr fun x hx => by simp [h x hx]
  rw [dropItemKeys, hnone, List.foldl_nil]

/-- A request with an item that is not decided goes on. -/
theorem settleItems_goesOn {s : State} {r : ReqId} {q : Req} {ins : Bool} {b : IngestBody} {img : Nat} {l : List ItemState}
    (hq : reqOf s r = some q) (hj : q.job = .items ins b img l) (hopen : ∃ x ∈ l, x.status = none) :
    settleItems s r = dropItemKeys s l := by
  have hall : l.all (fun x => x.status.isSome) = false := by simpa using hopen
  simp only [settleItems, hq, hj, hall, Bool.false_eq_true, if_false]

/-- The job of an INGEST or INSERT as it is taken: each item as its entry decides it. -/
def newItems (s : State) (insert : Bool) (b : IngestBody) (x : Session) (i : Index) (img : Img) : Job :=
  .items insert b img.serial (b.items.map (itemNew s x i))

theorem ingestGo_takes {s : State} {h : MsgHead} {b : IngestBody} {insert : Bool} {c : Ctx} {i : Index} {img : Img} {g : Nat}
    (hc : ingestChecks s h b insert c.sess = .ok (i, img, g)) (hs : ingestStrain s b insert i (plannedImg s img) g = none)
    (hopen : ∃ e ∈ b.items, entryStatus s c.sess i e = none) (hnew : ∀ q ∈ s.reqs, q.id ≠ ⟨h.func, h.rid⟩) :
    ingestGo s h b insert c
      = acceptReq s h c (if insert then opInsert else opIngest) (some g) (sessionTenant c.sess) (newItems s insert b c.sess i img) := by
  unfold plannedImg at hs
  simp only [ingestGo, hc, hs]
  rw [settleItems_goesOn (reqOf_acceptReq hnew ..) rfl]
  · exact dropItemKeys_keyless _ _ (by simp [itemNew])
  · obtain ⟨e, he, hstatus⟩ := hopen
    exact ⟨itemNew s c.sess i e, List.mem_map_of_mem he, hstatus⟩

theorem exec_ingestOrInsert (h : MsgHead) (b : IngestBody) (insert : Bool) (s : State) :
    exec (if insert then .insert h b else .ingest h b) s
      = .next (message s h (if insert then opInsert else opIngest) .opened false (fun s c => ingestGo s h b insert c)) := by
  cases insert <;> rfl

theorem items_areTaken (h : MsgHead) (b : IngestBody) (insert : Bool) (s s' : State) (c : Ctx) (i : Index) (img : Img) (g : Nat)
    (ht : taken s h (if insert then 0x06 else 0x05) .opened false s' c) (hc : ingestChecks s' h b insert c.sess = .ok (i, img, g))
    (hs : ingestStrain s' b insert i { img with info := planned s' img.info } g = none)
    (hopen : ∃ e ∈ b.items, entryStatus s' c.sess i e = none) (hnew : ∀ q ∈ s'.reqs, q.id ≠ ⟨h.func, h.rid⟩) :
    exec (if insert then .insert h b else .ingest h b) s = .next { s' with
      reqs := s'.reqs ++ [newReq s' h c (if insert then 0x06 else 0x05) (some g) (sessionTenant c.sess)
        (.items insert b img.serial (b.items.map (itemNew s' c.sess i)))]
      sched := { s'.sched with admits := s'.sched.admits + 1 } } := by
  rw [exec_ingestOrInsert, message_of_taken (op := if insert then opInsert else opIngest) ht, ingestGo_takes hc hs hopen hnew]
  rfl

/-! ### DELETE (R289, R305, R405) -/

/-- The state that has accepted a DELETE and passed its ranges to the members that hold them. -/
def deleteAccepted (s : State) (h : MsgHead) (b : DeleteBody) (c : Ctx) (i : Index) : State :=
  (farShards i b.ranges).foldl (fun s m => passRanges s m ⟨h.func, h.rid⟩ b (sessionTenant c.sess))
    (acceptReq s h c opDelete (indexGlade s i) (sessionTenant c.sess) (.delete b (!isDurable i.body)))

/-- What frames to peers do not hold is, after a DELETE is accepted, what the acceptance makes it. -/
theorem deleteAccepted_part {α : Type} (f : State → α) (hf : ∀ s m l, f (sendTo s m l) = f s) (s : State) (h : MsgHead) (b : DeleteBody)
    (c : Ctx) (i : Index) : f (deleteAccepted s h b c i)
      = f (acceptReq s h c opDelete (indexGlade s i) (sessionTenant c.sess) (.delete b (!isDurable i.body))) :=
  foldl_keeps _ f (fun s m => hf s m _) _ _

theorem deleteGo_takes {s : State} {h : MsgHead} {b : DeleteBody} {c : Ctx} {i : Index} (hi : loadedIndex s b.handle = some i)
    (hform : formOk h false = true) (hranges : rangesOk b.ranges = true) (hreport : 16 * b.ranges.length ≤ b.reportLen)
    (hright : deleteRight s c.sess i = true) (hlost : i.lost = false) : deleteGo s h b c
      = if isDurable i.body then deleteAccepted s h b c i else addChange (deleteAccepted s h b c i) (.request ⟨h.func, h.rid⟩) := by
  simp [deleteGo, deleteAccepted, hi, hform, hranges, hright, hlost, Nat.not_lt.mpr hreport]

theorem delete_isTaken (h : MsgHead) (b : DeleteBody) (s s' : State) (c : Ctx) (i : Index) (ht : taken s h 0x07 .opened false s' c)
    (hi : loadedIndex s' b.handle = some i) (hform : formOk h false = true) (hranges : rangesOk b.ranges = true)
    (hreport : 16 * b.ranges.length ≤ b.reportLen) (hright : deleteRight s' c.sess i = true) (hlost : i.lost = false) :
    ∃ t, exec (.delete h b) s = .next t
      ∧ t.reqs = s'.reqs ++ [newReq s' h c 0x07 (indexGlade s' i) (sessionTenant c.sess) (.delete b (!isDurable i.body))]
      ∧ t.changes = (if isDurable i.body then s'.changes else s'.changes ++ [.request ⟨h.func, h.rid⟩]) ∧ t.idx = s'.idx := by
  have hexec : exec (.delete h b) s = .next (if isDurable i.body then deleteAccepted s' h b c i
      else addChange (deleteAccepted s' h b c i) (.request ⟨h.func, h.rid⟩)) :=
    congrArg Host.Outcome.next ((message_of_taken ht _).trans (deleteGo_takes hi hform hranges hreport hright hlost))
  have hreqs := deleteAccepted_part State.reqs sendTo_reqs s' h b c i
  have hchanges := deleteAccepted_part State.changes sendTo_changes s' h b c i
  have hidx := deleteAccepted_part State.idx sendTo_idx s' h b c i
  refine ⟨_, hexec, ?_⟩
  split
  · exact ⟨hreqs, hchanges, hidx⟩
  · exact ⟨hreqs, congrArg (fun l => l ++ [Change.request ⟨h.func, h.rid⟩]) hchanges, hidx⟩

/-! ### MERGE (R295, R406) -/

/-- The merge of an index that a MERGE asks for. -/
def askedMerge (h : MsgHead) (b : MergeBody) (i : Index) : Merge :=
  newMerge i (some ⟨h.func, h.rid⟩) b.target.toNat (bitOf b.flags 0) b.tombFrac b.liveFrac

theorem mergeGo_takes {s : State} {h : MsgHead} {b : MergeBody} {c : Ctx} {i : Index} (hc : mergeCheck s h b c.sess = none)
    (hi : loadedIndex s b.handle = some i) : mergeGo s h b c
      = addChange (acceptReq (putIndex s { i with merge := some (askedMerge h b i) }) h c opMerge (indexGlade s i) none (.merge b.handle))
        (.snapshot b.handle) := by
  unfold mergeGo
  rw [hc, hi]
  rfl

theorem merge_isTaken (h : MsgHead) (b : MergeBody) (s s' : State) (c : Ctx) (i : Index) (ht : taken s h 0x08 .opened false s' c)
    (hc : mergeCheck s' h b c.sess = none) (hi : loadedIndex s' b.handle = some i) :
    ∃ t m, exec (.merge h b) s = .next t ∧ t.reqs = s'.reqs ++ [newReq s' h c 0x08 (indexGlade s' i) none (.merge b.handle)]
      ∧ t.changes = s'.changes ++ [.snapshot b.handle] ∧ m.req = some ⟨h.func, h.rid⟩ ∧ m.target = b.target.toNat ∧ m.committed = false
      ∧ t.idx.loaded = s'.idx.loaded.map (fun x => if x.handle == i.handle then { i with merge := some m } else x)
      ∧ t.media = s'.media :=
  ⟨_, askedMerge h b i, congrArg Host.Outcome.next ((message_of_taken ht _).trans (mergeGo_takes hc hi)), rfl, rfl, rfl, rfl, rfl, rfl, rfl⟩

/-- Settles O26: each of the six messages that passes its checks becomes a request in progress, with the change that waits for the next
boundary where there is one. -/
theorem loadsItemsDeletesAndMergesAreTaken : Obligations.LoadsItemsDeletesAndMergesAreTaken := by
  unfold Obligations.LoadsItemsDeletesAndMergesAreTaken
  exact ⟨loadModel_isTaken, loadIndex_isTaken, items_areTaken, delete_isTaken, merge_isTaken⟩

end Sys2Proof.Machine
end

section
/-!
SUPPORT. An instruction of an engine that the dispatcher presents on a quiet core (R82 to R87): it issues, its engine starts it, and nothing
else of the state moves. `presentAt_starts` says so once for every engine that leaves the rest of the state alone.
-/
namespace Sys2Proof.Machine

open Sys2Proof.Claims

/-! ### A place written twice -/

section
variable {α : Type} [DecidableEq α] (d : α) (m : AMap α) (k : Nat) (v w : α)

theorem AMap.below_put : (AMap.put d m k v).below k = m.below k := by
  unfold AMap.put AMap.below AMap.from
  split <;> simp [List.filter_filter] <;> omega

theorem AMap.from_put : (AMap.put d m k v).from (k + 1) = m.from (k + 1) := by
  unfold AMap.put AMap.below AMap.from
  split <;> simp [List.filter_filter] <;> omega

/-- Of two writes to one key the second stands. -/
@[simp] theorem AMap.put_put : AMap.put d (AMap.put d m k v) k w = AMap.put d m k w := by
  rw [AMap.put, AMap.below_put, AMap.from_put, AMap.put]

end

@[simp] theorem setCore_setCore (s : State) (c : Nat) (k l : Core) : setCore (setCore s c k) c l = setCore s c l := by
  simp [setCore]

/-! ### The core after an issue (R84, R87) -/

@[simp] theorem stepPc_desc (r : Running) (w : EWord) : (stepPc r w).desc = r.desc := by unfold stepPc; split <;> rfl
@[simp] theorem stepPc_waiting (r : Running) (w : EWord) : (stepPc r w).waiting = r.waiting := by unfold stepPc; split <;> rfl
@[simp] theorem stepPc_ended (r : Running) (w : EWord) : (stepPc r w).ended = r.ended := by unfold stepPc; split <;> rfl

/-- The tokens are all that an issue touches besides the dispatcher's position. -/
theorem issueTokens_keeps {β : Type} (g : Core → β) (hg : ∀ k t v, g (setToken k t v) = g k) (k : Core) (h : Hdr) (v : Token) :
    g (issueTokens k h v) = g k := by
  have hfold : ∀ (l : List Nat) (k : Core), g (l.foldl (fun k t => setToken k t .idle) k) = g k := by
    intro l
    induction l with
    | nil => intro k; rfl
    | cons t l ih => intro k; rw [List.foldl_cons, ih, hg]
  have hconsume : g (consumeTokens k h) = g k := by unfold consumeTokens; split <;> simp [hfold]
  unfold issueTokens signalToken
  split
  · rw [hg, hconsume]
  · exact hconsume

section
variable (k : Core) (r : Running) (w : EWord)

@[simp] theorem issued_slots : (issued k r w).slots = k.slots := issueTokens_keeps Core.slots (fun _ _ _ => rfl) ..
@[simp] theorem issued_bytes : (issued k r w).bytes = k.bytes := issueTokens_keeps Core.bytes (fun _ _ _ => rfl) ..
@[simp] theorem issued_scalars : (issued k r w).scalars = k.scalars := issueTokens_keeps Core.scalars (fun _ _ _ => rfl) ..
@[simp] theorem issued_active : (issued k r w).active = k.active := issueTokens_keeps Core.active (fun _ _ _ => rfl) ..
@[simp] theorem issued_shadow : (issued k r w).shadow = k.shadow := issueTokens_keeps Core.shadow (fun _ _ _ => rfl) ..
@[simp] theorem issued_arrayOn : (issued k r w).arrayOn = k.arrayOn := issueTokens_keeps Core.arrayOn (fun _ _ _ => rfl) ..

/-- The core once an instruction has issued to an idle engine that has not started it. -/
def issuedFlight : Core := { issued k r w with flights := [flightOf k r w] }

end

/-! ### Slots that an engine reads (R90) -/

theorem readGate_of_slots {k k' : Core} (h : k.slots = k'.slots) (l : List Nat) : readGate k l = readGate k' l := by
  induction l with
  | nil => rfl
  | cons n l ih => simp only [readGate, slotOf, h, ih]

theorem readGate_allFull {k : Core} {l : List Nat} (h : allFull k l) : readGate k l = .pass := by
  induction l with
  | nil => rfl
  | cons n l ih => simp only [readGate, h n List.mem_cons_self, ih fun m hm => h m (List.mem_cons_of_mem n hm)]

/-! ### Cores on which nothing moves -/

theorem pump_of_still {s : State} {c : Nat} (h : coreMove s c = none) (n : Nat) : pump n s c = s := by
  cases n with
  | zero => rfl
  | succ n => simp only [pump, h]

theorem pump_of_move {s t : State} {c : Nat} (h : coreMove s c = some t) (n : Nat) : pump (n + 1) s c = pump n t c := by
  simp only [pump, h]

/-- A core with nothing in execution serves no context. -/
theorem serveMove_idle {k : Core} (hf : k.flights = []) (s : State) (c : Nat) : serveMove s c k = none := by
  simp [serveMove, gServe, qServe, gReady, qReady, servedOrder, hf]

/-- Nothing moves on a core with nothing in execution and nothing at its head. -/
theorem coreMove_idle {s : State} {c : Nat} (hf : (coreOf s c).flights = []) (hw : ∀ q, (coreOf s c).run = some q → q.waiting = []) :
    coreMove s c = none := by
  unfold coreMove
  dsimp only
  split
  · rfl
  next r hr => simp only [hf, engineMove, serveMove_idle hf, issueMove, hw r hr]

theorem goOn_idle {s : State} {c : Nat} (hf : (coreOf s c).flights = []) (hw : ∀ q, (coreOf s c).run = some q → q.waiting = []) :
    goOn s c = s := by
  simp only [goOn, pump_of_still (coreMove_idle hf hw), settleCasts, deliverCore_rest s c hf, List.foldl_nil]

/-- Where every other core rests, only the core itself goes on. -/
theorem goAll_eq_goOn {s t : State} {c : Nat} (ht : goOn s c = t) (ho : othersRest t c) (hl : locksAsked t) : goAll s c = t := by
  have hfold : ∀ l : List Nat, l.foldl (fun s n => if n = c then s else goOn s n) t = t := by
    intro l
    induction l with
    | nil => rfl
    | cons n l ih =>
      have hn : (if n = c then t else goOn t n) = t := by
        split
        · rfl
        next hn => exact goOn_idle (ho n hn).1 fun q hq => ((ho n hn).2 q hq).1
      rw [List.foldl_cons, hn, ih]
  simp only [goAll, ht, hfold, askLocks_asked t hl]

theorem finishUnit_going {s : State} {n : Nat} (h : ∀ q, (coreOf s n).run = some q → q.ended = false) : finishUnit s n = s := by
  unfold finishUnit
  dsimp only
  split
  · rfl
  next r hr => simp [h r hr]

/-- Units that have not issued their END go on. -/
theorem finishAll_going {s : State} (h : ∀ n q, (coreOf s n).run = some q → q.ended = false) : finishAll s = s := by
  unfold finishAll
  generalize s.chip.cores.map (·.1) = l
  induction l with
  | nil => rfl
  | cons n l ih => rw [List.foldl_cons, finishUnit_going (h n), ih]

theorem othersRest_setCore {s : State} {c : Nat} (h : othersRest s c) (k : Core) : othersRest (setCore s c k) c := by
  intro n hn
  rw [coreOf_setCore_other s c n k hn]
  exact h n hn

/-! ### The moves of an instruction that starts with its issue -/

section
variable {s : State} {c : Nat} {r : Running} {w : EWord}

/-- The core with the instruction at its head. -/
def headCore (k : Core) (r : Running) (w : EWord) : Core := { k with run := some { r with waiting := [w] } }

theorem present_issuable (hi : issuable s c r w) : present s c w = goAll (setCore s c (headCore (coreOf s c) r w)) c := by
  obtain ⟨⟨hrun, hended, hwaiting, -⟩, ⟨hpc, x, hx, hword⟩, -⟩ := hi
  have hnext : nextWord r = some x := by simp [nextWord, hwaiting, Nat.not_le.mpr hpc, hx]
  simp [present, hrun, hended, hwaiting, hnext, hword, headCore]

/-- What an engine checks at issue does not read the unit's own record on its core. -/
theorem engineCheck_headCore (k : Core) (d : UnitDesc) (it : Nat) : engineCheck (headCore k r w) d w it = engineCheck k d w it := by
  have hwidth : gWidthAt (headCore k r w) = gWidthAt k := by
    funext p
    rw [gWidthAt, readGate_of_slots (k := headCore k r w) (k' := k) rfl]
    rfl
  simp only [engineCheck, gCheck, hwidth]

theorem headCheck_headCore (k : Core) : headCheck (headCore k r w) { r with waiting := [w] } w = headCheck k r w := by
  have htoken : tokenOf (headCore k r w) = tokenOf k := rfl
  have hconcerned : slotConcerned (headCore k r w) = slotConcerned k := rfl
  have hflights : (headCore k r w).flights = k.flights := rfl
  have hiter : iterOf { r with waiting := [w] } = iterOf r := rfl
  have hdisp : dispCheck (headCore k r w) { r with waiting := [w] } = dispCheck k r := rfl
  simp only [headCheck, htoken, hconcerned, hflights, hiter, hdisp, engineCheck_headCore]

/-- R86: nothing holds the head of an issuable instruction whose engine raises no error. -/
theorem headCheck_issuable (hi : issuable s c r w) (he : w.engine ≠ engD)
    (hc : engineCheck (coreOf s c) r.desc w (iterOf r) = none) : headCheck (coreOf s c) r w = .issue := by
  obtain ⟨⟨-, hended, -, hflights, -⟩, ⟨hpc, -⟩, hrsvd, hset, hsignal⟩ := hi
  have hidle : (waited w.h).find? (fun t => tokenOf (coreOf s c) t == .idle) = none :=
    List.find?_eq_none.mpr fun t ht => by simp [hset t ht]
  have hwait : (waited w.h).any (fun t => tokenOf (coreOf s c) t != .set) = false :=
    List.any_eq_false.mpr fun t ht => by simp [hset t ht]
  have harmed : (w.h.sigen && tokenOf (coreOf s c) w.h.sigtok.toNat == .armed) = false := by
    cases hs : w.h.sigen <;> simp [hsignal, hs]
  have hfree : (w.h.sigen && tokenOf (coreOf s c) w.h.sigtok.toNat != .idle) = false := by
    cases hs : w.h.sigen <;> simp [hsignal, hs]
  simp [headCheck, hended, Nat.not_le.mpr hpc, hidle, hwait, harmed, hfree, he, hflights, hrsvd, hc]

theorem issueMove_issues {k : Core} (hw : r.waiting = []) (hh : headCheck k { r with waiting := [w] } w = .issue) :
    issueMove s c k { r with waiting := [w] } = some (setCore s c (issueWord { k with run := some r } r w)) := by
  cases r
  cases hw
  simp only [issueMove, hh]

theorem issueWord_issuedFlight {k : Core} (hf : k.flights = []) (he : w.engine ≠ engD) : issueWord k r w = issuedFlight k r w := by
  simp [issueWord, he, hf, issuedFlight, issued, flightOf]

/-- The head instruction's move: it issues. -/
theorem coreMove_issues (hi : issuable s c r w) (he : w.engine ≠ engD) (hc : engineCheck (coreOf s c) r.desc w (iterOf r) = none) :
    coreMove (setCore s c (headCore (coreOf s c) r w)) c = some (setCore s c (issuedFlight (coreOf s c) r w)) := by
  have hhead := (headCheck_headCore (coreOf s c)).trans (headCheck_issuable hi he hc)
  obtain ⟨⟨hrun, -, hwaiting, hflights, -⟩, -⟩ := hi
  have hissued : issueWord { headCore (coreOf s c) r w with run := some r } r w = issuedFlight (coreOf s c) r w := by
    rw [show { headCore (coreOf s c) r w with run := some r } = coreOf s c by rw [← hrun]; rfl]
    exact issueWord_issuedFlight hflights he
  have hrun' : (headCore (coreOf s c) r w).run = some { r with waiting := [w] } := rfl
  have hflights' : (headCore (coreOf s c) r w).flights = [] := hflights
  simp only [coreMove, coreOf_setCore_same, hrun']
  rw [hflights']
  simp only [engineMove, serveMove_idle hflights', issueMove_issues hwaiting hhead, hissued, setCore_setCore]

/-- The only instruction in execution, not started, is the first of its engine. -/
theorem tryFlight_alone {k : Core} {f : Flight} (hf : k.flights = [f]) (hs : f.started = false) (u : UnitDesc) :
    tryFlight s c k u f = beginFlight s c k u f := by
  have hbefore : k.flights.takeWhile (fun g => g.id != f.id) = [] := by simp [hf]
  have hmay : mayStart k f = true := by
    unfold mayStart
    rw [hbefore]
    split <;> rfl
  simp [tryFlight, hs, hmay]

/-- The engine's move: it starts the instruction. -/
theorem coreMove_starts {t : State} {k : Core} {f : Flight}
    (hb : beginFlight (setCore s c (issuedFlight (coreOf s c) r w)) c (issuedFlight (coreOf s c) r w) r.desc (flightOf (coreOf s c) r w)
      = .go t k f) :
    coreMove (setCore s c (issuedFlight (coreOf s c) r w)) c = some (setCore t c (putFlight k f)) := by
  have hrun : (issuedFlight (coreOf s c) r w).run = some (stepPc r w) := rfl
  have hflights : (issuedFlight (coreOf s c) r w).flights = [flightOf (coreOf s c) r w] := rfl
  simp only [coreMove, coreOf_setCore_same, hrun, hflights, engineMove, stepPc_desc, tryFlight_alone hflights rfl, hb]

/-- The only instruction in execution, put back under its number. -/
theorem putFlight_alone {k : Core} {f g : Flight} (hf : k.flights = [g]) (hg : g.id = f.id) : putFlight k f = { k with flights := [f] } := by
  simp [putFlight, hf, hg]

/-- A started instruction that does not go on by itself and holds no context that may be served: it runs until it completes. -/
structure Runs (f : Flight) : Prop where
  started : f.started = true
  engine  : f.word.engine ≠ engC
  waits   : ∀ s c k u, resumeFlight s c k u f = .wait
  serves  : ∀ s c k, k.flights = [f] → serveMove s c k = none

theorem coreMove_runs {k : Core} {f : Flight} (hf : Runs f) (hk : k.flights = [f]) (hr : k.run = some (stepPc r w)) (hw : r.waiting = []) :
    coreMove (setCore s c k) c = none := by
  have htry : ∀ s c u, tryFlight s c k u f = .wait := fun s c u => by simp only [tryFlight, hf.started, if_true, hf.waits]
  simp only [coreMove, coreOf_setCore_same, hr, hk, engineMove, htry, hf.serves _ _ k hk, issueMove, stepPc_waiting, hw]

theorem settleCasts_runs {k : Core} {f : Flight} (hf : Runs f) (hk : k.flights = [f]) :
    settleCasts (setCore s c k) c = setCore s c k := by
  have hdeliver : deliverCore (setCore s c k) c = (setCore s c k, []) := by
    simp only [deliverCore, coreOf_setCore_same, hk, List.foldl_cons, List.foldl_nil]
    split <;> simp [hf.engine]
  simp only [settleCasts, hdeliver, List.foldl_nil]

/-- R82 to R87: an issuable instruction whose engine starts it and needs nothing outside its core is in execution, and the rest of the state
is as it was. -/
theorem presentAt_starts {core : CoreId} {e op : Nat} {h : Hdr} {o : BitVec 88} {k : Core} {f : Flight}
    (hi : issuable s core.toNat r ⟨e, op, h, o⟩) (he : e ≠ engD)
    (hc : engineCheck (coreOf s core.toNat) r.desc ⟨e, op, h, o⟩ (iterOf r) = none)
    (hb : beginFlight (setCore s core.toNat (issuedFlight (coreOf s core.toNat) r ⟨e, op, h, o⟩)) core.toNat
      (issuedFlight (coreOf s core.toNat) r ⟨e, op, h, o⟩) r.desc (flightOf (coreOf s core.toNat) r ⟨e, op, h, o⟩)
      = .go (setCore s core.toNat (issuedFlight (coreOf s core.toNat) r ⟨e, op, h, o⟩)) k f)
    (hrun : k.run = some (stepPc r ⟨e, op, h, o⟩)) (hfl : k.flights = [flightOf (coreOf s core.toNat) r ⟨e, op, h, o⟩])
    (hid : r.issued = f.id) (hf : Runs f) :
    presentAt core e op h o s = setCore s core.toNat { k with flights := [f] } := by
  have hissues := coreMove_issues hi he hc
  have hstarts := coreMove_starts hb
  have hpresent := present_issuable hi
  obtain ⟨⟨-, hended, hwaiting, hflights, hothers, hlocks⟩, -⟩ := hi
  rw [setCore_setCore, putFlight_alone hfl hid] at hstarts
  have hstill : coreMove (setCore s core.toNat { k with flights := [f] }) core.toNat = none := coreMove_runs hf rfl hrun hwaiting
  have hgo : goOn (setCore s core.toNat (headCore (coreOf s core.toNat) r ⟨e, op, h, o⟩)) core.toNat
      = setCore s core.toNat { k with flights := [f] } := by
    obtain ⟨n, hn⟩ : ∃ n, pumpFuel (headCore (coreOf s core.toNat) r ⟨e, op, h, o⟩) = n + 2 := ⟨_, rfl⟩
    rw [goOn, coreOf_setCore_same, hn, pump_of_move hissues, pump_of_move hstarts, pump_of_still hstill, settleCasts_runs hf rfl]
  have hgoing : ∀ n q, (coreOf (setCore s core.toNat { k with flights := [f] }) n).run = some q → q.ended = false := by
    intro n q hq
    by_cases hn : n = core.toNat
    · rw [hn, coreOf_setCore_same] at hq
      obtain rfl := Option.some.inj (hrun.symm.trans hq)
      exact (stepPc_ended ..).trans hended
    · rw [coreOf_setCore_other _ _ _ _ hn] at hq
      exact ((hothers n hn).2 q hq).2
  rw [presentAt, hpresent, goAll_eq_goOn hgo (othersRest_setCore hothers _) hlocks, finishAll_going hgoing]

end

end Sys2Proof.Machine
end

section
/-!
PROOF. What the matrix engine makes of an issued instruction; MLOAD and MSWAP (R119 to R121), and O3.
-/
namespace Sys2Proof.Machine

open Sys2Proof.Claims

section
variable (k : Core) (r : Running) (w : EWord)

@[simp] theorem issuedFlight_slots : (issuedFlight k r w).slots = k.slots := issued_slots k r w
@[simp] theorem issuedFlight_bytes : (issuedFlight k r w).bytes = k.bytes := issued_bytes k r w
@[simp] theorem issuedFlight_active : (issuedFlight k r w).active = k.active := issued_active k r w
@[simp] theorem issuedFlight_shadow : (issuedFlight k r w).shadow = k.shadow := issued_shadow k r w
@[simp] theorem issuedFlight_arrayOn : (issuedFlight k r w).arrayOn = k.arrayOn := issued_arrayOn k r w

end

/-- An instruction of the matrix engine that has taken its last step only completes. -/
theorem runs_matrix {f : Flight} (hs : f.started = true) (he : f.word.engine = engM)
    (hw : f.work = .none ∨ ∃ j steps zero loaded, f.work = .stream j steps zero loaded) (hm : mStepping f = false) : Runs f where
  started := hs
  engine := by rw [he]; decide
  waits s c k u := by
    obtain hw | ⟨j, steps, zero, loaded, hw⟩ := hw <;> simp [resumeFlight, he, engM, hw, hm]
  serves s c k hk := by
    obtain hw | ⟨j, steps, zero, loaded, hw⟩ := hw <;> simp [serveMove, gServe, qServe, gReady, qReady, servedOrder, hk, hw]

/-- `presentAt_starts` for the matrix engine: what `mBegin` makes of the issued instruction stands. -/
theorem matrix_starts {s : State} {core : CoreId} {r : Running} {op : Nat} {h : Hdr} {o : BitVec 88} {k : Core} {f : Flight}
    (hi : issuable s core.toNat r ⟨0, op, h, o⟩) (hc : mCheck r.desc op o = none)
    (hb : mBegin (issuedFlight (coreOf s core.toNat) r ⟨0, op, h, o⟩) (flightOf (coreOf s core.toNat) r ⟨0, op, h, o⟩) = .go k f)
    (hrun : k.run = some (stepPc r ⟨0, op, h, o⟩)) (hfl : k.flights = [flightOf (coreOf s core.toNat) r ⟨0, op, h, o⟩])
    (hid : r.issued = f.id) (hf : Runs f) : presentAt core engM op h o s = setCore s core.toNat { k with flights := [f] } :=
  presentAt_starts hi (by decide) hc (congrArg (Begin.lift _) hb) hrun hfl hid hf

/-- A plane load reads the core's bytes and nothing else of it. -/
theorem loadPlane_of_bytes {k k' : Core} (h : k.bytes = k'.bytes) (l : LoadOp) : loadPlane k l = loadPlane k' l := by
  simp only [loadPlane, h]

/-- R119: byte `i` of the element plane taken. -/
theorem readByte_loadPlane_elems (k : Core) (l : LoadOp) {i : Nat} (hi : i < 8192) :
    readByte (loadPlane k l).elems i = readByte k.bytes (16384 * l.wslot + 8192 * l.half + i) := by
  refine (get_cutCells k.bytes _ 8192 i hi).trans (congrArg (readByte k.bytes) ?_)
  simp only [slotAddr, tileBytes]
  omega

/-- R119: byte `i` of the side record taken. -/
theorem readByte_loadPlane_side (k : Core) {l : LoadOp} (hs : l.side = true) {i : Nat} (hi : i < recordSize l.wfmt l.sparse) :
    readByte (loadPlane k l).side i = readByte k.bytes (16384 * l.sslot + 512 * l.soff + i) := by
  simp only [loadPlane, hs, if_true]
  refine (get_cutCells k.bytes _ _ i hi).trans (congrArg (readByte k.bytes) ?_)
  simp only [slotAddr, tileBytes]
  omega

/-- R119, R120: an MLOAD whose slots are FULL begins while no other load runs. -/
theorem mBegin_mload {k : Core} {f : Flight} (hop : f.word.opcode = 1) (hs : k.shadow.state ≠ .loading)
    (hg : readGate k (loadSlots (mloadOp f.word.o)) = .pass) : mBegin k f = .go { k with shadow := loadPlane k (mloadOp f.word.o) }
      { f with started := true, cycles := loadCycles (mloadOp f.word.o) } := by
  simp [mBegin, hop, hs, hg]

/-- R121: MSWAP exchanges the planes when the shadow plane is LOADED. -/
theorem mBegin_mswap {k : Core} {f : Flight} (hop : f.word.opcode = 2) (hs : k.shadow.state = .loaded) :
    mBegin k f = .go { k with active := k.shadow, shadow := k.active } { f with started := true, cycles := 0 } := by
  simp [mBegin, hop, hs]

theorem mload_loadsTheShadowPlane : mloadLoadsTheShadowPlane := by
  intro s core h o r hi hc hs hfull
  have hgate : readGate (issuedFlight (coreOf s core.toNat) r ⟨0, 1, h, o⟩) (loadSlots (mloadOp o)) = .pass :=
    (readGate_of_slots (issuedFlight_slots ..) _).trans (readGate_allFull hfull)
  have hbegin := mBegin_mload (f := flightOf (coreOf s core.toNat) r ⟨0, 1, h, o⟩) rfl (by rwa [issuedFlight_shadow]) hgate
  have hstarts := matrix_starts hi hc hbegin rfl rfl rfl (runs_matrix rfl rfl (.inl rfl) rfl)
  rw [loadPlane_of_bytes (issuedFlight_bytes ..)] at hstarts
  exact ⟨loadPlane (coreOf s core.toNat) (mloadOp o), congrArg Host.Outcome.next hstarts, rfl, rfl, rfl,
    fun i => readByte_loadPlane_elems _ _, fun hside i => readByte_loadPlane_side _ hside⟩

theorem mswap_exchangesThePlanes : mswapExchangesThePlanes := by
  intro s core h o r hi ho hs
  have hc : mCheck r.desc 2 o = none := by simp [mCheck, zeroBits, ho]
  have hbegin := mBegin_mswap (f := flightOf (coreOf s core.toNat) r ⟨0, 2, h, o⟩) rfl
    (by rwa [issuedFlight_shadow (coreOf s core.toNat) r ⟨0, 2, h, o⟩])
  have hstarts := matrix_starts hi hc hbegin rfl rfl rfl (runs_matrix rfl rfl (.inl rfl) rfl)
  rw [issuedFlight_active, issuedFlight_shadow] at hstarts
  exact congrArg Host.Outcome.next hstarts

/-- Settles O3: MLOAD and MSWAP start with their issue, and the planes are what their start makes of them. -/
theorem matrixPlanes : Obligations.MatrixPlanes := by
  unfold Obligations.MatrixPlanes
  exact ⟨mload_loadsTheShadowPlane, mswap_exchangesThePlanes⟩

end Sys2Proof.Machine
end

section
/-!
PROOF. The rows of MSTREAM and MACC (R118, R128 to R134), and O4.
-/
namespace Sys2Proof.Machine

open Sys2Proof.Claims

/-! ### Runs of bytes -/

@[simp] theorem length_leBytes (k n : Nat) : (leBytes k n).length = k := by
  induction k generalizing n with
  | zero => rfl
  | succ k ih => rw [leBytes, List.length_cons, ih]

/-- Part `n` of parts of equal length. -/
theorem take_drop_flatMap {α β : Type} {f : α → List β} {c : Nat} (hf : ∀ x, (f x).length = c) {l : List α} {n : Nat}
    (hn : n < l.length) : ((l.flatMap f).drop (c * n)).take c = f l[n] := by
  induction l generalizing n with
  | nil => exact absurd hn (Nat.not_lt_zero n)
  | cons x l ih =>
    cases n with
    | zero => simp [List.take_left' (hf x)]
    | succ n =>
      rw [Nat.mul_succ, Nat.add_comm, ← List.drop_drop, List.flatMap_cons, List.drop_left' (hf x), ih (Nat.lt_of_succ_lt_succ hn),
        List.getElem_cons_succ]

/-- A part of what was written reads as that part. -/
theorem readBytes_writeBytes_part (m : List Host.Cell) (a : Nat) (l : List Byte) {i n : Nat} (h : i + n ≤ l.length) :
    readBytes (writeBytes m a l) (a + i) n = (l.drop i).take n := by
  apply List.ext_getElem
  · simp [readBytes]
    omega
  · intro x hx hx'
    have hlt : x < n := by simpa [readBytes] using hx
    have hin : i + x < l.length := by omega
    simp only [readBytes, List.getElem_map, List.getElem_range, Nat.add_assoc, readByte_writeBytes_inside m a l (i + x) hin,
      List.getElem_take, List.getElem_drop, List.getElem?_eq_getElem hin, Option.getD_some]

theorem readBytes_clearBytes_outside (m : List Host.Cell) {a len b n : Nat} (h : a + len ≤ b) :
    readBytes (clearBytes m a len) b n = readBytes m b n :=
  List.map_congr_left fun i _ => readByte_clearBytes_outside m a len (b + i) (.inr (by omega))

/-! ### What a row writes (R118, R129, R131, R134) -/

/-- The address of the output row of stream row `j` (R131). -/
def outputAddr (p : StreamOp) (macc : Bool) (j : Nat) : Nat := slotAddr (streamOut p macc j).1 + (streamOut p macc j).2 * 512

/-- Row `j` of a stream as the array receives it (R129). -/
def streamARow (k : Core) (p : StreamOp) (j : Nat) : ARow :=
  readARow k.bytes (streamRow p k.active.sparse j).1 p.afmt k.active.sparse (streamRow p k.active.sparse j).2

/-- The core's bytes with the output of row `j` in place. -/
def bytesWithRow (k : Core) (p : StreamOp) (macc : Bool) (j : Nat) : List Host.Cell :=
  writeBytes k.bytes (outputAddr p macc j) (outputRow k macc (streamARow k p j) (outputAddr p macc j))

@[simp] theorem setSlot_bytes (k : Core) (n : Nat) (v : SlotState) : (setSlot k n v).bytes = k.bytes := rfl
@[simp] theorem wroteSlot_bytes (k : Core) (n len : Nat) : (wroteSlot k n len).bytes = k.bytes := rfl
@[simp] theorem emptySlot_bytes (k : Core) (n : Nat) : (emptySlot k n).bytes = clearBytes k.bytes (slotAddr n) tileBytes := rfl

/-- A core without its slots: their states, descriptors and bytes. -/
def apartFromSlots (k : Core) : Core := { k with slots := [], descs := [], bytes := [] }

@[simp] theorem apartFromSlots_setSlot (k : Core) (n : Nat) (v : SlotState) : apartFromSlots (setSlot k n v) = apartFromSlots k := rfl
@[simp] theorem apartFromSlots_wroteSlot (k : Core) (n len : Nat) : apartFromSlots (wroteSlot k n len) = apartFromSlots k := rfl
@[simp] theorem apartFromSlots_emptySlot (k : Core) (n : Nat) : apartFromSlots (emptySlot k n) = apartFromSlots k := rfl
@[simp] theorem apartFromSlots_bytes (k : Core) (b : List Host.Cell) : apartFromSlots { k with bytes := b } = apartFromSlots k := rfl

/-- A row taken writes its output row, and with ACONS the last row of a tile empties the tile's slot (R130); it touches slots only. -/
theorem streamOne_done {k k' : Core} {p : StreamOp} {macc : Bool} {j steps st' : Nat} {zero z' : Bool}
    (h : streamOne k p macc j steps zero = .done k' st' z') :
    (k'.bytes = if p.acons && (streamRow p k.active.sparse j).2 + 1 == rowsPerTile p.afmt k.active.sparse
      then clearBytes (bytesWithRow k p macc j) (slotAddr (streamRow p k.active.sparse j).1) tileBytes else bytesWithRow k p macc j)
      ∧ apartFromSlots k' = apartFromSlots k := by
  unfold streamOne at h
  dsimp only at h
  split at h
  · cases h
  · cases h
  · split at h <;> cases h
    constructor
    · simp only [apply_ite Core.bytes, setSlot_bytes, wroteSlot_bytes, emptySlot_bytes, ite_self]
      rfl
    · simp only [apply_ite apartFromSlots, apartFromSlots_setSlot, apartFromSlots_wroteSlot, apartFromSlots_emptySlot,
        apartFromSlots_bytes, ite_self]

theorem streamRows_apartFromSlots (p : StreamOp) (macc : Bool) (n : Nat) (k : Core) (j steps : Nat) (zero : Bool) :
    apartFromSlots (streamRows p macc n k j steps zero).2.1 = apartFromSlots k := by
  induction n generalizing k j steps zero with
  | zero => rfl
  | succ n ih =>
    unfold streamRows
    split
    · rfl
    · rfl
    next k' _ _ hone => exact (ih ..).trans (streamOne_done hone).2

theorem streamRows_leaves {p : StreamOp} {macc : Bool} {n j j' steps steps' : Nat} {k k' : Core} {zero zero' : Bool} {stop : Option Nat}
    (h : streamRows p macc n k j steps zero = (stop, k', j', steps', zero')) : apartFromSlots k' = apartFromSlots k := by
  have hkept := streamRows_apartFromSlots p macc n k j steps zero
  rwa [h] at hkept

theorem length_outputRow (k : Core) (macc : Bool) (r : ARow) (a : Nat) : (outputRow k macc r a).length = 512 := by
  simp only [outputRow, List.length_flatMap, length_leBytes, List.map_const', List.sum_replicate_nat, List.length_range]

/-- Word `n` of an output row. -/
theorem outputRow_word (k : Core) (macc : Bool) (r : ARow) (a : Nat) {n : Nat} (hn : n < 128) :
    ((outputRow k macc r a).drop (4 * n)).take 4
      = leBytes 4 (if n < outColumns k.active.fmt then
          columnResult k.active r n (if macc then BitVec.ofNat 32 (readNat k.bytes (a + 4 * n) 4) else 0#32)
        else if macc then BitVec.ofNat 32 (readNat k.bytes (a + 4 * n) 4) else 0#32).toNat := by
  unfold outputRow
  rw [take_drop_flatMap (fun _ => length_leBytes 4 _) (by rwa [List.length_range]), List.getElem_range]

/-- The accumulator slots lie behind the T0 slots, so emptying a T0 slot leaves an output row alone. -/
theorem t0Slot_before_output (p : StreamOp) (macc : Bool) (j : Nat) {slot : Nat} (h : slot < 192) :
    slotAddr slot + tileBytes ≤ outputAddr p macc j := by
  have hos : 192 ≤ (streamOut p macc j).1 := by simp only [streamOut]; omega
  simp only [outputAddr, slotAddr, tileBytes]
  omega

theorem streamRow_writesItsSums : streamRowWritesItsSums := by
  intro k k' p macc j steps st' zero z' n h hn hslot
  have hword : readBytes (bytesWithRow k p macc j) (outputAddr p macc j + 4 * n) 4
      = ((outputRow k macc (streamARow k p j) (outputAddr p macc j)).drop (4 * n)).take 4 :=
    readBytes_writeBytes_part _ _ _ (by rw [length_outputRow]; omega)
  have hafter : readBytes k'.bytes (outputAddr p macc j + 4 * n) 4
      = readBytes (bytesWithRow k p macc j) (outputAddr p macc j + 4 * n) 4 := by
    have hbefore := t0Slot_before_output p macc j hslot
    rw [(streamOne_done h).1]
    split
    · exact readBytes_clearBytes_outside _ (by omega)
    · rfl
  exact hafter.trans (hword.trans (outputRow_word k macc _ _ hn))

/-! ### Streams that nothing holds (R128, R134) -/

/-- R128: a load-behind whose slots are FULL begins with the first row while no other load runs. -/
theorem loadBehind_begins {k : Core} {p : StreamOp} (h : p.lben = true → allFull k (loadSlots p.lb) ∧ k.shadow.state ≠ .loading) :
    loadBehind k p false = (.pass, { k with shadow := if p.lben then loadPlane k p.lb else k.shadow }, p.lben) := by
  cases hl : p.lben with
  | false => simp [loadBehind, hl]
  | true =>
    obtain ⟨hfull, hshadow⟩ := h hl
    simp [loadBehind, hl, readGate_allFull hfull, hshadow]

/-- A stream whose rows are all taken: its record, with `steps` steps of the array. -/
def streamedFlight (f : Flight) (sparse : Bool) (steps : Nat) (zero : Bool) : Flight :=
  { f with
    started := true
    reads := streamReads (streamOp f.word.o) sparse (streamOp f.word.o).rows (streamOp f.word.o).lben
    cycles := steps + 40
    work := .stream (streamOp f.word.o).rows steps zero (streamOp f.word.o).lben }

theorem streamGo_allRows {k k1 k2 : Core} {f : Flight} {steps steps1 steps2 : Nat} {zero zero1 zero2 : Bool}
    (h1 : streamRows (streamOp f.word.o) (f.word.opcode == 4) 1 k 0 steps zero = (none, k1, 1, steps1, zero1))
    (hl : (streamOp f.word.o).lben = true → allFull k1 (loadSlots (streamOp f.word.o).lb) ∧ k1.shadow.state ≠ .loading)
    (h2 : streamRows (streamOp f.word.o) (f.word.opcode == 4) ((streamOp f.word.o).rows - 1)
        { k1 with shadow := if (streamOp f.word.o).lben then loadPlane k1 (streamOp f.word.o).lb else k1.shadow } 1 steps1 zero1
      = (none, k2, (streamOp f.word.o).rows, steps2, zero2)) :
    streamGo k f 0 steps zero false = .go (closeLoad k2 (streamOp f.word.o) (streamOp f.word.o).rows (streamOp f.word.o).lben)
      (streamedFlight f k.active.sparse steps2 zero2) := by
  simp [streamGo, h1, loadBehind_begins hl, h2, streamedFlight]

/-- A stream meets the array when the active plane is LOADED and the formats agree (R109, R136). -/
theorem mBegin_stream {k : Core} {f : Flight} (hop : f.word.opcode ≠ 1 ∧ f.word.opcode ≠ 2) (hs : k.active.state = .loaded)
    (hp : pairOk k.active.fmt (streamOp f.word.o).afmt = true)
    (hr : (streamOp f.word.o).arow < rowsPerTile (streamOp f.word.o).afmt k.active.sparse) :
    mBegin k f = streamGo { k with arrayOn := true } { f with rel := streamRel (streamOp f.word.o) k.active.sparse } 0
      (if k.arrayOn then 0 else 48) true false := by
  simp [mBegin, hop.1, hop.2, hs, hp, Nat.not_le.mpr hr]

theorem closeLoad_run (k : Core) (p : StreamOp) (j : Nat) (b : Bool) : (closeLoad k p j b).run = k.run := by
  unfold closeLoad; split <;> rfl

theorem closeLoad_flights (k : Core) (p : StreamOp) (j : Nat) (b : Bool) : (closeLoad k p j b).flights = k.flights := by
  unfold closeLoad; split <;> rfl

theorem mStepping_streamedFlight (f : Flight) (sparse : Bool) (steps : Nat) (zero : Bool) :
    mStepping (streamedFlight f sparse steps zero) = false := by
  simp [mStepping, streamedFlight]

theorem stream_runs {mk : CoreId → Hdr → BitVec 88 → Instr} {op : Nat}
    (hexec : ∀ core h o s, exec (mk core h o) s = .next (presentAt core engM op h o s)) (hop : op ≠ 1 ∧ op ≠ 2) : streamRuns mk op := by
  intro s core h o r k1 k2 steps1 steps2 zero1 zero2 hi hc hs hp hr h1 hl h2
  have hleft2 := streamRows_leaves h2
  have hleft1 := streamRows_leaves h1
  have hrun : k2.run = some (stepPc r ⟨0, op, h, o⟩) := (congrArg Core.run hleft2).trans (congrArg Core.run hleft1)
  have hflights : k2.flights = [flightOf (coreOf s core.toNat) r ⟨0, op, h, o⟩] :=
    (congrArg Core.flights hleft2).trans (congrArg Core.flights hleft1)
  have hactive : k2.active = (coreOf s core.toNat).active :=
    (congrArg Core.active hleft2).trans ((congrArg Core.active hleft1).trans (issued_active (coreOf s core.toNat) r ⟨0, op, h, o⟩))
  have hscalars : k2.scalars = (coreOf s core.toNat).scalars :=
    (congrArg Core.scalars hleft2).trans ((congrArg Core.scalars hleft1).trans (issued_scalars (coreOf s core.toNat) r ⟨0, op, h, o⟩))
  rw [← issuedFlight_active (coreOf s core.toNat) r ⟨0, op, h, o⟩] at hs hp hr
  rw [← issuedFlight_arrayOn (coreOf s core.toNat) r ⟨0, op, h, o⟩] at h1
  have hbegin := (mBegin_stream (f := flightOf (coreOf s core.toNat) r ⟨0, op, h, o⟩) hop hs hp hr).trans (streamGo_allRows h1 hl h2)
  have hstarts := matrix_starts hi hc hbegin ((closeLoad_run ..).trans hrun) ((closeLoad_flights ..).trans hflights) rfl
    (runs_matrix rfl rfl (.inr ⟨_, _, _, _, rfl⟩) (mStepping_streamedFlight ..))
  exact ⟨_, (hexec core h o s).trans (congrArg Host.Outcome.next hstarts), rfl, rfl, rfl, rfl, rfl, hrun, hactive, hscalars⟩

theorem streams_takeTheirRows : streamsTakeTheirRows :=
  ⟨stream_runs (fun _ _ _ _ => rfl) (by decide), stream_runs (fun _ _ _ _ => rfl) (by decide)⟩

/-- Settles O4: a stream that nothing holds runs through all its rows, and each row writes the sums of its columns. -/
theorem streamsRunAndSum : Obligations.StreamsRunAndSum := by
  unfold Obligations.StreamsRunAndSum
  exact ⟨streams_takeTheirRows, streamRow_writesItsSums⟩

end Sys2Proof.Machine
end

section
/-!
PROOF. The table subfunctions of CONFIG (R191, R197, R200, R204), and O23.
-/
namespace Sys2Proof.Machine

open Sys2Proof.Claims

/-- A table subfunction accepted, with its claim on the tables, and the peers of a set told (R204). -/
def tableAccepted (s : State) (h : MsgHead) (c : Ctx) (i : Instr) (tabs : Tables) : State :=
  tellPeers (acceptReq { s with tabs := tabs } h c opConfig none none (.table i [])) 3 ⟨h.func, h.rid⟩

/-- An accepted table subfunction adds its request and its claim, and no change. -/
theorem tableAccepted_leaves (s : State) (h : MsgHead) (c : Ctx) (i : Instr) (tabs : Tables) :
    (tableAccepted s h c i tabs).reqs = s.reqs ++ [newReq s h c 0x0D none none (.table i [])]
      ∧ (tableAccepted s h c i tabs).changes = s.changes ∧ (tableAccepted s h c i tabs).tabs = tabs
      ∧ (tableAccepted s h c i tabs).media = s.media ∧ (tableAccepted s h c i tabs).chip = s.chip :=
  ⟨tellPeers_reqs .., tellPeers_changes .., tellPeers_tabs .., tellPeers_media .., tellPeers_chip ..⟩

section
variable {s : State} {h : MsgHead} {c : Ctx} {form : Bool} {busy : Option Nat} {claim : State → State} {tabs : Tables}
  (hrole : tableRole s c.sess = true) (hform : form = true) (hbusy : busy = none) (hclaim : claim s = { s with tabs := tabs })
include hrole hform hbusy hclaim

/-- A replacement that passes its checks is accepted; its change comes with its commit (R200). -/
theorem tableGo_replace (h' : MsgHead) (table code width rows : Nat) : tableGo s h c (.tableReplace h' table code width rows) form busy claim
    = tableAccepted s h c (.tableReplace h' table code width rows) tabs := by
  simp [tableGo, tableAccepted, hrole, hform, hbusy, hclaim]

/-- Every other table subfunction that passes its checks is accepted for the next boundary (`hi` takes the match past its first case). -/
theorem tableGo_waits {i : Instr} (hi : ∀ h' table code width rows, i ≠ .tableReplace h' table code width rows) :
    tableGo s h c i form busy claim = addChange (tableAccepted s h c i tabs) (.request ⟨h.func, h.rid⟩) := by
  simp only [tableGo, tableAccepted, hrole, hform, hbusy, hclaim, Bool.not_true, Bool.false_eq_true, if_false]

end

section
variable {s s' : State} {h : MsgHead} {c : Ctx} (ht : taken s h 0x0D .opened false s' c)
include ht

/-- A subfunction that waits for the next boundary: its request, its claim and its change. -/
theorem table_isAccepted {i : Instr} {go : State → Ctx → State} {tabs : Tables}
    (hexec : exec i s = .next (message s h opConfig .opened false go))
    (hgo : go s' c = addChange (tableAccepted s' h c i tabs) (.request ⟨h.func, h.rid⟩)) :
    ∃ t, exec i s = .next t ∧ t.reqs = s'.reqs ++ [newReq s' h c 0x0D none none (.table i [])]
      ∧ t.changes = s'.changes ++ [.request ⟨h.func, h.rid⟩] ∧ t.tabs = tabs ∧ t.media = s'.media ∧ t.chip = s'.chip := by
  obtain ⟨hreqs, hchanges, htabs, hmedia, hchip⟩ := tableAccepted_leaves s' h c i tabs
  refine ⟨_, hexec.trans (congrArg Host.Outcome.next ((message_of_taken ht go).trans hgo)), hreqs, ?_, htabs, hmedia, hchip⟩
  rw [addChange_changes, hchanges]

variable (hrole : tableRole s' c.sess = true)
include hrole

theorem tableUpdate_isAccepted (table : Nat) (rows : List RowRecord) (hform : updateForm s' h table rows = true)
    (hroom : s'.tabs.stepRows + rows.length ≤ 4096) :
    ∃ t, exec (.tableUpdate h table rows) s = .next t
      ∧ t.reqs = s'.reqs ++ [newReq s' h c 0x0D none none (.table (.tableUpdate h table rows) [])]
      ∧ t.changes = s'.changes ++ [.request ⟨h.func, h.rid⟩] ∧ t.tabs = { s'.tabs with stepRows := s'.tabs.stepRows + rows.length }
      ∧ t.media = s'.media ∧ t.chip = s'.chip :=
  table_isAccepted ht rfl (tableGo_waits hrole hform (if_neg (Nat.not_lt.mpr hroom)) rfl nofun)

theorem tableReplace_isAccepted (table code width rows : Nat) (hform : replaceForm s' h table code width rows = true)
    (hfree : replaceBusy s' table = false) :
    ∃ t, exec (.tableReplace h table code width rows) s = .next t
      ∧ t.reqs = s'.reqs ++ [newReq s' h c 0x0D none none (.table (.tableReplace h table code width rows) [])]
      ∧ t.changes = s'.changes
      ∧ t.tabs = { s'.tabs with replaces :=
          s'.tabs.replaces ++ [⟨⟨h.func, h.rid⟩, table, code, width, rows, 0, tableBytes rows width code, none⟩] }
      ∧ t.media = s'.media ∧ t.chip = s'.chip :=
  ⟨_, congrArg Host.Outcome.next ((message_of_taken ht _).trans
    (tableGo_replace hrole hform (if_neg (Bool.eq_false_iff.mp hfree)) rfl h table code width rows)), tableAccepted_leaves ..⟩

theorem hotPin_isAccepted (table : Nat) (rows : List Nat) (hform : pinForm s' h table rows true = true) :
    ∃ t, exec (.hotPin h table rows) s = .next t ∧ t.reqs = s'.reqs ++ [newReq s' h c 0x0D none none (.table (.hotPin h table rows) [])]
      ∧ t.changes = s'.changes ++ [.request ⟨h.func, h.rid⟩] ∧ t.tabs = s'.tabs ∧ t.media = s'.media ∧ t.chip = s'.chip :=
  table_isAccepted ht rfl (tableGo_waits hrole hform rfl rfl nofun)

theorem hotUnpin_isAccepted (table : Nat) (rows : List Nat) (hform : pinForm s' h table rows false = true) :
    ∃ t, exec (.hotUnpin h table rows) s = .next t
      ∧ t.reqs = s'.reqs ++ [newReq s' h c 0x0D none none (.table (.hotUnpin h table rows) [])]
      ∧ t.changes = s'.changes ++ [.request ⟨h.func, h.rid⟩] ∧ t.tabs = s'.tabs ∧ t.media = s'.media ∧ t.chip = s'.chip :=
  table_isAccepted ht rfl (tableGo_waits hrole hform rfl rfl nofun)

end

/-- Settles O23: a table subfunction that is taken and passes its checks is accepted with its claim, and all but a replacement wait for the
next boundary. -/
theorem tableConfigsAreAccepted : Obligations.TableConfigsAreAccepted := by
  unfold Obligations.TableConfigsAreAccepted
  intro h s s' c ht hrole
  exact ⟨tableUpdate_isAccepted ht hrole, tableReplace_isAccepted ht hrole, hotPin_isAccepted ht hrole, hotUnpin_isAccepted ht hrole⟩

end Sys2Proof.Machine
end

section
/-!
PROOF. Hot rows (R190 to R196): the first promotion, the end of a copy, and O43.
-/
namespace Sys2Proof.Machine

open Sys2Proof.Claims

/-! ### Samples of one row (R192) -/

/-- Copies of one value leave one. -/
theorem eraseDups_replicate {α : Type} [BEq α] [LawfulBEq α] (x : α) {n : Nat} (hn : 0 < n) : (List.replicate n x).eraseDups = [x] := by
  obtain ⟨k, rfl⟩ := Nat.exists_eq_add_one_of_ne_zero (Nat.ne_of_gt hn)
  rw [List.replicate_succ, List.eraseDups_cons, List.filter_eq_nil_iff.mpr]
  · simp
  · intro y hy
    simp [List.eq_of_mem_replicate hy]

/-- Samples that all name one row rank that row alone, with all of them. -/
theorem rankedRows_single {l : List (Nat × Nat)} {home : Nat} (hne : 0 < l.length) (hl : ∀ x ∈ l, x.2 = home) :
    rankedRows l = [(home, l.length)] := by
  have hhomes : l.map (·.2) = List.replicate l.length home :=
    List.eq_replicate_iff.mpr ⟨List.length_map .., fun y hy => by
      obtain ⟨x, hx, rfl⟩ := List.mem_map.mp hy
      exact hl x hx⟩
  have hcount : sampleCount l home = l.length := by
    rw [sampleCount, List.filter_eq_self.mpr fun x hx => by simp [hl x hx]]
  simp [rankedRows, hhomes, eraseDups_replicate home hne, hcount, insertRow]

/-! ### An empty directory -/

section
variable {s : State} (hhot : s.tabs.hot = [])
include hhot

theorem hotList_empty : hotList s = [] := by rw [hotList, hhot]; rfl

theorem hotAt_empty (home : Nat) : hotAt s home = none := by rw [hotAt, hhot]; rfl

theorem reclaim_empty (hwaits : s.tabs.waits = []) : reclaim s = s := by
  rw [reclaim, purgeCleared, hotList_empty hhot, promoteWaiting]
  simp only [List.foldl_nil, hwaits]

theorem freeOffset_empty {n : Nat} (hn : n ≤ 2 ^ 27) : freeOffset s n = some 0 := by
  have hfits : n ≤ areaSize := hn
  simp [freeOffset, hotList_empty hhot, hfits]

theorem dirFull_empty {stride : Nat} (hst : rowSpace stride ≤ 2 ^ 27) : dirFull s stride = false := by
  simp [dirFull, hhot, freeOffset_empty hhot hst]

end

/-! ### Locks and copies of an entry (R195) -/

/-- The entry of a row just promoted, before its first copy asks for the lock. -/
def newRow (s : State) (stride offset share : Nat) (pinned : Bool) : HotRow :=
  ⟨stride, offset, pinned, s.sched.admits, [], share, 0, List.replicate 12 .absent, [], false, []⟩

/-- Where no channel is out of service, the first copy of a new entry is into stack 0. -/
theorem nextCopy_newRow {s : State} (hc : ∀ c, channelGone s c = false) (stride offset share : Nat) (pinned : Bool) :
    nextCopy s (newRow s stride offset share pinned)
      = { newRow s stride offset share pinned with repl := .copying :: List.replicate 11 .absent, lock := [.copy 0] } := by
  have husable : ∀ k, replicaUsable s (newRow s stride offset share pinned) k = true := fun k => by simp [replicaUsable, hc]
  have hfirst : (List.range 12).find? (fun k => (newRow s stride offset share pinned).repl[k]? == some .absent
      && replicaUsable s (newRow s stride offset share pinned) k) = some 0 :=
    List.find?_cons_of_pos (by rw [husable]; rfl)
  unfold nextCopy
  rw [hfirst]
  rfl

/-- R192: a row promoted into an empty directory is being copied into stack 0; an update that asked before waits behind that copy. -/
theorem promote_empty {s : State} (hhot : s.tabs.hot = []) (hc : ∀ c, channelGone s c = false) {stride : Nat}
    (hst : rowSpace stride ≤ 2 ^ 27) (home share : Nat) (pinned : Bool) :
    ∃ lock, promote s home stride share pinned = putHot s home (some
      { newRow s stride 0 share pinned with repl := .copying :: List.replicate 11 .absent, lock := lock }) := by
  have hcopy := nextCopy_newRow hc stride 0 share pinned
  refine ⟨if updateWaits s home then [.copy 0, .update] else [.copy 0], ?_⟩
  unfold newRow at hcopy
  simp only [promote, hotAt_empty hhot, dirFull_empty hhot hst, freeOffset_empty hhot hst, hcopy]
  cases updateWaits s home <;> rfl

/-- A lock granted to a copy touches that copy's replica only. -/
theorem grantLock_cases (e : HotRow) :
    ∃ r, grantLock e = { e with repl := r } ∧ ∀ k, .copy k ∉ e.lock → r[k]? = e.repl[k]? := by
  unfold grantLock
  split
  next j l hl =>
    refine ⟨_, rfl, fun k hk => List.getElem?_set_ne fun hjk => hk ?_⟩
    rw [hl, hjk]
    exact List.mem_cons_self
  · exact ⟨_, rfl, fun _ _ => rfl⟩

/-- A copy that asks for the lock is of a replica that is ABSENT: a VALID one that no copy waits for stays VALID. -/
theorem nextCopy_cases (s : State) (e : HotRow) :
    ∃ r l, nextCopy s e = { e with repl := r, lock := l } ∧ ∀ k, e.repl[k]? = some .valid → .copy k ∉ e.lock → r[k]? = some .valid := by
  unfold nextCopy
  split
  · exact ⟨_, _, rfl, fun _ h _ => h⟩
  · split
    next j hj =>
      obtain ⟨r, hr, hkeep⟩ := grantLock_cases { e with lock := e.lock ++ [.copy j] }
      refine ⟨r, _, hr, fun k hv hk => (hkeep k ?_).trans hv⟩
      have habsent := List.find?_some hj
      intro hmem
      rcases List.mem_append.mp hmem with hmem | hmem
      · exact hk hmem
      · obtain rfl : k = j := by simpa using hmem
        simp [hv] at habsent
    · exact ⟨_, _, rfl, fun _ h _ => h⟩

/-! ### The first promotion -/

/-- The state with the samples of the last second, and no candidate waiting for space. -/
def windowed (s : State) : State := { s with tabs := { s.tabs with samples := windowSamples s, waits := [] } }

/-- Samples of the last second that all name one row promote that row. -/
theorem rankRows_single {s : State} {home st : Nat} (hhot : s.tabs.hot = []) (hall : ∀ x ∈ s.tabs.samples, x.2 = home)
    (hfresh : ∃ x ∈ s.tabs.samples, s.time < x.1 + 1000000) (hst : strideAt s home = some st) (hfits : rowSpace st ≤ 2 ^ 27) :
    rankRows s = promote (windowed s) home st (windowSamples s).length false := by
  have hpos : 0 < (windowSamples s).length := by
    obtain ⟨x, hx, hlt⟩ := hfresh
    exact List.length_pos_of_mem (List.mem_filter.mpr ⟨hx, decide_eq_true hlt⟩)
  have hranked : rankedRows (windowSamples s) = [(home, (windowSamples s).length)] :=
    rankedRows_single hpos fun x hx => hall x (List.mem_filter.mp hx).1
  have hshare : (windowSamples s).length ≤ (windowSamples s).length * 1536 := Nat.le_mul_of_pos_right _ (by decide)
  have hempty : (windowed s).tabs.hot = [] := hhot
  have hstride : strideAt (windowed s) home = some st := hst
  have hrank : rankRows s = promoteRow (windowed s) (home, (windowSamples s).length) := by
    change List.foldl _ (List.foldl _ (reclaim (windowed s)) (hotList (reclaim (windowed s)))) (rankedRows (windowSamples s)) = _
    rw [reclaim_empty hempty rfl, hotList_empty hempty, hranked]
    simp [hshare, hpos]
  rw [hrank]
  simp [promoteRow, hstride, hotAt_empty hempty, dirFull_empty hempty hfits]

/-- R192: the one row of all the samples is promoted. -/
theorem hotRowRank_promotes (s : State) (home st : Nat) (hhot : s.tabs.hot = []) (hall : ∀ x ∈ s.tabs.samples, x.2 = home)
    (hfresh : ∃ x ∈ s.tabs.samples, s.time < x.1 + 1000000) (hst : strideAt s home = some st) (hfits : rowSpace st ≤ 2 ^ 27)
    (hc : ∀ c, channelGone s c = false) :
    ∃ t e, exec .hotRowRank s = .next t ∧ hotAt t home = some e ∧ e.stride = st ∧ e.pinned = false ∧ e.repl.length = 12
      ∧ e.repl[0]? = some .copying ∧ (∀ k, 0 < k → k < 12 → e.repl[k]? = some .absent) ∧ (∀ h, h ≠ home → hotAt t h = none)
      ∧ t.media = s.media ∧ t.tabs.versions = s.tabs.versions ∧ t.reqs = s.reqs := by
  obtain ⟨lock, hpromote⟩ := promote_empty (s := windowed s) hhot hc hfits home (windowSamples s).length false
  refine ⟨_, _, congrArg Host.Outcome.next ((rankRows_single hhot hall hfresh hst hfits).trans hpromote), hotAt_putHot_same .., rfl, rfl, rfl,
    rfl, ?_, ?_, rfl, rfl, rfl⟩
  · rintro (_ | k) hk hlt
    · exact absurd hk (Nat.lt_irrefl 0)
    · exact List.getElem?_replicate_of_lt (Nat.lt_of_succ_lt_succ hlt)
  · exact fun x hx => (hotAt_putHot_other _ _ _ _ hx).trans (hotAt_empty hhot x)

/-! ### The end of a copy (R195) -/

theorem length_devBytes (s : State) (a n : Nat) : (devBytes s a n).length = n := by
  rw [devBytes, readBytes, List.length_map, List.length_range]

/-- The bytes of a row in the replica that its copy writes. -/
def copyWritten (s : State) (home stack : Nat) (e : HotRow) : State :=
  setDevBytes s (writeBytes s.media.bytes (replicaBase stack + e.offset) (devBytes s home e.stride))

section
variable {s : State} {home stack : Nat} {e : HotRow}

theorem copyWritten_holds : readBytes (copyWritten s home stack e).media.bytes (replicaBase stack + e.offset) e.stride
    = readBytes s.media.bytes home e.stride := by
  have hread := readBytes_writeBytes s.media.bytes (replicaBase stack + e.offset) (devBytes s home e.stride)
  rwa [length_devBytes] at hread

theorem copyWritten_sameOutside :
    sameOutside s.media.bytes (copyWritten s home stack e).media.bytes (replicaBase stack + e.offset) e.stride :=
  fun x hx => readByte_writeBytes_outside _ _ _ x (by rwa [length_devBytes])

variable (hlock : .copy stack ∉ e.lock.tail) (hcopy : e.repl[stack]? = some .copying)
include hcopy

theorem replicaCopyDone_next (he : hotAt s home = some e) (hhead : e.lock.head? = some (.copy stack)) :
    exec (.replicaCopyDone home stack) s = .next (replicaDone s home stack e) := by
  change execReplicaCopyDone home stack s = _
  simp [execReplicaCopyDone, he, hhead, hcopy]

include hlock

/-- The replica just copied stays VALID whoever takes the lock next. -/
theorem nextCopy_copied (t : State) :
    ∃ r l, nextCopy t (grantLock { e with repl := e.repl.set stack .valid, lock := e.lock.drop 1 }) = { e with repl := r, lock := l }
      ∧ r[stack]? = some .valid := by
  have hdrop : .copy stack ∉ e.lock.drop 1 := by rwa [List.drop_one]
  have hset : (e.repl.set stack .valid)[stack]? = some .valid := by
    rw [List.getElem?_set_self (List.getElem?_eq_some_iff.mp hcopy).1]
  obtain ⟨r, hr, hkeep⟩ := grantLock_cases { e with repl := e.repl.set stack .valid, lock := e.lock.drop 1 }
  obtain ⟨r', l, hnext, hvalid⟩ := nextCopy_cases t { e with repl := r, lock := e.lock.drop 1 }
  exact ⟨r', l, by rw [hr]; exact hnext, hvalid stack ((hkeep stack hdrop).trans hset) hdrop⟩

/-- A copy that ends on a row that stays writes its replica and marks it VALID. -/
theorem replicaDone_stays (hstays : e.leaving = false) :
    ∃ r l, replicaDone s home stack e = putHot (copyWritten s home stack e) home (some { e with repl := r, lock := l })
      ∧ r[stack]? = some .valid := by
  obtain ⟨r, l, hentry, hvalid⟩ := nextCopy_copied hlock hcopy (copyWritten s home stack e)
  refine ⟨r, l, ?_, hvalid⟩
  rw [← hentry]
  simp only [replicaDone, copyWritten, hstays, Bool.false_eq_true, if_false]

end

/-- R195: the replica of a copy that has ended is VALID and holds the row's bytes. -/
theorem replicaCopyDone_copies (s : State) (home stack : Nat) (e : HotRow) (he : hotAt s home = some e)
    (hhead : e.lock.head? = some (.copy stack)) (hlock : .copy stack ∉ e.lock.tail) (hcopy : e.repl[stack]? = some .copying)
    (hstays : e.leaving = false) :
    ∃ t e', exec (.replicaCopyDone home stack) s = .next t ∧ hotAt t home = some e' ∧ e'.repl[stack]? = some .valid
      ∧ e'.offset = e.offset ∧ e'.stride = e.stride
      ∧ readBytes t.media.bytes (replicaBase stack + e.offset) e.stride = readBytes s.media.bytes home e.stride
      ∧ sameOutside s.media.bytes t.media.bytes (replicaBase stack + e.offset) e.stride
      ∧ (∀ h, h ≠ home → hotAt t h = hotAt s h) ∧ t.media.tiles = s.media.tiles ∧ t.reqs = s.reqs := by
  obtain ⟨r, l, hdone, hvalid⟩ := replicaDone_stays (s := s) (home := home) hlock hcopy hstays
  exact ⟨_, _, (replicaCopyDone_next hcopy he hhead).trans (congrArg Host.Outcome.next hdone), hotAt_putHot_same .., hvalid, rfl, rfl,
    copyWritten_holds, copyWritten_sameOutside, fun h hh => hotAt_putHot_other _ _ _ _ hh, rfl, rfl⟩

/-- Settles O43: one row's samples promote it into an empty directory, and a copy that ends leaves the row's bytes in a VALID replica. -/
theorem hotRowsAreCopied : Obligations.HotRowsAreCopied := by
  unfold Obligations.HotRowsAreCopied
  exact ⟨hotRowRank_promotes, replicaCopyDone_copies⟩

end Sys2Proof.Machine
end

section
/-!
PROOF. Table changes written: the end of an update's apply (R198), the commit of a replacement (R200), and O44.
-/
namespace Sys2Proof.Machine

open Sys2Proof.Claims

/-! ### Modules at rest -/

/-- A map over the values that keeps the default reads as that map of what was read. -/
theorem AMap.get_map_values {α : Type} {d : α} {f : α → α} (hf : f d = d) (m : AMap α) (x : Nat) :
    AMap.get d (m.map fun p => (p.1, f p.2)) x = f (AMap.get d m x) := by
  induction m with
  | nil => exact hf.symm
  | cons p r ih =>
    obtain ⟨k, v⟩ := p
    rw [List.map_cons, AMap.get_cons, AMap.get_cons, ih]
    split <;> rfl

/-- Dropping near-cache lines of a range leaves each core's unit and its instructions in execution. -/
theorem coreOf_dropRange (s : State) (a len n : Nat) :
    coreOf (dropRange s a len) n
      = { coreOf s n with near := (coreOf s n).near.filter (fun l => decide (64 * l.1 + 64 ≤ a) || decide (a + len ≤ 64 * l.1)) } :=
  AMap.get_map_values (f := fun k : Core =>
    { k with near := k.near.filter (fun l => decide (64 * l.1 + 64 ≤ a) || decide (a + len ≤ 64 * l.1)) }) rfl s.chip.cores n

theorem restAll_dropRange {s : State} (a len : Nat) (h : restAll s) : restAll (dropRange s a len) := by
  obtain ⟨hcores, hlocks⟩ := h
  refine ⟨fun n => ?_, hlocks⟩
  rw [coreOf_dropRange]
  exact hcores n

/-- A module whose cores are at rest stays at rest while updates leave the list of those applying. -/
theorem restAll_of_chip {s t : State} (hchip : t.chip = s.chip) (happlying : ∀ a ∈ t.tabs.applying, a ∈ s.tabs.applying)
    (h : restAll s) : restAll t := by
  obtain ⟨hcores, hlocks⟩ := h
  refine ⟨fun n => ?_, fun a ha => hlocks a (happlying a ha)⟩
  rw [coreOf, hchip]
  exact hcores n

/-! ### The end of an update's apply (R198) -/

/-- A row with no entry in the directory is written at its home only, and the near caches drop its lines. -/
theorem writeRow_cold {s : State} {v : TableVer} {r : RowRecord} (hcold : hotAt s (rowHome v r.index) = none) :
    writeRow s v r = dropRange (setDevBytes s (writeBytes s.media.bytes (rowHome v r.index) (rowImage r))) (rowHome v r.index) v.stride := by
  have hafter : hotAt (dropRange (setDevBytes s (writeBytes s.media.bytes (rowHome v r.index) (rowImage r))) (rowHome v r.index) v.stride)
      (rowHome v r.index) = none := hcold
  simp only [writeRow, hafter]

/-- The locks of an update's rows released. -/
def unlockRows (s : State) (a : Apply) : State :=
  match versionAt s a.table a.version with
  | some v => a.rows.foldl (fun s r => unlockRow s v r) s
  | none => s

/-- Released locks change the directory only. -/
theorem unlockRows_part {α : Type} (f : State → α) (hhot : ∀ s home e, f (putHot s home e) = f s) (s : State) (a : Apply) :
    f (unlockRows s a) = f s := by
  unfold unlockRows
  split
  next v _ => exact foldl_keeps _ f (fun s r => unlockRow_part f hhot s v r) _ _
  · rfl

/-- An update that ends releases its locks, then completes its message. -/
theorem endApply_eq {s : State} {a : Apply} {q : Req} (hq : reqOf s a.req = some q) : endApply s a = configDone (unlockRows s a) q := by
  have hreq : reqOf (unlockRows s a) a.req = some q := (unlockRows_part (fun t => reqOf t a.req) (fun _ _ _ => rfl) s a).trans hq
  have hend : endApply s a = (reqOf (unlockRows s a) a.req).elim (unlockRows s a) (configDone (unlockRows s a)) := by
    unfold endApply
    change (match reqOf (unlockRows s a) a.req with | some q => _ | none => _) = _
    cases reqOf (unlockRows s a) a.req <;> rfl
  rw [hend, hreq, Option.elim_some]

/-- The versions with the rows of an update counted (R179). -/
def countedRows (l : List TableVer) (a : Apply) : List TableVer :=
  l.map fun x => if x.table == a.table && x.version == a.version then { x with updated := x.updated + a.rows.length } else x

/-- The state without the updates of a table, which are being written. -/
def applyTaken (s : State) (table : Nat) : State :=
  { s with tabs := { s.tabs with applying := s.tabs.applying.filter (fun a => a.table != table) } }

/-- An update of one row written: the row at its home, and counted. -/
def rowWritten (s : State) (a : Apply) (v : TableVer) (row : RowRecord) : State :=
  { dropRange (setDevBytes s (writeBytes s.media.bytes (rowHome v row.index) (rowImage row))) (rowHome v row.index) v.stride with
    tabs := { s.tabs with versions := countedRows s.tabs.versions a } }

/-- An update of one row that is not hot is written at its home. -/
theorem writeApply_cold {s : State} {a : Apply} {row : RowRecord} {v : TableVer} (hrows : a.rows = [row])
    (hv : versionAt s a.table a.version = some v) (hcold : hotAt s (rowHome v row.index) = none) :
    writeApply s a = rowWritten s a v row := by
  simp only [writeApply, hv, hrows, List.foldl_cons, List.foldl_nil, writeRow_cold hcold, rowWritten, countedRows]
  rfl

/-- The end of an update: its row written, its locks released, its message completed. -/
def applyEnded (s : State) (table : Nat) (a : Apply) (v : TableVer) (row : RowRecord) (q : Req) : State :=
  configDone (unlockRows (rowWritten (applyTaken s table) a v row) a) q

section
variable (s : State) (table : Nat) (a : Apply) (v : TableVer) (row : RowRecord) (q : Req)

/-- What neither the directory nor a completion touches stands, at the end of an update, as the written row leaves it. -/
theorem applyEnded_part {α : Type} (f : State → α) (hhot : ∀ s home e, f (putHot s home e) = f s)
    (hdone : ∀ s q e, f (completeReq s q e) = f s) : f (applyEnded s table a v row q) = f (rowWritten (applyTaken s table) a v row) :=
  (hdone ..).trans (unlockRows_part f hhot ..)

theorem applyEnded_media : (applyEnded s table a v row q).media = (rowWritten (applyTaken s table) a v row).media :=
  applyEnded_part s table a v row q State.media (fun _ _ _ => rfl) completeReq_media

theorem applyEnded_applying : (applyEnded s table a v row q).tabs.applying = s.tabs.applying.filter (fun a => a.table != table) :=
  applyEnded_part s table a v row q (fun t => t.tabs.applying) (fun _ _ _ => rfl) fun _ _ _ => by rw [completeReq_tabs]

theorem applyEnded_versions : (applyEnded s table a v row q).tabs.versions = countedRows s.tabs.versions a :=
  applyEnded_part s table a v row q (fun t => t.tabs.versions) (fun _ _ _ => rfl) fun _ _ _ => by rw [completeReq_tabs]

theorem restAll_applyEnded (h : restAll s) : restAll (applyEnded s table a v row q) := by
  refine restAll_of_chip (s := dropRange s (rowHome v row.index) v.stride) ?_ (fun b hb => ?_) (restAll_dropRange _ _ h)
  · exact applyEnded_part s table a v row q State.chip (fun _ _ _ => rfl) completeReq_chip
  · rw [applyEnded_applying] at hb
    exact (List.mem_filter.mp hb).1

end

/-- R198: on a module at rest the end of an apply writes its row and completes its message, and nothing else goes on. -/
theorem tableUpdateApplyEnd_next {s : State} {table : Nat} {a : Apply} {row : RowRecord} {v : TableVer} {q : Req}
    (happly : s.tabs.applying.filter (fun a => a.table == table) = [a]) (hrows : a.rows = [row]) (hready : applyReady s a = true)
    (hrest : restAll s) (hv : s.tabs.versions.find? (fun v => v.table == a.table && v.version == a.version) = some v)
    (hcold : hotAt s (rowHome v row.index) = none) (hq : reqOf s a.req = some q) :
    exec (.tableUpdateApplyEnd table) s = .next (applyEnded s table a v row q) := by
  have hwrite : writeApply (applyTaken s table) a = rowWritten (applyTaken s table) a v row := writeApply_cold hrows hv hcold
  have hend : endApply (rowWritten (applyTaken s table) a v row) a = applyEnded s table a v row q := endApply_eq hq
  have hgo : goAll (applyEnded s table a v row q) 0 = applyEnded s table a v row q :=
    goAll_rest _ 0 (restAll_applyEnded s table a v row q hrest)
  change execTableUpdateApplyEnd table s = _
  simp only [execTableUpdateApplyEnd, happly, List.isEmpty_cons, List.all_cons, List.all_nil, hready, Bool.and_true, Bool.not_true,
    Bool.or_false, Bool.false_eq_true, if_false, List.foldl_cons, List.foldl_nil]
  change Host.Outcome.next (goAll (endApply (writeApply (applyTaken s table) a) a) 0) = _
  rw [hwrite, hend, hgo]

theorem tableUpdateApplyEnd_writes (s : State) (table : Nat) (a : Apply) (row : RowRecord) (v : TableVer) (q : Req)
    (happly : s.tabs.applying.filter (fun a => a.table == table) = [a]) (hrows : a.rows = [row]) (hready : applyReady s a = true)
    (hrest : restAll s) (hv : s.tabs.versions.find? (fun v => v.table == a.table && v.version == a.version) = some v)
    (hcold : hotAt s (rowHome v row.index) = none) (hq : reqOf s a.req = some q) :
    ∃ t, exec (.tableUpdateApplyEnd table) s = .next t
      ∧ readBytes t.media.bytes (rowHome v row.index) (rowImage row).length = rowImage row
      ∧ sameOutside s.media.bytes t.media.bytes (rowHome v row.index) (rowImage row).length
      ∧ t.tabs.applying = s.tabs.applying.filter (fun a => a.table != table)
      ∧ t.tabs.versions = s.tabs.versions.map (fun x =>
          if x.table == a.table && x.version == a.version then { x with updated := x.updated + 1 } else x)
      ∧ (∀ x ∈ t.reqs, x.id ≠ a.req) ∧ t.media.tiles = s.media.tiles := by
  have hmedia := applyEnded_media s table a v row q
  have hversions := applyEnded_versions s table a v row q
  rw [countedRows, hrows] at hversions
  refine ⟨_, tableUpdateApplyEnd_next happly hrows hready hrest hv hcold hq, ?_, ?_, applyEnded_applying .., hversions, ?_, ?_⟩
  · rw [hmedia]
    exact readBytes_writeBytes ..
  · rw [hmedia]
    exact readByte_writeBytes_outside _ _ _
  · exact reqOf_id s a.req q hq ▸ completeReq_ends (unlockRows (rowWritten (applyTaken s table) a v row) a) q _
  · rw [hmedia]
    rfl

/-! ### What the directory's operations leave alone (R190, R196) -/

section
variable {α : Type} (f : State → α) (hhot : ∀ s home e, f (putHot s home e) = f s)
include hhot

/-- A pinned row that is replicated changes the directory and bytes of the replica areas. -/
theorem replicate_part (hbytes : ∀ s b, f (setDevBytes s b) = f s) (s : State) (v : TableVer) (n : Nat) : f (replicate s v n) = f s := by
  unfold replicate
  dsimp only
  split
  · rw [hhot, foldl_keeps _ f fun s k => hbytes s _]
  · rfl

variable (hnear : ∀ s a n, f (dropRange s a n) = f s)
include hnear

theorem purgeCleared_part (s : State) : f (purgeCleared s) = f s := by
  refine foldl_keeps _ f (fun s p => ?_) _ s
  split
  · rw [hhot, dropReplicas, foldl_keeps _ f fun s k => hnear s _ _]
  · rfl

theorem makeRoom_part (s : State) (stride : Nat) : f (makeRoom s stride) = f s := by
  unfold makeRoom
  split
  · split
    · rw [purgeCleared_part f hhot hnear, demote_part f hhot]
    · rfl
  · rfl

/-- Room for replicas changes the directory and the near caches. -/
theorem roomFor_part (s : State) (v : TableVer) : f (roomFor s v) = f s := by
  unfold roomFor
  rw [foldl_keeps _ f fun s n => ?_, purgeCleared_part f hhot hnear]
  split
  · rfl
  · exact makeRoom_part f hhot hnear s _

end

/-! ### The version that a replacement builds (R200 items 1 to 4) -/

/-- The rows of a replacement at their homes. -/
def withRows (s : State) (x : Replace) (rows : List RowRecord) (base : Nat) : State :=
  rows.foldl (fun s r => setDevBytes s (writeBytes s.media.bytes (rowAddr base (rowStride x.width x.code) r.index) (rowImage r))) s

theorem withRows_part {α : Type} (f : State → α) (hbytes : ∀ s b, f (setDevBytes s b) = f s) (s : State) (x : Replace)
    (rows : List RowRecord) (base : Nat) : f (withRows s x rows base) = f s :=
  foldl_keeps _ f (fun s _ => hbytes s _) rows s

/-- The tiles of a version, named by their descriptors. -/
def withTiles (s : State) (x : Replace) (base version : Nat) : State :=
  (List.range (x.bytes / tileBytes)).foldl (fun s i => setTile s (base / tileBytes + i) (tableTile x.table version i)) s

/-- A replacement is built in this order: rows, digest and tiles, room, replicas of the pinned rows. -/
theorem builtReplace_eq (s : State) (x : Replace) (rows : List RowRecord) (base : Nat) :
    builtReplace s x rows base
      = (let v := replaceVersion (withRows s x rows base) x base
         let t := withTiles (withRows s x rows base) x base v.version
         ((pinnedRows t v).foldl (fun s n => replicate s v n) (roomFor t v), v)) := rfl

/-- Of tiles set in turn, each holds its own descriptor. -/
theorem tileDesc_foldl_setTile (s : State) (base : Nat) (d : Nat → BitVec 512) {n i : Nat} (hi : i < n) :
    tileDesc ((List.range n).foldl (fun s i => setTile s (base + i) (d i)) s) (base + i) = d i := by
  induction n with
  | zero => exact absurd hi (Nat.not_lt_zero i)
  | succ n ih =>
    rw [List.range_succ, List.foldl_append, List.foldl_cons, List.foldl_nil]
    obtain rfl | hlt := Nat.eq_or_lt_of_le (Nat.lt_succ_iff.mp hi)
    · exact tileDesc_setTile_same ..
    · rw [tileDesc_setTile_other _ _ _ _ (by omega), ih hlt]

section
variable {s u : State} {x : Replace} {rows : List RowRecord} {base : Nat} {v : TableVer} (hb : builtReplace s x rows base = (u, v))
include hb

/-- R179: the version is the table's next, with the shape that the replacement asks for. -/
theorem built_version : v.table = x.table ∧ v.version = nextVersion s x.table ∧ v.base = base ∧ v.rows = x.rows ∧ v.width = x.width
    ∧ v.code = x.code := by
  obtain rfl : replaceVersion (withRows s x rows base) x base = v := congrArg Prod.snd hb
  exact ⟨rfl, withRows_part (fun t => nextVersion t x.table) (fun _ _ => rfl) s x rows base, rfl, rfl, rfl, rfl⟩

/-- What neither the directory, the near caches nor the bytes of T2 hold stands as the named tiles leave it. -/
theorem built_part {α : Type} (f : State → α) (hhot : ∀ s home e, f (putHot s home e) = f s) (hnear : ∀ s a n, f (dropRange s a n) = f s)
    (hbytes : ∀ s b, f (setDevBytes s b) = f s) : f u = f (withTiles (withRows s x rows base) x base v.version) := by
  rw [builtReplace_eq] at hb
  obtain ⟨hu, hv⟩ := Prod.mk.inj hb
  rw [← hu, ← hv, foldl_keeps _ f fun s n => replicate_part f hhot hbytes s _ n, roomFor_part f hhot hnear]

/-- What T2's tiles do not hold either stands as before. -/
theorem built_keeps {α : Type} (f : State → α) (hhot : ∀ s home e, f (putHot s home e) = f s) (hnear : ∀ s a n, f (dropRange s a n) = f s)
    (hbytes : ∀ s b, f (setDevBytes s b) = f s) (htile : ∀ s n d, f (setTile s n d) = f s) : f u = f s := by
  rw [built_part hb f hhot hnear hbytes, withTiles, foldl_keeps _ f fun s i => htile s _ _, withRows_part f hbytes]

theorem tileDesc_built {i : Nat} (hi : i < x.bytes / 16384) : tileDesc u (base / 16384 + i) = tableTile x.table v.version i := by
  rw [built_part hb (fun t => tileDesc t (base / 16384 + i)) (fun _ _ _ => rfl) (fun _ _ _ => rfl) (fun _ _ => rfl)]
  exact tileDesc_foldl_setTile _ _ _ hi

end

/-! ### The commit (R200 items 4 and 5) -/

/-- The replacement's version stands ready, and the peers are told (R204). -/
def committed (u : State) (x : Replace) (v : TableVer) (base : Nat) : State :=
  tellPeers { u with tabs := { u.tabs with replaces := u.tabs.replaces.map (fun y =>
    if y.req == x.req then { y with base := base, ready := some v } else y) } } 13 x.req

/-- What frames to peers and the list of replacements do not hold stands, after a commit, as the built version leaves it. -/
theorem committed_part {α : Type} (f : State → α) (htell : ∀ s n r, f (tellPeers s n r) = f s)
    (hreplaces : ∀ s l, f { s with tabs := { s.tabs with replaces := l } } = f s) (u : State) (x : Replace) (v : TableVer) (base : Nat) :
    f (committed u x v base) = f u := (htell ..).trans (hreplaces ..)

section
variable {s u : State} {r : ReqId} {rows : List RowRecord} {base : Nat} {x : Replace} {v : TableVer}
  (hx : s.tabs.replaces.find? (fun x => x.req == r) = some x) (hok : commitOk s x rows base = true)
  (hb : builtReplace s x rows base = (u, v))
include hx hok hb

/-- The commit comes once every pinned row of the version is replicated; until then room is made for them. -/
theorem tableReplaceCommit_next : exec (.tableReplaceCommit r rows base) s
    = .next (if replicated u v = true then addChange (committed u x v base) (.request x.req) else roomFor s v) := by
  change execTableReplaceCommit r rows base s = _
  simp only [execTableReplaceCommit, hx, hok, if_true, commitReplace, hb, committed]
  cases replicated u v <;> rfl

/-- R200: the version is built and named, its swap asked for, and the current version stays. -/
theorem tableReplaceCommit_commits (hrep : replicated u v = true) :
    ∃ t, exec (.tableReplaceCommit r rows base) s = .next t ∧ t.changes = s.changes ++ [.request r]
      ∧ (∀ y ∈ t.tabs.replaces, y.req = r → y.base = base ∧ y.ready = some v)
      ∧ v.table = x.table ∧ v.version = nextVersion s x.table ∧ v.base = base ∧ v.rows = x.rows ∧ v.width = x.width ∧ v.code = x.code
      ∧ (∀ i, i < x.bytes / 16384 → tileDesc t (base / 16384 + i) = tableTile x.table v.version i)
      ∧ t.tabs.versions = s.tabs.versions ∧ t.reqs = s.reqs := by
  have hreq : x.req = r := by simpa using List.find?_some hx
  obtain ⟨htable, hversion, hbase, hcount, hwidth, hcode⟩ := built_version hb
  refine ⟨_, (tableReplaceCommit_next hx hok hb).trans (congrArg Host.Outcome.next (if_pos hrep)), ?_, ?_, htable, hversion, hbase, hcount,
    hwidth, hcode, ?_, ?_, ?_⟩
  · rw [addChange_changes, hreq, committed_part State.changes tellPeers_changes (fun _ _ => rfl),
      built_keeps hb State.changes (fun _ _ _ => rfl) (fun _ _ _ => rfl) (fun _ _ => rfl) (fun _ _ _ => rfl)]
  · intro y hy hyr
    rw [addChange_tabs, committed, tellPeers_tabs] at hy
    obtain ⟨z, -, rfl⟩ := List.mem_map.mp hy
    by_cases hz : z.req = x.req
    · simp [hz]
    · simp only [beq_iff_eq, hz, if_false] at hyr
      exact absurd (hyr.trans hreq.symm) hz
  · intro i hi
    have htile := committed_part (fun t => tileDesc t (base / 16384 + i)) (fun s n r => by rw [tileDesc, tellPeers_media, tileDesc])
      (fun _ _ => rfl) u x v base
    exact htile.trans (tileDesc_built hb hi)
  · rw [addChange_tabs, committed_part (fun t => t.tabs.versions) (fun s n r => by rw [tellPeers_tabs]) (fun _ _ => rfl)]
    exact built_keeps hb (fun t => t.tabs.versions) (fun _ _ _ => rfl) (fun _ _ _ => rfl) (fun _ _ => rfl) (fun _ _ _ => rfl)
  · rw [addChange_reqs, committed_part State.reqs tellPeers_reqs (fun _ _ => rfl)]
    exact built_keeps hb State.reqs (fun _ _ _ => rfl) (fun _ _ _ => rfl) (fun _ _ => rfl) (fun _ _ _ => rfl)

/-- R200 item 4: while the replicas of a pinned row find no room, the replacement goes on waiting. -/
theorem tableReplaceCommit_waits (hrep : replicated u v = false) :
    ∃ t, exec (.tableReplaceCommit r rows base) s = .next t ∧ t.changes = s.changes ∧ t.tabs.replaces = s.tabs.replaces
      ∧ t.tabs.versions = s.tabs.versions ∧ t.media = s.media ∧ t.reqs = s.reqs :=
  ⟨_, (tableReplaceCommit_next hx hok hb).trans (congrArg Host.Outcome.next (if_neg (Bool.eq_false_iff.mp hrep))),
    roomFor_part State.changes (fun _ _ _ => rfl) (fun _ _ _ => rfl) s v,
    roomFor_part (fun t => t.tabs.replaces) (fun _ _ _ => rfl) (fun _ _ _ => rfl) s v,
    roomFor_part (fun t => t.tabs.versions) (fun _ _ _ => rfl) (fun _ _ _ => rfl) s v,
    roomFor_part State.media (fun _ _ _ => rfl) (fun _ _ _ => rfl) s v,
    roomFor_part State.reqs (fun _ _ _ => rfl) (fun _ _ _ => rfl) s v⟩

end

/-- Settles O44: an apply that ends leaves its row home and its message completed; a replacement's commit fills its tiles and asks for the
swap, and without room for its pinned rows it leaves what stands. -/
theorem tableChangesAreWritten : Obligations.TableChangesAreWritten := by
  unfold Obligations.TableChangesAreWritten
  exact ⟨tableUpdateApplyEnd_writes, fun s u r rows base x v hx hok hb =>
    ⟨tableReplaceCommit_commits hx hok hb, tableReplaceCommit_waits hx hok hb⟩⟩

end Sys2Proof.Machine
end

section
/-!
PROOF. What reset leaves in the registers (R208, R416, R418, R465, R530): O57.
-/
namespace Sys2Proof.Machine

/-- R416: no bit of KT_READY is set at reset. -/
theorem readReg_reset_ready : readReg State.reset 0 0x100 = 0#64 := by decide

/-- R418: both power limits are 3,000 W at reset. -/
theorem readReg_reset_limits : readReg State.reset 0 0x200 = 3000#64 ∧ readReg State.reset 0 0x208 = 3000#64 := by decide

/-- R102: no core has power at reset (log 1). -/
theorem coreOf_reset (c : Nat) : coreOf State.reset c = coreOff := AMap.get_nil coreOff c

/-- The media read 0 before anything has written them (log 10). -/
theorem readByte_reset (a : Nat) : readByte State.reset.media.bytes a = 0#8 := AMap.get_nil 0#8 a

/-- Settles O57: the registers read their reset values, and the tables of cores and of media bytes list nothing. -/
theorem resetLeavesTheRegisters : Obligations.ResetLeavesTheRegisters := by
  unfold Obligations.ResetLeavesTheRegisters
  obtain ⟨hlow, hhigh⟩ := readReg_reset_limits
  exact ⟨readReg_reset_ready, hlow, hhigh, rfl, rfl, rfl, rfl, fun c => congrArg Core.power (coreOf_reset c), readByte_reset, rfl, rfl, rfl⟩

end Sys2Proof.Machine
end

section
/-!
PROOF. A whole tile copied from T2 into a slot (R213, R214, R229, R230): its start, and O14.
-/
namespace Sys2Proof.Machine

open Sys2Proof.Claims

/-! ### What holds a copy back (R90, R215, R229) -/

/-- On a core with no copy open, no earlier copy holds one (R229). -/
theorem copyHeld_none {k : Core} (h : copiesOpen k = []) (c : Copy) : copyHeld k c = false := by
  simp [copyHeld, copiesFlying, h]

/-- A slot that is EMPTY, or FULL with nothing left to read it, can be written (R90, R130). -/
theorem writeGate_one {k : Core} {engine n : Nat}
    (h : slotOf k n = .empty ∨ slotOf k n = .full ∧ readByOthers k engine n = false ∧ heldByRing k n = false) :
    writeGate k engine true [n] = .pass := by
  rcases h with hempty | ⟨hfull, hread, hring⟩
  · simp [writeGate, hempty]
  · simp [writeGate, hfull, hread, hring]

/-- Where nothing waits at a tile, a read has its turn (R215). -/
theorem tileTurn_read {s : State} (h : s.media.waits = []) (key core id i : Nat) : tileTurn s ⟨key, core, id, i, false⟩ = true := by
  simp [tileTurn, h]

theorem leaveTiles_none {s : State} (h : s.media.waits = []) (l : List TileWait) : leaveTiles s l = s := by
  have hwaits : s.media.waits.filter (fun w => !l.contains w) = s.media.waits := by rw [h]; rfl
  unfold leaveTiles
  rw [hwaits]

/-- A transfer drawn from a regulator leaves the media alone (R430). -/
theorem drawTokens_media {s t : State} {set n : Nat} {x : Resource} {admitted : Bool} {k : Ticket}
    (h : drawTokens s set x n admitted k = some t) : t.media = s.media := by
  unfold drawTokens at h
  split at h
  · cases h
    rfl
  · split at h
    · cases h
    · split at h
      · cases h
      · obtain ⟨b, -, rfl⟩ := Option.map_eq_some_iff.mp h
        rfl

/-! ### A whole tile put into a slot (R213, R214) -/

section
variable (k : Core) (n : Nat) (cells : List Host.Cell) (d : BitVec 512) (st : SlotState)

theorem slotOf_tileToSlot_same : slotOf (tileToSlot k n cells d st) n = st := slotOf_setSlot_same ..

theorem slotOf_tileToSlot_other {m : Nat} (h : m ≠ n) : slotOf (tileToSlot k n cells d st) m = slotOf k m := slotOf_setSlot_other _ _ _ _ h

theorem slotDesc_tileToSlot : slotDesc (tileToSlot k n cells d st) n = setDState d 0 := slotDesc_setSlotDesc_same k n _

theorem readByte_tileToSlot {x : Nat} (h : x < 16384) :
    readByte (tileToSlot k n cells d st).bytes (16384 * n + x) = AMap.get 0#8 cells x := by
  rw [Nat.mul_comm]
  exact readByte_putCells_inside k.bytes (slotAddr n) tileBytes cells x h

theorem tileToSlot_sameOutside (h : ∀ p ∈ cells, p.1 < 16384) :
    sameOutside k.bytes (tileToSlot k n cells d st).bytes (16384 * n) 16384 := by
  intro x hx
  rw [Nat.mul_comm] at hx
  exact readByte_putCells_outside k.bytes (slotAddr n) tileBytes cells x h hx

end

/-- Cells cut out of a store and read back are its bytes. -/
theorem cellsBytes_cutCells (m : List Host.Cell) (a n : Nat) : cellsBytes (cutCells m a n) n = readBytes m a n := by
  refine List.map_congr_left fun i hi => ?_
  rw [Nat.zero_add]
  exact get_cutCells m a n i (List.mem_range.mp hi)

/-! ### The start of the copy -/

/-- The copy of T2 tile `src` into slot `n`. -/
def tileCopy (src n : Nat) (st : CopyState) : Copy := ⟨⟨1, src⟩, ⟨0, n⟩, .whole, st, [], [], 0⟩

/-- The payload of a T2 tile. -/
def tileCells (s : State) (src : Nat) : List Host.Cell := cutCells s.media.bytes (16384 * src) 16384

/-- The core with the tile in the slot, which is FILLING. -/
def tileArriving (s : State) (k : Core) (src n : Nat) : Core :=
  tileToSlot k n (tileCells s src) (copiedDesc (tileDesc s src) (slotDesc k n) (devBytes s (16384 * src) 16384)) .filling

section
variable {s s2 : State} {core i src n : Nat} {k : Core} {u : UnitDesc} {f : Flight}

theorem copyGates_pass (hwait : s.media.waits = []) (hreach : reachOk s u.glade src false false = true)
    (hfull : dState (tileDesc s src) = 2)
    (hslot : slotOf k n = .empty ∨ slotOf k n = .full ∧ readByOthers k 5 n = false ∧ heldByRing k n = false) :
    copyGates s core k u.glade f.id i (tileCopy src n .held) = .pass := by
  have hsource : sourceGate s k u.glade ⟨1, src⟩ = .pass := by simp [sourceGate, tileKey, hreach, hfull, tileFull]
  have hdest : destGate s k u.glade ⟨0, n⟩ = .pass := by simp [destGate, engC, writeGate_one hslot]
  simp [copyGates, tileCopy, isCast, hsource, hdest, CopyGate.and, tileAccesses, tileTurn_read hwait]

/-- R431: the copy draws its 16,384 bytes from the T2 regulator alone. -/
theorem copyTokens_tileCopy
    (hdraw : drawTokens s u.glade .t2 16384 (unitReserved u) ⟨u.glade, 0, core, f.id, i⟩ = some s2) :
    copyTokens s core u f.id i (tileCopy src n .held) = .ok s2 := by
  have hbytes : copyBytes (tileCopy src n .held) 1 = 16384 := rfl
  have hnone : copyBytes (tileCopy src n .held) 2 = 0 := rfl
  simp only [copyTokens, hbytes, hnone, drawTokens, if_true]
  rw [← drawTokens, hdraw]

/-- The payload and the moved fields arrive in the slot. -/
theorem copyMove_tileCopy : copyMove s k (tileCopy src n .held) = (s, tileArriving s k src n, tileCopy src n .flying) := by
  have hcells : refCells s k ⟨1, src⟩ 0 tileBytes = tileCells s src := by simp [refCells, tileKey, tileCells, tileBytes, Nat.mul_comm]
  have hbytes : cellsBytes (tileCells s src) tileBytes = devBytes s (16384 * src) 16384 := cellsBytes_cutCells _ _ _
  simp only [copyMove, tileCopy, hcells, hbytes]
  rfl

theorem copyStart_tileCopy (hopen : copiesOpen k = []) (hwait : s.media.waits = [])
    (hreach : reachOk s u.glade src false false = true) (hfull : dState (tileDesc s src) = 2)
    (hslot : slotOf k n = .empty ∨ slotOf k n = .full ∧ readByOthers k 5 n = false ∧ heldByRing k n = false)
    (hdraw : drawTokens s u.glade .t2 16384 (unitReserved u) ⟨u.glade, 0, core, f.id, i⟩ = some s2) :
    copyStart s core k u f i (tileCopy src n .held) = .go s2 (tileArriving s2 k src n) (tileCopy src n .flying) := by
  have hwait2 : s2.media.waits = [] := by rw [drawTokens_media hdraw, hwait]
  have hown : isReceive (tileCopy src n .held) = false := rfl
  simp only [copyStart, hown, Bool.false_eq_true, if_false, copyHeld_none hopen, copyGates_pass hwait hreach hfull hslot,
    copyTokens_tileCopy hdraw, leaveTiles_none hwait2, copyMove_tileCopy]

end

/-- Settles O14: nothing holds the copy, it draws its bytes, and the tile's cells and moved fields stand in the slot that is FILLING. -/
theorem wholeTileCopyMovesTheTile : Obligations.WholeTileCopyMovesTheTile := by
  unfold Obligations.WholeTileCopyMovesTheTile
  intro s core k u f i src n s2 _ _ hopen hwait hreach hfull hslot hdraw
  have hmedia : s2.media = s.media := drawTokens_media hdraw
  refine ⟨_, copyStart_tileCopy hopen hwait hreach hfull hslot hdraw, slotOf_tileToSlot_same .., fun m hm => slotOf_tileToSlot_other _ _ _ _ _ hm,
    fun x hx => ?_, tileToSlot_sameOutside _ _ _ _ _ (cutCells_lt _ _ _), ?_, hmedia⟩
  · rw [tileArriving, readByte_tileToSlot _ _ _ _ _ hx, tileCells, get_cutCells _ _ _ _ hx, hmedia]
  · rw [tileArriving, slotDesc_tileToSlot, tileDesc, tileDesc, devBytes, devBytes, hmedia]

end Sys2Proof.Machine
end

section
/-!
PROOF. Faults of T2 and T3 (R240 to R245, R304): errors counted against a channel, channels retired, double faults, and O45.
-/
namespace Sys2Proof.Machine

open Sys2Proof.Claims

/-! ### Modules that nothing more happens on -/

/-- A program tile is a tile of a committed unit's program. -/
theorem programTile_of_mem {s : State} {u : UnitState} {n : Nat} (hu : u ∈ s.chip.units) (hn : n ∈ programTiles u.desc) :
    programTile s n = true :=
  List.any_eq_true.mpr ⟨u, hu, List.contains_iff_mem.mpr hn⟩

/-- A settled module stays settled while its cores rest and the tiles of its programs stand. -/
theorem settled_of {s t : State} (h : settled s) (hrest : restAll t) (hunits : t.chip.units = s.chip.units)
    (htiles : ∀ n, programTile s n = true → tileDesc t n = tileDesc s n) : settled t := by
  obtain ⟨-, hprograms⟩ := h
  refine ⟨hrest, fun u hu => ?_⟩
  rw [hunits] at hu
  refine List.any_eq_false.mpr fun n hn => ?_
  rw [htiles n (programTile_of_mem hu hn)]
  exact List.any_eq_false.mp (hprograms u hu) n hn

/-- The same of a change of the directory, the log and the channels. -/
theorem settled_of_parts {s t : State} (h : settled s) (hchip : t.chip = s.chip) (happlying : t.tabs.applying = s.tabs.applying)
    (htiles : t.media.tiles = s.media.tiles) : settled t :=
  settled_of h (restAll_of_chip hchip (fun _ ha => happlying ▸ ha) h.1) (congrArg Chip.units hchip) fun n _ => congrArg (AMap.get 0#512 · n) htiles

/-- After a fault of the media nothing else happens on a settled module. -/
theorem watchPrograms_goAll {s : State} (h : settled s) : watchPrograms (goAll s 0) = s := by
  obtain ⟨hrest, hprograms⟩ := h
  have hnone : s.chip.units.any (fun u => poisonedProgram s u.desc) = false :=
    List.any_eq_false.mpr fun u hu => Bool.eq_false_iff.mp (hprograms u hu)
  rw [goAll_rest s 0 hrest, watchPrograms, hnone, if_neg Bool.false_ne_true]

theorem t2Scrub_next {s t : State} {found : List (Nat × ReadQuality)} (halive : alive s = true) (hfound : scrubFound s found = t)
    (h : settled t) : exec (.t2Scrub found) s = .next t := by
  change execT2Scrub found s = _
  rw [execT2Scrub, if_pos halive, hfound, watchPrograms_goAll h]

/-! ### Channels (R242) -/

theorem channelGone_eq_false {s : State} {c : Nat} : channelGone s c = false ↔ chanOf s c ≠ .retired ∧ chanOf s c ≠ .rebuilding := by
  unfold channelGone chanOf
  cases AMap.get (.live []) s.media.channels c <;> simp

/-- What reads as another value than the default is listed. -/
theorem AMap.mem_of_get {α : Type} {d v : α} {m : AMap α} {x : Nat} (h : AMap.get d m x = v) (hv : v ≠ d) : (x, v) ∈ m := by
  induction m with
  | nil => exact absurd h.symm hv
  | cons p r ih =>
    obtain ⟨k, w⟩ := p
    rw [AMap.get_cons] at h
    split at h
    next hk => rw [← hk, ← h]; exact List.mem_cons_self
    · exact List.mem_cons_of_mem _ (ih h)

/-- Every channel of the stack of `c` serves its tiles: none is retired or being rebuilt (R242). -/
def stackServes (s : State) (c : Nat) : Prop := ∀ i, i < 32 → channelGone s (32 * stackOfChannel c + i) = false

/-- In a free stack no channel is being rebuilt. -/
theorem stackFree_not_rebuilding {s : State} {c i : Nat} (h : stackFree s c) (hi : i < 32) :
    chanOf s (32 * stackOfChannel c + i) ≠ .rebuilding := by
  obtain ⟨-, hrebuilding⟩ := h
  intro hc
  refine absurd (List.any_eq_false.mp hrebuilding _ (AMap.mem_of_get hc (by simp))) ?_
  simp [show (32 * stackOfChannel c + i) / 32 = stackOfChannel c by omega]

/-- A group that is not short has lost no partner to a retired channel. -/
theorem groupShort_not_retired {s : State} {key i : Nat} (h : groupShort s key = false) (hi : i < 32)
    (hother : 32 * stackOfChannel (t2Channel key) + i ≠ t2Channel key) : chanOf s (32 * stackOfChannel (t2Channel key) + i) ≠ .retired := by
  intro hc
  refine absurd (List.any_eq_false.mp h i (List.mem_range.mpr hi)) ?_
  simp [hother, hc]

/-! ### Replicas lost with their channel (R241) -/

section
variable {α : Type} (f : State → α) (hhot : ∀ s home e, f (putHot s home e) = f s)
include hhot

theorem loseReplica_part (s : State) (home k : Nat) : f (loseReplica s home k) = f s := by
  unfold loseReplica
  split
  · rfl
  · exact hhot _ _ _

/-- The loss of a channel changes the directory only. -/
theorem loseChannel_part (s : State) (c : Nat) : f (loseChannel s c) = f s := by
  refine foldl_keeps _ f (fun s p => ?_) _ s
  split
  · rfl
  · exact loseReplica_part f hhot _ _ _

end

/-! ### A channel retired (R242) -/

/-- The stack of a channel, which is served by reconstruction for good. -/
def unprotect (s : State) (c : Nat) : State :=
  { s with media := { s.media with unprotected := setHas s.media.unprotected (stackOfChannel c) } }

/-- A channel in its new state, with the replicas on it lost. -/
def channelTaken (s : State) (c : Nat) (x : ChanState) : State := loseChannel (setChan s c x) c

theorem channelTaken_part {α : Type} (f : State → α) (hhot : ∀ s home e, f (putHot s home e) = f s) (s : State) (c : Nat) (x : ChanState) :
    f (channelTaken s c x) = f (setChan s c x) := loseChannel_part f hhot _ c

theorem chanOf_channelTaken_same (s : State) (c : Nat) (x : ChanState) : chanOf (channelTaken s c x) c = x :=
  (channelTaken_part (chanOf · c) (fun _ _ _ => rfl) s c x).trans (chanOf_setChan_same s c x)

theorem chanOf_channelTaken_other (s : State) {c n : Nat} (x : ChanState) (h : n ≠ c) : chanOf (channelTaken s c x) n = chanOf s n :=
  (channelTaken_part (chanOf · n) (fun _ _ _ => rfl) s c x).trans (chanOf_setChan_other s c n x h)

theorem channelTaken_log (s : State) (c : Nat) (x : ChanState) : (channelTaken s c x).log = s.log :=
  channelTaken_part State.log (fun _ _ _ => rfl) s c x

theorem channelTaken_reqs (s : State) (c : Nat) (x : ChanState) : (channelTaken s c x).reqs = s.reqs :=
  channelTaken_part State.reqs (fun _ _ _ => rfl) s c x

theorem channelTaken_bytes (s : State) (c : Nat) (x : ChanState) : (channelTaken s c x).media.bytes = s.media.bytes :=
  channelTaken_part (fun t => t.media.bytes) (fun _ _ _ => rfl) s c x

theorem channelTaken_unprotected (s : State) (c : Nat) (x : ChanState) : (channelTaken s c x).media.unprotected = s.media.unprotected :=
  channelTaken_part (fun t => t.media.unprotected) (fun _ _ _ => rfl) s c x

theorem settled_channelTaken {s : State} (c : Nat) (x : ChanState) (h : settled s) : settled (channelTaken s c x) :=
  settled_of_parts h (channelTaken_part State.chip (fun _ _ _ => rfl) s c x)
    (channelTaken_part (fun t => t.tabs.applying) (fun _ _ _ => rfl) s c x) (channelTaken_part (fun t => t.media.tiles) (fun _ _ _ => rfl) s c x)

theorem settled_t2Event {s : State} (code c : Nat) (h : settled s) : settled (t2Event s code c) := settled_of_parts h rfl rfl rfl

theorem settled_unprotect {s : State} (c : Nat) (h : settled s) : settled (unprotect s c) := settled_of_parts h rfl rfl rfl

section
variable {s : State} {c : Nat} {l : List Nat}

/-- The spare area of the stack is in use, or being filled (R242 items 5 and 6). -/
def spareTaken (s : State) (c : Nat) : Bool :=
  s.media.spareInUse.contains (stackOfChannel c) || s.media.channels.any (fun p => p.1 / 32 == stackOfChannel c && p.2 == .rebuilding)

/-- Where the rest of the stack serves, a live channel is retired with no group lost. -/
theorem retireChannel_live (hlive : chanOf s c = .live l) (hserves : stackServes s c) :
    retireChannel s c = if spareTaken s c then channelTaken (unprotect (t2Event s 1 c) c) c .retired
      else channelTaken (t2Event s 1 c) c .rebuilding := by
  have hsecond : (List.range 32).any (fun i => channelGone (t2Event s 1 c) (32 * stackOfChannel c + i)) = false :=
    List.any_eq_false.mpr fun i hi => Bool.eq_false_iff.mp (hserves i (List.mem_range.mp hi))
  simp only [retireChannel, hlive, hsecond, Bool.false_eq_true, if_false]
  exact apply_ite (loseChannel · c) ..

/-- R242 item 3: with the spare area free, the rebuild begins. -/
theorem retireChannel_stackFree (hlive : chanOf s c = .live l) (hserves : stackServes s c) (hfree : stackFree s c) :
    retireChannel s c = channelTaken (t2Event s 1 c) c .rebuilding := by
  obtain ⟨hspare, hrebuilding⟩ := hfree
  rw [retireChannel_live hlive hserves, if_neg]
  simp only [spareTaken, hspare, hrebuilding, Bool.or_false, Bool.false_eq_true, not_false_iff]

/-- R242 item 5: with the spare area in use, the stack is unprotected. -/
theorem retireChannel_spareInUse (hlive : chanOf s c = .live l) (hserves : stackServes s c)
    (hspare : s.media.spareInUse.contains (stackOfChannel c) = true) :
    retireChannel s c = channelTaken (unprotect (t2Event s 1 c) c) c .retired := by
  rw [retireChannel_live hlive hserves, if_pos]
  simp only [spareTaken, hspare, Bool.true_or]

/-! ### Errors counted (R242 item 2) -/

/-- The errors of the last second. -/
def recentErrors (s : State) (l : List Nat) : List Nat := l.filter (fun t => decide (s.time < t + 1000000))

/-- The third error within a second retires the channel. -/
theorem countError_live (hlive : chanOf s c = .live l) :
    countError s c = if 2 ≤ (recentErrors s l).length then retireChannel s c else setChan s c (.live (recentErrors s l ++ [s.time])) := by
  have hcounted : (l ++ [s.time]).filter (fun t => decide (s.time < t + 1000000)) = recentErrors s l ++ [s.time] := by
    simp [recentErrors, List.filter_append]
  simp only [countError, hlive, hcounted, List.length_append, List.length_singleton, decide_eq_true_eq]
  exact ite_congr (propext (by omega)) (fun _ => rfl) (fun _ => rfl)

end

/-! ### What the scrub finds (R240, R242, R244) -/

/-- What is good or corrected in a tile that is not POISONED leaves no trace. -/
theorem scrubFound_clean {s : State} {found : List (Nat × ReadQuality)}
    (h : ∀ f ∈ found, (f.2 = .good ∨ f.2 = .corrected) ∧ (f.1 < t2All → dState (tileDesc s f.1) ≠ 3)) : scrubFound s found = s := by
  induction found with
  | nil => rfl
  | cons f found ih =>
    have hclean : scrubFound s [f] = s := by
      obtain ⟨hquality, hstate⟩ := h f List.mem_cons_self
      unfold scrubFound
      rw [List.foldl_cons, List.foldl_nil]
      split
      next hbeyond => rcases hquality with hq | hq <;> simp [hq]
      next hwithin =>
        have hread : cannotRead s f.1 f.2 = false := by
          rcases hquality with hq | hq <;> simp [cannotRead, tilePoisoned, hq, hstate (Nat.lt_of_not_le hwithin)]
        rw [hread, if_neg Bool.false_ne_true]
        rcases hquality with hq | hq <;> simp [noteQuality, hq]
    change scrubFound (scrubFound s [f]) found = s
    rw [hclean]
    exact ih fun g hg => h g (List.mem_cons_of_mem f hg)

section
variable {s : State} {key : Nat}

/-- The interleaved tiles lie in the address space with the replica areas (R205). -/
theorem not_t2All_le (h : key < t2Tiles) : ¬ t2All ≤ key := Nat.not_le.mpr (Nat.lt_of_lt_of_le h (Nat.le_add_right _ _))

/-- An uncorrectable tile that its group restores counts against its channel. -/
theorem scrubFound_uncorrectable (hkey : key < t2Tiles) (hstate : dState (tileDesc s key) ≠ 3) (hgroup : groupShort s key = false) :
    scrubFound s [(key, .uncorrectable)] = countError s (t2Channel key) := by
  have hread : cannotRead s key .uncorrectable = false := by simp [cannotRead, tilePoisoned, hstate, hgroup]
  simp [scrubFound, not_t2All_le hkey, hread, noteQuality, hkey]

/-- A tile beyond repair is a double fault, with no unit that read it. -/
theorem scrubFound_poisoned (hkey : key < t2Tiles) : scrubFound s [(key, .poisoned)] = doubleFault s noUnit key := by
  have hread : cannotRead s key .poisoned = true := by simp [cannotRead, hkey]
  simp [scrubFound, not_t2All_le hkey, hread]

theorem faultReqs_none (s : State) : faultReqs s (fun q => (suspectsOf noUnit).contains q.id) = s := by
  have hnone : s.reqs.filter (fun q => (suspectsOf noUnit).contains q.id) = [] := List.filter_eq_nil_iff.mpr fun _ _ => Bool.false_ne_true
  rw [faultReqs, hnone, List.foldl_nil]

/-- R506: a tile of no table, image or index that no unit reads becomes POISONED, and nothing else. -/
theorem doubleFault_unowned (htable : tableOfTile s key = none) (himage : dKind (tileDesc s key) ≠ 1) (hindex : dKind (tileDesc s key) ≠ 3) :
    doubleFault s noUnit key = setTile (dropLines s key) key (setDState (tileDesc s key) 3) := by
  have htable' : tableOfTile (setTile (dropLines s key) key (setDState (tileDesc s key) tilePoisoned)) key = none := htable
  unfold doubleFault
  dsimp only
  rw [htable']
  dsimp only
  split
  next h => exact absurd h himage
  next h => exact absurd h hindex
  · exact faultReqs_none _

/-- A tile put into a state stands in it. -/
theorem dState_setTile_setDState (t : State) (n : Nat) (d : BitVec 512) (v : Nat) : dState (tileDesc (setTile t n (setDState d v)) n) = v % 2 ^ 2 :=
  (congrArg dState (tileDesc_setTile_same t n _)).trans (fld_setFld_same d 0 2 v (by omega))

theorem settled_poisoned (hprogram : programTile s key = false) (h : settled s) (d : BitVec 512) : settled (setTile (dropLines s key) key d) := by
  refine settled_of h (restAll_dropLines key h.1) rfl fun n hn => tileDesc_setTile_other _ _ _ _ ?_
  rintro rfl
  exact Bool.false_ne_true (hprogram.symm.trans hn)

/-! ### The commands -/

theorem t2Scrub_clean {found : List (Nat × ReadQuality)} (halive : alive s = true) (hsettled : settled s)
    (h : ∀ f ∈ found, (f.2 = .good ∨ f.2 = .corrected) ∧ (f.1 < t2All → dState (tileDesc s f.1) ≠ 3)) : exec (.t2Scrub found) s = .next s :=
  t2Scrub_next halive (scrubFound_clean h) hsettled

section
variable {l : List Nat} (halive : alive s = true) (hsettled : settled s) (hkey : key < t2Tiles) (hlive : chanOf s (t2Channel key) = .live l)
  (hstate : dState (tileDesc s key) ≠ 3) (hgroup : groupShort s key = false)
include halive hsettled hkey hlive hstate hgroup

theorem t2Scrub_counts (hfew : (recentErrors s l).length < 2) :
    exec (.t2Scrub [(key, .uncorrectable)]) s = .next (setChan s (t2Channel key) (.live (recentErrors s l ++ [s.time]))) := by
  have hfound : scrubFound s [(key, .uncorrectable)] = setChan s (t2Channel key) (.live (recentErrors s l ++ [s.time])) := by
    rw [scrubFound_uncorrectable hkey hstate hgroup, countError_live hlive, if_neg (Nat.not_le.mpr hfew)]
  exact t2Scrub_next halive hfound (settled_of_parts hsettled rfl rfl rfl)

theorem t2Scrub_retires (hmany : 2 ≤ (recentErrors s l).length) (hfree : stackFree s (t2Channel key)) :
    exec (.t2Scrub [(key, .uncorrectable)]) s = .next (channelTaken (t2Event s 1 (t2Channel key)) (t2Channel key) .rebuilding) := by
  have hserves : stackServes s (t2Channel key) := by
    intro i hi
    refine channelGone_eq_false.mpr ⟨?_, stackFree_not_rebuilding hfree hi⟩
    by_cases hself : 32 * stackOfChannel (t2Channel key) + i = t2Channel key
    · simp [hself, hlive]
    · exact groupShort_not_retired hgroup hi hself
  have hfound : scrubFound s [(key, .uncorrectable)] = channelTaken (t2Event s 1 (t2Channel key)) (t2Channel key) .rebuilding := by
    rw [scrubFound_uncorrectable hkey hstate hgroup, countError_live hlive, if_pos hmany, retireChannel_stackFree hlive hserves hfree]
  exact t2Scrub_next halive hfound (settled_channelTaken _ _ (settled_t2Event 1 _ hsettled))

end

theorem t2Scrub_poisons (halive : alive s = true) (hsettled : settled s) (hkey : key < t2Tiles) (hprogram : programTile s key = false)
    (htable : tableOfTile s key = none) (himage : dKind (tileDesc s key) ≠ 1) (hindex : dKind (tileDesc s key) ≠ 3) :
    exec (.t2Scrub [(key, .poisoned)]) s = .next (setTile (dropLines s key) key (setDState (tileDesc s key) 3)) :=
  t2Scrub_next halive ((scrubFound_poisoned hkey).trans (doubleFault_unowned htable himage hindex)) (settled_poisoned hprogram hsettled _)

end

section
variable {s : State} {c rate : Nat}

theorem t2CorrectedRateWatch_low (h : rate ≤ 1000) : exec (.t2CorrectedRateWatch c rate) s = .next s := by
  change execT2CorrectedRateWatch c rate s = _
  simp [execT2CorrectedRateWatch, Nat.not_lt.mpr h]

theorem t2CorrectedRateWatch_high {t : State} (hc : c < 384) (h : 1000 < rate) (hretired : retireChannel s c = t) (hafter : settled t) :
    exec (.t2CorrectedRateWatch c rate) s = .next t := by
  change execT2CorrectedRateWatch c rate s = _
  simp [execT2CorrectedRateWatch, hc, h, hretired, watchPrograms_goAll hafter]

/-- R242 items 3 and 4: the spare area is in use, and the channel is served from it. -/
theorem t2RebuildEnd_next (h : chanOf s c = .rebuilding) : exec (.t2RebuildEnd c) s
    = .next (setChan (t2Event { s with media := { s.media with spareInUse := setHas s.media.spareInUse (stackOfChannel c) } } 2 c) c
        .rebuilt) := by
  change execT2RebuildEnd c s = _
  simp only [execT2RebuildEnd, h]

/-- R245: the failed die is known, and its failure logged. -/
def dieFailed (s : State) (c d : Nat) : State :=
  t3Event { s with media := { s.media with failedDies := setHas s.media.failedDies (c, d) } } 1 c

theorem t3DieFail_next {d : Nat} (hflash : s.flash = true) (hc : c < 256) (hd : d < 8) (spare : Bool) :
    exec (.t3DieFail c d spare) s = .next (if spare then dieFailed s c d else addChange (dieFailed s c d) (.channelOut c)) := by
  change execT3DieFail c d spare s = _
  simp [execT3DieFail, hflash, Nat.not_le.mpr hc, Nat.not_le.mpr hd, dieFailed]

theorem flashChannelOutOfService_next (hflash : s.flash = true) (hc : c < 256) (hout : AMap.get none s.under.out c = none)
    (hnew : .channelOut c ∉ s.changes) : exec (.flashChannelOutOfService c) s = .next (addChange (t3Event s 2 c) (.channelOut c)) := by
  change execFlashChannelOutOfService c s = _
  simp [execFlashChannelOutOfService, hflash, channels, Nat.not_le.mpr hc, hout, hnew]

theorem t3MoveEnd_next {x : Nat} (hout : AMap.get none s.under.out c = some x) (hmoved : c ∉ s.under.moved)
    (hnew : .moveEnd c ∉ s.changes) : exec (.t3MoveEnd c) s = .next (addChange (t3Event s 3 c) (.moveEnd c)) := by
  change execT3MoveEnd c s = _
  simp [execT3MoveEnd, hout, hmoved, hnew]

end

/-! ### The corrected errors of a channel (R242 items 2, 3 and 5) -/

section
variable {s : State} {c rate : Nat} {l : List Nat} (hc : c < 384) (hsettled : settled s) (hlive : chanOf s c = .live l)
  (hkept : ∀ i, i < 32 → chanOf s (32 * stackOfChannel c + i) ≠ .retired) (hrate : 1000 < rate)
include hc hsettled hlive hkept hrate

theorem t2CorrectedRateWatch_rebuilds (hfree : stackFree s c) :
    exec (.t2CorrectedRateWatch c rate) s = .next (channelTaken (t2Event s 1 c) c .rebuilding) := by
  have hserves : stackServes s c := fun i hi => channelGone_eq_false.mpr ⟨hkept i hi, stackFree_not_rebuilding hfree hi⟩
  exact t2CorrectedRateWatch_high hc hrate (retireChannel_stackFree hlive hserves hfree)
    (settled_channelTaken _ _ (settled_t2Event 1 c hsettled))

theorem t2CorrectedRateWatch_unprotects (hspare : s.media.spareInUse.contains (stackOfChannel c) = true)
    (hbuilt : ∀ i, i < 32 → chanOf s (32 * stackOfChannel c + i) ≠ .rebuilding) :
    exec (.t2CorrectedRateWatch c rate) s = .next (channelTaken (unprotect (t2Event s 1 c) c) c .retired) := by
  have hserves : stackServes s c := fun i hi => channelGone_eq_false.mpr ⟨hkept i hi, hbuilt i hi⟩
  exact t2CorrectedRateWatch_high hc hrate (retireChannel_spareInUse hlive hserves hspare)
    (settled_channelTaken _ _ (settled_unprotect c (settled_t2Event 1 c hsettled)))

end

/-- Settles O45: each fault of the media leaves a settled module settled, so that it does what its rule says and nothing else. -/
theorem mediaFaultsAreContained : Obligations.MediaFaultsAreContained := by
  unfold Obligations.MediaFaultsAreContained
  intro s
  refine ⟨fun halive hsettled found => t2Scrub_clean halive hsettled, ?uncorrectable, ?poisoned, ?rate, ?rebuilt, ?die, ?out, ?moved⟩
  case uncorrectable =>
    intro key l halive hsettled hkey hlive hstate hgroup
    refine ⟨t2Scrub_counts halive hsettled hkey hlive hstate hgroup, fun hmany hfree =>
      ⟨_, t2Scrub_retires halive hsettled hkey hlive hstate hgroup hmany hfree, chanOf_channelTaken_same .., ?_, channelTaken_bytes ..,
        channelTaken_reqs ..⟩⟩
    rw [channelTaken_log]
    rfl
  case poisoned =>
    intro key halive hsettled hkey hprogram htable himage hindex
    exact ⟨_, t2Scrub_poisons halive hsettled hkey hprogram htable himage hindex, dState_setTile_setDState .., fun n hn =>
      tileDesc_setTile_other _ _ _ _ hn, rfl, rfl⟩
  case rate =>
    intro c rate l hc hsettled hlive hkept
    refine ⟨t2CorrectedRateWatch_low, fun hrate hfree => ?_, fun hrate hspare hbuilt => ?_⟩
    · refine ⟨_, t2CorrectedRateWatch_rebuilds hc hsettled hlive hkept hrate hfree, chanOf_channelTaken_same ..,
        fun n hn => chanOf_channelTaken_other _ _ hn, ?_, channelTaken_reqs ..⟩
      rw [channelTaken_log]
      rfl
    · refine ⟨_, t2CorrectedRateWatch_unprotects hc hsettled hlive hkept hrate hspare hbuilt, chanOf_channelTaken_same .., ?_,
        fun n hn => chanOf_channelTaken_other _ _ hn, channelTaken_reqs ..⟩
      rw [channelTaken_unprotected]
      exact mem_setHas _ _
  case rebuilt =>
    intro c hc
    exact ⟨_, t2RebuildEnd_next hc, chanOf_setChan_same .., mem_setHas _ _, fun n hn => chanOf_setChan_other _ _ _ _ hn, rfl, rfl⟩
  case die =>
    intro c d hflash hc hd
    exact ⟨_, _, t3DieFail_next hflash hc hd true, mem_setHas _ _, rfl, rfl, t3DieFail_next hflash hc hd false, mem_setHas _ _, rfl⟩
  case out =>
    intro c hflash hc hout hnew
    exact ⟨_, flashChannelOutOfService_next hflash hc hout hnew, rfl, rfl, rfl, rfl⟩
  case moved =>
    intro c x hout hmoved hnew
    exact ⟨_, t3MoveEnd_next hout hmoved hnew, rfl, rfl, rfl, rfl⟩

end Sys2Proof.Machine
end

section
/-!
PROOF. What a collector keeps of the records it is offered (R261), and O12.
-/
namespace Sys2Proof.Machine

/-! ### The rank of an entry (R261) -/

theorem heldBefore_iff {a b : Held} : heldBefore a b = true ↔ b.score < a.score ∨ a.score = b.score ∧ a.pid < b.pid := by
  simp [heldBefore]

theorem not_heldBefore_iff {a b : Held} : heldBefore a b = false ↔ a.score ≤ b.score ∧ (a.score = b.score → b.pid ≤ a.pid) := by
  simp [heldBefore]

/-- Of two entries at most one ranks before the other. -/
theorem heldBefore_asymm {a b : Held} (h : heldBefore a b = true) : heldBefore b a = false := by
  rw [heldBefore_iff] at h
  rw [not_heldBefore_iff]
  omega

/-- An entry that ranks nowhere before the second ranks nowhere before the first either. -/
theorem not_heldBefore_trans {a b c : Held} (hab : heldBefore b a = false) (hbc : heldBefore c b = false) : heldBefore c a = false := by
  rw [not_heldBefore_iff] at *
  omega

/-! ### An entry put in its place -/

/-- An insertion puts its entry somewhere among the others. -/
theorem insertHeld_perm (e : Held) (l : List Held) : (insertHeld e l).Perm (e :: l) := by
  induction l with
  | nil => exact .refl _
  | cons x l ih =>
    unfold insertHeld
    split
    · exact .refl _
    · exact (ih.cons x).trans (.swap e x l)

theorem mem_insertHeld {e x : Held} {l : List Held} : x ∈ insertHeld e l ↔ x = e ∨ x ∈ l :=
  (insertHeld_perm e l).mem_iff.trans List.mem_cons

theorem length_insertHeld (e : Held) (l : List Held) : (insertHeld e l).length = l.length + 1 := (insertHeld_perm e l).length_eq

/-- An entry put into a list in rank order leaves it in rank order. -/
theorem insertHeld_pairwise (e : Held) {l : List Held} (h : l.Pairwise (fun a b => heldBefore b a = false)) :
    (insertHeld e l).Pairwise (fun a b => heldBefore b a = false) := by
  induction l with
  | nil => exact List.pairwise_singleton _ e
  | cons x l ih =>
    obtain ⟨hx, hl⟩ := List.pairwise_cons.mp h
    unfold insertHeld
    split
    next hbefore =>
      refine List.pairwise_cons.mpr ⟨fun y hy => ?_, h⟩
      have hex : heldBefore x e = false := heldBefore_asymm hbefore
      obtain rfl | hy := List.mem_cons.mp hy
      · exact hex
      · exact not_heldBefore_trans hex (hx y hy)
    next hnot =>
      refine List.pairwise_cons.mpr ⟨fun y hy => ?_, ih hl⟩
      obtain rfl | hy := mem_insertHeld.mp hy
      · exact Bool.eq_false_iff.mpr hnot
      · exact hx y hy

/-! ### A record offered -/

theorem offer_entries (c : Collector) (e : Held) : (offer c e).entries = (insertHeld e c.entries).take c.k := rfl

/-- What a list in rank order loses beyond its first `k` entries ranks before none of them. -/
theorem not_heldBefore_of_not_mem_take {l : List Held} {k : Nat} {x y : Held} (h : l.Pairwise (fun a b => heldBefore b a = false))
    (hx : x ∈ l) (hleft : x ∉ l.take k) (hy : y ∈ l.take k) : heldBefore x y = false := by
  rw [← List.take_append_drop k l] at h hx
  exact (List.pairwise_append.mp h).2.2 y hy x ((List.mem_append.mp hx).resolve_left hleft)

/-- Settles O12: an offer puts the record in its place among the entries and keeps the first `k`. -/
theorem collectorKeepsTheFirstRanked : Obligations.CollectorKeepsTheFirstRanked := by
  unfold Obligations.CollectorKeepsTheFirstRanked
  intro c e hordered _
  have hinserted := insertHeld_pairwise e hordered
  rw [offer_entries]
  exact ⟨hinserted.sublist (List.take_sublist ..), List.length_take_le .., fun x hx => mem_insertHeld.mp (List.mem_of_mem_take hx),
    fun x hx hleft y => not_heldBefore_of_not_mem_take hinserted (mem_insertHeld.mpr hx) hleft,
    by rw [List.length_take, length_insertHeld]⟩

end Sys2Proof.Machine
end

section
/-!
PROOF. What the search engine makes of an issued instruction; QOPEN, QSCAN and QDRAIN (R98, R261 to R265), and O11.
-/
namespace Sys2Proof.Machine

open Sys2Proof.Claims

/-! ### The collectors of a core -/

@[simp] theorem collOf_setColl_same (k : Core) (n : Nat) (v : Collector) : collOf (setColl k n v) n = v := AMap.get_put_same ..

theorem collOf_setColl_other (k : Core) {n m : Nat} (v : Collector) (h : m ≠ n) : collOf (setColl k n v) m = collOf k m :=
  AMap.get_put_other _ _ _ _ _ h

theorem collOf_of_colls {k k' : Core} (h : k.colls = k'.colls) (n : Nat) : collOf k n = collOf k' n := congrArg (AMap.get collClosed · n) h

section
variable (k : Core) (r : Running) (w : EWord)

@[simp] theorem issuedFlight_colls : (issuedFlight k r w).colls = k.colls := issueTokens_keeps Core.colls (fun _ _ _ => rfl) ..
@[simp] theorem issuedFlight_scalars : (issuedFlight k r w).scalars = k.scalars := issued_scalars k r w

@[simp] theorem collOf_issuedFlight (n : Nat) : collOf (issuedFlight k r w) n = collOf k n := collOf_of_colls (issuedFlight_colls k r w) n

end

/-! ### An instruction of the search engine that starts with its issue -/

/-- R98: contexts that run already take no number. -/
theorem launchCtx_launched (ns : List Nat) {l : List QCtx} (h : ∀ x ∈ l, x.state ≠ .free) : launchCtx ns l = l := by
  induction l with
  | nil => unfold launchCtx; rfl
  | cons x l ih =>
    cases ns with
    | nil => rfl
    | cons n ns => rw [launchCtx, if_neg (h x List.mem_cons_self), ih fun y hy => h y (List.mem_cons_of_mem x hy)]

/-- A search instruction whose contexts all wait for their reads only completes. -/
theorem runs_search {f : Flight} (hs : f.started = true) (he : f.word.engine = engQ)
    (hw : f.work = .none ∨ (∃ c, f.work = .drain c) ∨ ∃ c l, f.work = .scan c l ∧ ∀ x ∈ l, x.state = .waiting) : Runs f where
  started := hs
  engine := by rw [he]; decide
  waits s c k u := by
    obtain hw | ⟨c', hw⟩ | ⟨c', l, hw, hwaiting⟩ := hw
    · simp [resumeFlight, he, engQ, qResume, hw, Begin.lift]
    · simp [resumeFlight, he, engQ, qResume, hw, Begin.lift]
    · have hlaunch : ∀ ns, launchCtx ns l = l := fun ns => launchCtx_launched ns fun x hx => by simp [hwaiting x hx]
      simp [resumeFlight, he, engQ, qResume, hw, hlaunch, Begin.lift]
  serves s c k hk := by
    obtain hw | ⟨c', hw⟩ | ⟨c', l, hw, hwaiting⟩ := hw
    · simp [serveMove, gServe, qServe, gReady, qReady, servedOrder, hk, hw]
    · simp [serveMove, gServe, qServe, gReady, qReady, servedOrder, hk, hw]
    · have hnone : l.filter (fun x => x.state == .ready && !setWaits k c' x) = [] :=
        List.filter_eq_nil_iff.mpr fun x hx => by simp [hwaiting x hx]
      simp [serveMove, gServe, qServe, gReady, qReady, servedOrder, hk, hw, hnone]

/-- `presentAt_starts` for the search engine: what `qBegin` makes of the issued instruction stands. -/
theorem search_starts {s : State} {core : CoreId} {r : Running} {op : Nat} {h : Hdr} {o : BitVec 88} {k : Core} {f : Flight}
    (hi : issuable s core.toNat r ⟨4, op, h, o⟩) (hc : qCheck r.desc op o = none)
    (hb : qBegin (issuedFlight (coreOf s core.toNat) r ⟨4, op, h, o⟩) r.desc (flightOf (coreOf s core.toNat) r ⟨4, op, h, o⟩) = .go k f)
    (hrun : k.run = some (stepPc r ⟨4, op, h, o⟩)) (hfl : k.flights = [flightOf (coreOf s core.toNat) r ⟨4, op, h, o⟩])
    (hid : r.issued = f.id) (hf : Runs f) : presentAt core engQ op h o s = setCore s core.toNat { k with flights := [f] } :=
  presentAt_starts hi (by decide) hc (congrArg (Begin.lift _) hb) hrun hfl hid hf

/-- The slots that were FULL before the issue let the issued instruction read. -/
theorem readGate_issuedFlight {k : Core} {l : List Nat} (h : allFull k l) (r : Running) (w : EWord) : readGate (issuedFlight k r w) l = .pass :=
  (readGate_of_slots (issuedFlight_slots ..) l).trans (readGate_allFull h)

/-! ### QOPEN (R261, R263) -/

/-- The collector that QOPEN opens. -/
def openedColl (p : QOpenOp) (d : ScanDesc) : Collector := ⟨true, p.k, [], 0, 0, 0, 0, 0, d⟩

/-- The slots of the ACL bitmap behind the filter block, where the block names one. -/
def aclSlots (p : QOpenOp) (d : ScanDesc) : List Nat := if d.acl.isSome then slotsOf (p.filt + 64) 8192 else []

/-- A QOPEN that has started. -/
def openedFlight (f : Flight) (d : ScanDesc) : Flight :=
  { f with
    started := true
    cycles := 24 + (if d.acl.isSome then 64 else 0)
    reads := (f.reads ++ aclSlots (qOpenOp f.word.o) d).eraseDups
    rel := (f.rel ++ aclSlots (qOpenOp f.word.o) d).eraseDups }

theorem qBegin_qopen {k : Core} {u : UnitDesc} {f : Flight} {d : ScanDesc} (hop : f.word.opcode = 1) (hreads : readGate k f.reads = .pass)
    (hd : scanDescAt k.bytes (qOpenOp f.word.o).desc (qOpenOp f.word.o).filt = d)
    (hacl : (d.acl.isNone || rangeOk u ((qOpenOp f.word.o).filt + 64) 8192) = true)
    (haclSlots : readGate k (aclSlots (qOpenOp f.word.o) d) = .pass)
    (hok : scanDescOk k.bytes (qOpenOp f.word.o).desc (qOpenOp f.word.o).filt d = true) :
    qBegin k u f = .go (setColl k (qOpenOp f.word.o).coll (openedColl (qOpenOp f.word.o) d)) (openedFlight f d) := by
  unfold aclSlots at haclSlots
  simp only [qBegin, hreads, hop, if_true, hd, hacl, hok, haclSlots, Bool.not_true, Bool.false_eq_true, if_false]
  rfl

theorem qopen_opensACollector : qopenOpensACollector := by
  intro s core h o r d hi hc hfull hd hacl hok
  have haclRange : (d.acl.isNone || rangeOk r.desc ((qOpenOp o).filt + 64) 8192) = true := by
    obtain hnone | ⟨hrange, -⟩ := hacl
    · simp [hnone]
    · simp [hrange]
  have haclFull : allFull (coreOf s core.toNat) (aclSlots (qOpenOp o) d) := by
    unfold aclSlots
    obtain hnone | ⟨-, hslots⟩ := hacl
    · simp [hnone, allFull]
    · split
      · exact hslots
      · simp [allFull]
  have hcycles : 24 + (if d.acl.isSome then 64 else 0) = if d.acl = none then 24 else 88 := by cases d.acl <;> rfl
  rw [← issuedFlight_bytes (coreOf s core.toNat) r ⟨4, 1, h, o⟩] at hd hok
  have hbegin := qBegin_qopen (u := r.desc) (f := flightOf (coreOf s core.toNat) r ⟨4, 1, h, o⟩) rfl (readGate_issuedFlight hfull ..)
    hd.symm haclRange (readGate_issuedFlight haclFull ..) hok
  have hstarts := search_starts hi hc hbegin rfl rfl rfl (runs_search rfl rfl (.inl rfl))
  exact ⟨_, congrArg Host.Outcome.next hstarts, collOf_setColl_same .., fun n hn => (collOf_setColl_other _ _ hn).trans (collOf_issuedFlight ..),
    congrArg (fun n => [((⟨4, 1, h, o⟩ : EWord), true, n)]) hcycles, issuedFlight_bytes _ r _, issuedFlight_slots _ r _,
    issuedFlight_scalars _ r _⟩

/-! ### QSCAN (R98, R264) -/

/-- A context that runs under number `n`. -/
def launchedCtx (n : Nat) (x : QCtx) : QCtx := { x with num := n, state := .waiting }

/-- R98: new contexts take the numbers in order while there are any. -/
theorem launchCtx_free {ns : List Nat} {l : List QCtx} (h : ∀ x ∈ l, x.state = .free) (hlen : l.length ≤ ns.length) :
    launchCtx ns l = List.zipWith launchedCtx ns l := by
  induction l generalizing ns with
  | nil => unfold launchCtx; simp
  | cons x l ih =>
    cases ns with
    | nil => exact absurd hlen (Nat.not_succ_le_zero _)
    | cons n ns =>
      rw [launchCtx, if_pos (h x List.mem_cons_self), ih (fun y hy => h y (List.mem_cons_of_mem x hy)) (Nat.le_of_succ_le_succ hlen)]
      rfl

/-- The contexts of a QSCAN as its probe entries give them. -/
def probes (m : List Host.Cell) (p : QScanOp) : List QCtx := (List.range p.n).map (fun i => probeAt m (p.probe + 16 * i))

/-- The contexts of a QSCAN that finds every number free. -/
def scanCtxs (m : List Host.Cell) (p : QScanOp) : List QCtx := List.zipWith launchedCtx (List.range 4096) (probes m p)

theorem waiting_of_mem_scanCtxs {m : List Host.Cell} {p : QScanOp} {x : QCtx} (h : x ∈ scanCtxs m p) : x.state = .waiting := by
  obtain ⟨i, hi, rfl⟩ := List.mem_iff_getElem.mp h
  simp [scanCtxs, launchedCtx]

/-- A probe list has at most as many entries as there are context numbers. -/
theorem qScanOp_n_le (o : Ops88) : (qScanOp o).n ≤ 4096 := (o.extractLsb' 22 12).isLt

theorem length_scanCtxs (m : List Host.Cell) (o : Ops88) : (scanCtxs m (qScanOp o)).length = (qScanOp o).n := by
  simp [scanCtxs, probes, qScanOp_n_le]

theorem getElem_scanCtxs (m : List Host.Cell) (p : QScanOp) {i : Nat} (hi : i < (scanCtxs m p).length) :
    (scanCtxs m p)[i] = launchedCtx i (probeAt m (p.probe + 16 * i)) := by
  simp [scanCtxs, probes]

/-- With no context running every number is free. -/
theorem freeNumbers_none (limit : Nat) : freeNumbers limit [] = List.range limit := by
  simp [freeNumbers]

theorem launchCtx_probes (m : List Host.Cell) (o : Ops88) :
    launchCtx (freeNumbers 4096 []) (probes m (qScanOp o)) = scanCtxs m (qScanOp o) := by
  rw [freeNumbers_none, launchCtx_free, scanCtxs]
  · simp [probes, probeAt]
  · simp [probes, qScanOp_n_le]

/-- A QSCAN that has started. -/
def scannedFlight (f : Flight) (m : List Host.Cell) : Flight :=
  { f with
    started := true
    reads := (f.reads ++ ((probes m (qScanOp f.word.o)).flatMap (fun x => slotsOf x.header 64)).eraseDups).eraseDups
    rel := (f.rel ++ ((probes m (qScanOp f.word.o)).flatMap (fun x => slotsOf x.header 64)).eraseDups).eraseDups
    cycles := 0
    work := .scan (qScanOp f.word.o).coll (scanCtxs m (qScanOp f.word.o)) }

theorem qBegin_qscan {k : Core} {f : Flight} (hop : f.word.opcode = 2) (hreads : readGate k f.reads = .pass)
    (hopen : (collOf k (qScanOp f.word.o).coll).isOpen = true) (hnumbers : qNumbers k = []) (u : UnitDesc) :
    qBegin k u f = .go k (scannedFlight f k.bytes) := by
  have hlaunch := launchCtx_probes k.bytes f.word.o
  unfold probes at hlaunch
  simp [qBegin, hreads, hop, hopen, hnumbers, hlaunch, scannedFlight, probes]

theorem runs_scannedFlight {f : Flight} (he : f.word.engine = engQ) (m : List Host.Cell) : Runs (scannedFlight f m) :=
  runs_search rfl he (.inr (.inr ⟨_, _, rfl, fun _ => waiting_of_mem_scanCtxs⟩))

theorem qscan_launchesItsContexts : qscanLaunchesItsContexts := by
  intro s core h o r hi hc hfull hopen
  rw [← collOf_issuedFlight (coreOf s core.toNat) r ⟨4, 2, h, o⟩] at hopen
  have hbegin := qBegin_qscan (f := flightOf (coreOf s core.toNat) r ⟨4, 2, h, o⟩) rfl (readGate_issuedFlight hfull ..) hopen rfl r.desc
  rw [issuedFlight_bytes] at hbegin
  have hstarts := search_starts hi hc hbegin rfl rfl rfl (runs_scannedFlight rfl _)
  refine ⟨_, _, congrArg Host.Outcome.next hstarts, rfl, rfl, rfl, length_scanCtxs .., fun i hl => ?_⟩
  have hlt : i < 4096 := Nat.lt_of_lt_of_le hl (Nat.le_trans (Nat.le_of_eq (length_scanCtxs ..)) (qScanOp_n_le o))
  rw [if_pos hlt, if_pos hlt]
  exact getElem_scanCtxs _ _ hl

/-! ### What a drain writes (R265) -/

/-- The first 32 bytes of the summary. -/
def drainCounts (c : Collector) : List Byte :=
  leBytes 4 c.entries.length ++ leBytes 4 c.k ++ leBytes 8 c.scored ++ leBytes 4 c.filtered ++ leBytes 4 c.tombstoned
    ++ leBytes 4 c.scanned ++ leBytes 4 c.skipped

/-- The other 32: the floor and zeros. -/
def drainFloor (c : Collector) : List Byte :=
  leBytes 4 (match floorOf c with | some f => intBits 32 f | none => 0x80000000) ++ List.replicate 28 0#8

/-- A line behind the summary: an entry, or the fill. -/
def drainLine : Option Held → List Byte
  | some e => leBytes 4 (intBits 32 e.score) ++ leBytes 4 e.tag ++ leBytes 8 e.pid
  | none => fillEntry

/-- The lines behind the summary: the entries in order, then fill up to K. -/
def drainLines (c : Collector) : List (Option Held) := c.entries.map some ++ List.replicate (c.k - c.entries.length) none

theorem drainBytes_eq (c : Collector) : drainBytes c = drainCounts c ++ drainFloor c ++ (drainLines c).flatMap drainLine := by
  simp only [drainBytes, drainCounts, drainFloor, drainLines, List.flatMap_append, List.flatMap_map, List.append_assoc]
  rw [List.flatMap_replicate, List.flatMap_replicate]
  rfl

@[simp] theorem length_drainCounts (c : Collector) : (drainCounts c).length = 32 := by simp [drainCounts]
@[simp] theorem length_drainFloor (c : Collector) : (drainFloor c).length = 32 := by simp [drainFloor]

theorem length_drainLine (e : Option Held) : (drainLine e).length = 16 := by cases e <;> simp [drainLine, fillEntry]

section
variable {c : Collector} (hfits : c.entries.length ≤ c.k)
include hfits

theorem length_drainLines : (drainLines c).length = c.k := by
  simp only [drainLines, List.length_append, List.length_map, List.length_replicate]
  omega

theorem length_drainBytes : (drainBytes c).length = 64 + 16 * c.k := by
  simp only [drainBytes_eq, List.length_append, length_drainCounts, length_drainFloor, List.length_flatMap, length_drainLine,
    List.map_const', List.sum_replicate_nat, length_drainLines hfits]
  omega

/-- The summary read back. -/
theorem readBytes_drain_counts (m : List Host.Cell) (a : Nat) : readBytes (writeBytes m a (drainBytes c)) a 32 = drainCounts c := by
  have hpart := readBytes_writeBytes_part m a (drainBytes c) (i := 0) (n := 32) (by rw [length_drainBytes hfits]; omega)
  rw [Nat.add_zero, List.drop_zero] at hpart
  rw [hpart, drainBytes_eq, List.append_assoc, List.take_left' (length_drainCounts c)]

/-- Line `i` read back. -/
theorem readBytes_drain_line (m : List Host.Cell) (a : Nat) {i : Nat} (hi : i < (drainLines c).length) :
    readBytes (writeBytes m a (drainBytes c)) (a + 64 + 16 * i) 16 = drainLine (drainLines c)[i] := by
  have hk : i < c.k := by rwa [length_drainLines hfits] at hi
  have hpart := readBytes_writeBytes_part m a (drainBytes c) (i := 64 + 16 * i) (n := 16) (by rw [length_drainBytes hfits]; omega)
  have hhead : (drainCounts c ++ drainFloor c).length = 64 := by simp
  rw [Nat.add_assoc, hpart, drainBytes_eq, ← List.drop_drop, List.drop_left' hhead, take_drop_flatMap length_drainLine hi]

theorem readBytes_drain_entry (m : List Host.Cell) (a : Nat) {i : Nat} (hi : i < c.entries.length) :
    readBytes (writeBytes m a (drainBytes c)) (a + 64 + 16 * i) 16
      = leBytes 4 (intBits 32 c.entries[i].score) ++ leBytes 4 c.entries[i].tag ++ leBytes 8 c.entries[i].pid := by
  have hline : i < (drainLines c).length := by rw [length_drainLines hfits]; omega
  have hentry : (drainLines c)[i] = some c.entries[i] := by simp [drainLines, hi]
  rw [readBytes_drain_line hfits m a hline, hentry]
  rfl

theorem readBytes_drain_fill (m : List Host.Cell) (a : Nat) {i : Nat} (hi : c.entries.length ≤ i) (hk : i < c.k) :
    readBytes (writeBytes m a (drainBytes c)) (a + 64 + 16 * i) 16 = fillEntry := by
  have hline : i < (drainLines c).length := by rwa [length_drainLines hfits]
  have hfill : (drainLines c)[i] = none := by simp [drainLines, List.getElem_append_right, hi]
  rw [readBytes_drain_line hfits m a hline, hfill]
  rfl

theorem drain_sameOutside (m : List Host.Cell) (a : Nat) : sameOutside m (writeBytes m a (drainBytes c)) a (64 + 16 * c.k) := by
  intro x hx
  rw [← length_drainBytes hfits] at hx
  exact readByte_writeBytes_outside m a _ x hx

end

/-! ### QDRAIN (R265) -/

/-- Slots that are EMPTY or FULL, of no ring that a stream reads, can be written (R90, R130). -/
theorem writeGate_allFree {k : Core} {engine : Nat} {l : List Nat} (h : allFree k l) (hring : ∀ n, heldByRing k n = false) :
    writeGate k engine false l = .pass := by
  induction l with
  | nil => rfl
  | cons n l ih =>
    have hrest := ih fun m hm => h m (List.mem_cons_of_mem n hm)
    obtain hempty | hfull := h n List.mem_cons_self
    · simp only [writeGate, hempty, hrest]
    · simp only [writeGate, hfull, hring, hrest, Bool.false_and, Bool.or_false, Bool.false_eq_true, if_false]

/-- What neither a slot's state nor its descriptor holds stays while an engine marks the slots it writes. -/
theorem markSlots_part {β : Type} (g : Core → β) (hstate : ∀ k n v, g (setSlot k n v) = g k) (hdesc : ∀ k n len, g (wroteSlot k n len) = g k)
    (k : Core) (slots : List Nat) (len : Nat → Nat) : g (slots.foldl (fun k n => wroteSlot k n (len n)) (fillSlots k slots)) = g k := by
  have hfold : ∀ (f : Core → Nat → Core), (∀ k n, g (f k n) = g k) → ∀ k : Core, g (slots.foldl f k) = g k := by
    intro f hf
    induction slots with
    | nil => intro k; rfl
    | cons n slots ih => intro k; rw [List.foldl_cons, ih, hf]
  rw [hfold _ fun k n => hdesc k n (len n), fillSlots, hfold _ fun k n => hstate k n .filling]

theorem engineWrite_bytes (k : Core) (slots : List Nat) (l : List (Nat × List Byte)) : (engineWrite k slots l).bytes = putRanges k.bytes l :=
  congrArg (putRanges · l) (markSlots_part Core.bytes (fun _ _ _ => rfl) (fun _ _ _ => rfl) k slots (bytesPut l))

/-- An engine's write touches slots only. -/
theorem apartFromSlots_engineWrite (k : Core) (slots : List Nat) (l : List (Nat × List Byte)) :
    apartFromSlots (engineWrite k slots l) = apartFromSlots k :=
  markSlots_part apartFromSlots (fun _ _ _ => rfl) (fun _ _ _ => rfl) k slots (bytesPut l)

/-- The slots that a drain writes. -/
def drainSlots (p : QDrainOp) (c : Collector) : List Nat := slotsOf p.out (64 + 16 * c.k)

/-- The core that a QDRAIN leaves: its collector written and closed. -/
def drainedCore (k : Core) (p : QDrainOp) (c : Collector) : Core :=
  setColl (engineWrite k (drainSlots p c) [(p.out, drainBytes c)]) p.coll collClosed

/-- A QDRAIN that has started. -/
def drainedFlight (f : Flight) (c : Collector) : Flight :=
  { f with
    started := true
    writes := drainSlots (qDrainOp f.word.o) c
    cycles := 24 + ceilDiv c.k 4
    work := .drain (qDrainOp f.word.o).coll }

theorem drainedCore_bytes (k : Core) (p : QDrainOp) (c : Collector) :
    (drainedCore k p c).bytes = writeBytes k.bytes p.out (drainBytes c) := engineWrite_bytes k (drainSlots p c) [(p.out, drainBytes c)]

theorem drainedCore_run (k : Core) (p : QDrainOp) (c : Collector) : (drainedCore k p c).run = k.run :=
  (congrArg Core.run (apartFromSlots_engineWrite k (drainSlots p c) [(p.out, drainBytes c)]) :)

theorem drainedCore_flights (k : Core) (p : QDrainOp) (c : Collector) : (drainedCore k p c).flights = k.flights :=
  (congrArg Core.flights (apartFromSlots_engineWrite k (drainSlots p c) [(p.out, drainBytes c)]) :)

theorem collOf_drainedCore_same (k : Core) (p : QDrainOp) (c : Collector) : collOf (drainedCore k p c) p.coll = collClosed :=
  collOf_setColl_same ..

theorem collOf_drainedCore_other (k : Core) (p : QDrainOp) (c : Collector) {n : Nat} (h : n ≠ p.coll) :
    collOf (drainedCore k p c) n = collOf k n :=
  (collOf_setColl_other _ _ h).trans
    (collOf_of_colls (congrArg Core.colls (apartFromSlots_engineWrite k (drainSlots p c) [(p.out, drainBytes c)])) n)

theorem qBegin_qdrain {k : Core} {u : UnitDesc} {f : Flight} {c : Collector} (hop : f.word.opcode = 3) (hreads : readGate k f.reads = .pass)
    (hcoll : collOf k (qDrainOp f.word.o).coll = c) (hopen : c.isOpen = true)
    (hrange : rangeOk u (qDrainOp f.word.o).out (64 + 16 * c.k) = true) (hend : (qDrainOp f.word.o).out + 64 + 16 * c.k ≤ 192 * 16384)
    (hscans : scansOpen k (qDrainOp f.word.o).coll = false)
    (hwrites : writeGate k engQ false (drainSlots (qDrainOp f.word.o) c) = .pass) :
    qBegin k u f = .go (drainedCore k (qDrainOp f.word.o) c) (drainedFlight f c) := by
  unfold drainSlots at hwrites
  simp [qBegin, hreads, hop, hcoll, hopen, hrange, tileBytes, hend, hscans, hwrites, drainedCore, drainedFlight, drainSlots]

theorem qdrain_writesAndCloses : qdrainWritesAndCloses := by
  intro s core h o r cl hi hc hcl hopen hfits hend hrange hfree
  have hcoll : collOf (issuedFlight (coreOf s core.toNat) r ⟨4, 3, h, o⟩) (qDrainOp o).coll = cl := (collOf_issuedFlight ..).trans hcl.symm
  have hslots : allFree (issuedFlight (coreOf s core.toNat) r ⟨4, 3, h, o⟩) (drainSlots (qDrainOp o) cl) := by
    intro n hn
    rw [slotOf, issuedFlight_slots]
    exact hfree n hn
  have hbegin := qBegin_qdrain (u := r.desc) (f := flightOf (coreOf s core.toNat) r ⟨4, 3, h, o⟩) rfl rfl hcoll hopen hrange hend rfl
    (writeGate_allFree hslots fun _ => rfl)
  have hstarts := search_starts hi hc hbegin (drainedCore_run ..) (drainedCore_flights ..) rfl (runs_search rfl rfl (.inr (.inl ⟨_, rfl⟩)))
  have hbytes : (drainedCore (issuedFlight (coreOf s core.toNat) r ⟨4, 3, h, o⟩) (qDrainOp o) cl).bytes
      = writeBytes (coreOf s core.toNat).bytes (qDrainOp o).out (drainBytes cl) := by
    rw [drainedCore_bytes, issuedFlight_bytes]
  refine ⟨_, congrArg Host.Outcome.next hstarts, congrArg Collector.isOpen (collOf_drainedCore_same ..),
    fun n hn => (collOf_drainedCore_other _ _ _ hn).trans (collOf_issuedFlight ..), ?_⟩
  dsimp only [flightOf]
  rw [hbytes]
  exact ⟨readBytes_drain_counts hfits _ _, fun i hentry => readBytes_drain_entry hfits _ _ hentry,
    fun i hbeyond hlt => readBytes_drain_fill hfits _ _ hbeyond hlt, drain_sameOutside hfits _ _, rfl⟩

/-- Settles O11: QOPEN, QSCAN and QDRAIN start with their issue, and the collector, the contexts and the bytes are what their start makes of
them. -/
theorem searchCommands : Obligations.SearchCommands := by
  unfold Obligations.SearchCommands
  exact ⟨qopen_opensACollector, qscan_launchesItsContexts, qdrain_writesAndCloses⟩

end Sys2Proof.Machine
end

section
/-!
PROOF. Scans of the Understory (R300 to R302): opened, fed, scored, drained and closed, and O46.
-/
namespace Sys2Proof.Machine

open Sys2Proof.Claims

/-! ### The scans of a module -/

/-- A scan that is found is of that channel and that query. -/
theorem findScan_key {s : State} {c : Nat} {tag : W64} {x : UScan} (h : findScan s c tag = some x) : x.channel = c ∧ x.tag = tag.toNat := by
  simpa using List.find?_some h

theorem findScan_putScan_same {s : State} {c : Nat} {tag : W64} {x y : UScan} (h : findScan s c tag = some x)
    (hchannel : y.channel = x.channel) (htag : y.tag = x.tag) : findScan (putScan s y) c tag = some y := by
  obtain ⟨rfl, hx⟩ := findScan_key h
  have hkey : ∀ z : UScan, (((if z.channel == y.channel && z.tag == y.tag then y else z).channel == x.channel
      && (if z.channel == y.channel && z.tag == y.tag then y else z).tag == tag.toNat))
      = (z.channel == x.channel && z.tag == tag.toNat) := by
    intro z
    split
    next hz => simp_all
    · rfl
  simp only [findScan, putScan, List.find?_map, Function.comp_def, hkey]
  rw [show s.under.scans.find? _ = some x from h, Option.map_some, hchannel, htag]
  simp

@[simp] theorem findScan_dropScan_same (s : State) (c : Nat) (tag : W64) : findScan (dropScan s c tag.toNat) c tag = none :=
  List.find?_eq_none.mpr fun x hx => by simpa only [Bool.not_eq_true', Bool.not_eq_true] using (List.mem_filter.mp hx).2

theorem findScan_dropScan_other (s : State) {c d : Nat} {tag g : W64} (h : d ≠ c ∨ g ≠ tag) :
    findScan (dropScan s c tag.toNat) d g = findScan s d g := by
  simp only [findScan, dropScan, List.find?_filter]
  refine congrArg (List.find? · s.under.scans) (funext fun x => ?_)
  rw [← BitVec.toNat_ne_iff_ne] at h
  by_cases hx : x.channel = d ∧ x.tag = g.toNat
  · obtain ⟨rfl, hg⟩ := hx
    simp [hg, h]
  · have hother : (x.channel == d && x.tag == g.toNat) = false := by simpa using hx
    simp [hother]

/-- The state with one more scan, the last of the list. -/
def withScan (s : State) (x : UScan) : State := { s with under := { s.under with scans := s.under.scans ++ [x] } }

theorem findScan_withScan_same {s : State} {x : UScan} {tag : W64} (hnone : findScan s x.channel tag = none) (htag : x.tag = tag.toNat) :
    findScan (withScan s x) x.channel tag = some x := by
  simp only [findScan, withScan, List.find?_append]
  rw [show s.under.scans.find? _ = none from hnone]
  simp [htag]

theorem findScan_withScan_other {s : State} {x : UScan} {d : Nat} {g : W64} (h : x.channel ≠ d ∨ x.tag ≠ g.toNat) :
    findScan (withScan s x) d g = findScan s d g := by
  have hx : [x].find? (fun y => y.channel == d && y.tag == g.toNat) = none := by
    rcases h with h | h <;> simp [h]
  simp only [findScan, withScan, List.find?_append, hx, Option.or_none]

/-! ### OPEN, TABLES and CLOSE (R300) -/

/-- The scan that an OPEN begins (R300). -/
def openedScan (c : Nat) (o : ScanOpen) : UScan :=
  ⟨c, o.tag.toNat, openDesc o, o.key, ⟨true, o.k, [], 0, 0, 0, 0, 0, openDesc o⟩, [], []⟩

theorem length_unitScans_dropScan (s : State) (c tag u : Nat) : (unitScans (dropScan s c tag) u).length ≤ (unitScans s u).length :=
  (List.filter_sublist.filter (fun x : UScan => unitFor s x.channel == some u)).length_le

/-- A unit with room begins the scan, and ends one of the same query that it held. -/
theorem understoryOpen_next {s : State} {c : Byte} {o : ScanOpen} {u : Nat} (hunit : unitFor s c.toNat = some u) (hok : openOk o = true)
    (hroom : (unitScans s u).length < 64) :
    exec (.understoryOpen c o) s = .next (withScan (dropScan s c.toNat o.tag.toNat) (openedScan c.toNat o)) := by
  have hfits : ¬ 64 ≤ (unitScans (dropScan s c.toNat o.tag.toNat) u).length := by
    have := length_unitScans_dropScan s c.toNat o.tag.toNat u
    omega
  change execUnderstoryOpen c o s = _
  simp only [execUnderstoryOpen, hunit, hok, hfits, Bool.not_true, decide_false, Bool.or_self, Bool.false_eq_true, if_false]
  rfl

theorem understoryTables_next {s : State} {c : Byte} {tag : W64} {u : Nat} {x : UScan} {ts : TableSet} (hunit : unitFor s c.toNat = some u)
    (hscan : findScan s c.toNat tag = some x) (hpages : pagesUsed s u + tablePages x.desc ≤ 1024) :
    exec (.understoryTables c tag ts) s = .next (putScan s { x with tables := x.tables ++ [ts] }) := by
  change execUnderstoryTables c tag ts s = _
  simp only [execUnderstoryTables, hunit, hscan, if_pos hpages]

/-! ### Work of a scan (R301, R302) -/

/-- What a transfer draws on are the regulators and the places held before them (R430). -/
theorem drawTokens_parts {s t : State} {set n : Nat} {x : Resource} {admitted : Bool} {k : Ticket}
    (h : drawTokens s set x n admitted k = some t) : ∃ regs holds, t = { s with regs := regs, holds := holds } := by
  unfold drawTokens at h
  split at h
  · exact ⟨_, _, (Option.some.inj h).symm⟩
  · split at h
    · cases h
    · split at h
      · cases h
      · obtain ⟨b, -, rfl⟩ := Option.map_eq_some_iff.mp h
        exact ⟨_, _, rfl⟩

theorem scanDraw_parts {s t : State} {x : UScan} {r : Resource} {n which : Nat} (h : scanDraw s x r n which = some t) :
    ∃ regs holds, t = { s with regs := regs, holds := holds } := by
  unfold scanDraw at h
  split at h
  · exact drawTokens_parts h
  · exact ⟨_, _, (Option.some.inj h).symm⟩

section
variable {s t : State} {c : Byte} {tag : W64} {u : Nat} {x : UScan} {coll : Collector} {w : UTodo}
  (hunit : unitFor s c.toNat = some u) (hscan : findScan s c.toNat tag = some x) (htodo : x.todo = [])
include hunit hscan htodo

/-- The one piece of work of a scan that has nothing else to do, done. -/
theorem addWork_go (hstep : scanStep s x w = .go t coll) : addWork s c.toNat tag [w] = putScan t { x with coll := coll } := by
  simp only [addWork, hscan, hunit, Option.isSome_some, if_true, htodo, List.nil_append, runScan, hstep]

/-- A segment gone over: the scan holds its new collector. -/
theorem understorySegments_go {n : Nat} {ts : TableSet} {seg : SegmentRef} (htables : x.tables[n]? = some ts)
    (hone : scanOne s x ts seg = .go t coll) (hunder : t.under = s.under) (hmedia : t.media = s.media) :
    ∃ t, exec (.understorySegments c tag n [seg]) s = .next t ∧ findScan t c.toNat tag = some { x with coll := coll } ∧ t.media = s.media := by
  have hstep : scanStep s x (.seg n seg) = .go t coll := by simp only [scanStep, htables, hone]
  have hfound : findScan t c.toNat tag = some x := by rw [findScan, hunder]; exact hscan
  exact ⟨_, congrArg Host.Outcome.next (addWork_go hunit hscan htodo hstep), findScan_putScan_same hfound rfl rfl, hmedia⟩

end

/-- R267: a segment whose bound lies below the floor is not read. -/
theorem scanOne_skips {s : State} {x : UScan} {ts : TableSet} {seg : SegmentRef} (h : skips x.coll (setBound x.desc (viewOf ts)) = true) :
    scanOne s x ts seg = .go s { x.coll with skipped := x.coll.skipped + 1 } := by
  simp only [scanOne, h, if_true]

/-- R302: a segment that stands, whose page may be read and whose head agrees, is scored record by record. -/
theorem scanOne_scores {s s2 : State} {x : UScan} {ts : TableSet} {seg : SegmentRef}
    (hskip : skips x.coll (setBound x.desc (viewOf ts)) = false) (hchannel : t3Channel seg.tile = x.channel)
    (hlost : channelLost s x.channel = false) (hfull : dState (tileDesc s (t3Base + seg.tile)) = 2)
    (hdraw : scanDraw s x .t3 (16384 * pageReads s x.channel) 0 = some s2)
    (htag : tagOk x.desc (tileDesc s (t3Base + seg.tile)) (viewOf ts).word (segCount (unitView s x seg.tile) ((t3Base + seg.tile) * 16384))
      (segWord (unitView s x seg.tile) ((t3Base + seg.tile) * 16384)) = true) :
    scanOne s x ts seg = .go (pageOp s2)
      (scanSegment (viewOf ts) (unitView s x seg.tile) ((t3Base + seg.tile) * 16384) (tombBytes seg.tombs) x.coll) := by
  have hview : unitView s2 x seg.tile = unitView s x seg.tile := by
    obtain ⟨regs, holds, rfl⟩ := scanDraw_parts hdraw
    rfl
  have hdesc : tileDesc (pageOp s2) (t3Base + seg.tile) = tileDesc s (t3Base + seg.tile) := by
    obtain ⟨regs, holds, rfl⟩ := scanDraw_parts hdraw
    simp [tileDesc]
  simp [scanOne, hskip, hchannel, hlost, hfull, hdraw, htag, hview, hdesc, tileBytes, tilePoisoned, tileFull]

/-! ### DRAIN (R302) -/

/-- The descriptor of a candidate tile: untyped, FULL, of the drain's length. -/
def candidateDesc (d : BitVec 512) (len : Nat) : BitVec 512 := setDState (setFld (setFld d 2 4 0) 32 15 len) tileFull

theorem dState_candidateDesc (d : BitVec 512) (len : Nat) : dState (candidateDesc d len) = 2 :=
  fld_setFld_same _ 0 2 2 (by omega)

theorem dKind_candidateDesc (d : BitVec 512) (len : Nat) : dKind (candidateDesc d len) = 0 := by
  rw [dKind, candidateDesc, setDState, fld_setFld_other _ _ _ _ _ _ (by omega) (by omega),
    fld_setFld_other _ _ _ _ _ _ (by omega) (by omega), fld_setFld_same _ _ _ _ (by omega), Nat.zero_mod]

theorem dLength_candidateDesc (d : BitVec 512) {len : Nat} (h : len < 2 ^ 15) : dLength (candidateDesc d len) = len := by
  rw [dLength, candidateDesc, setDState, fld_setFld_other _ _ _ _ _ _ (by omega) (by omega), fld_setFld_same _ _ _ _ (by omega)]
  exact Nat.mod_eq_of_lt h

/-- The candidate tile's bytes: what the drain writes, then zeros to the end of the tile. -/
def candidateBytes (x : UScan) : List Byte := drainBytes x.coll ++ List.replicate (16384 - (64 + 16 * x.coll.k)) 0#8

theorem candidateTile_eq (s : State) (x : UScan) (dest : Nat) : candidateTile s x dest
    = setTile (setDevBytes s (writeBytes s.media.bytes (dest * 16384) (candidateBytes x))) dest
        (candidateDesc (tileDesc s dest) (64 + 16 * x.coll.k)) := rfl

section
variable {x : UScan} (hk : x.coll.k ≤ 256) (hfits : x.coll.entries.length ≤ x.coll.k)
include hfits

theorem readBytes_candidate (m : List Host.Cell) (a : Nat) :
    readBytes (writeBytes m a (candidateBytes x)) a (64 + 16 * x.coll.k) = drainBytes x.coll := by
  have hlen := length_drainBytes hfits
  have hpart := readBytes_writeBytes_part m a (candidateBytes x) (i := 0) (n := 64 + 16 * x.coll.k)
    (by rw [candidateBytes, List.length_append, hlen]; omega)
  rwa [Nat.add_zero, List.drop_zero, candidateBytes, List.take_left' hlen] at hpart

include hk

theorem candidate_sameOutside (m : List Host.Cell) (a : Nat) : sameOutside m (writeBytes m a (candidateBytes x)) a 16384 := by
  have hlen : (candidateBytes x).length = 16384 := by
    rw [candidateBytes, List.length_append, length_drainBytes hfits, List.length_replicate]
    omega
  intro y hy
  exact readByte_writeBytes_outside m a _ y (by rwa [hlen])

end

/-- A drain into an EMPTY tile whose transfer may start fills the tile, and no core goes on. -/
theorem understoryDrain_next {s s2 : State} {c : Byte} {tag : W64} {u dest : Nat} {x : UScan} (hunit : unitFor s c.toNat = some u)
    (hscan : findScan s c.toNat tag = some x) (htodo : x.todo = []) (hdest : dest < t2Tiles) (hempty : dState (tileDesc s dest) = 0)
    (hrest : restAll s) (hdraw : scanDraw s x .t2 (64 + 16 * x.coll.k) 1 = some s2) :
    exec (.understoryDrain c tag dest) s = .next (putScan (candidateTile s2 x dest) x) := by
  have hstep : scanStep s x (.drain dest) = .go (candidateTile s2 x dest) x.coll := by
    simp [scanStep, drainOne, Nat.not_le.mpr hdest, hempty, hdraw, tileEmpty]
  have hstays : restAll (putScan (candidateTile s2 x dest) x) := by
    obtain ⟨regs, holds, rfl⟩ := scanDraw_parts hdraw
    exact hrest
  change Host.Outcome.next (goAll (addWork s c.toNat tag [.drain dest]) 0) = _
  rw [addWork_go hunit hscan htodo hstep, goAll_rest _ 0 hstays]

/-- Settles O46: an OPEN, TABLES and CLOSE change the scans of their query alone; a segment is skipped or scored into the scan's collector;
a drain fills its tile from the collector, and no core at rest goes on. -/
theorem understoryScans : Obligations.UnderstoryScans := by
  unfold Obligations.UnderstoryScans
  intro s c tag
  refine ⟨?_, ⟨_, rfl, findScan_dropScan_same .., fun d g h => findScan_dropScan_other s h, rfl, rfl⟩, ?_⟩
  · rintro o u rfl hunit hok hroom
    refine ⟨_, _, understoryOpen_next hunit hok hroom, findScan_withScan_same (x := openedScan c.toNat o) (findScan_dropScan_same ..) rfl,
      rfl, rfl, rfl, rfl, fun d g h => ?_, rfl⟩
    rw [findScan_withScan_other, findScan_dropScan_other s h]
    exact h.imp Ne.symm fun hg => BitVec.toNat_ne_iff_ne.mpr hg.symm
  · intro u x hunit hscan
    refine ⟨fun ts hpages => ⟨_, understoryTables_next hunit hscan hpages, findScan_putScan_same hscan rfl rfl, rfl⟩,
      fun htodo => ⟨?_, ?_, ?_⟩⟩
    · intro n ts seg htables hskip
      exact understorySegments_go hunit hscan htodo htables (scanOne_skips hskip) rfl rfl
    · intro n ts seg s2 htables hskip hchannel hlost hfull hdraw htag
      have hone := scanOne_scores hskip hchannel hlost hfull hdraw htag
      obtain ⟨regs, holds, rfl⟩ := scanDraw_parts hdraw
      exact understorySegments_go hunit hscan htodo htables hone (pageOp_under _) (pageOp_media _)
    · intro dest s2 hdest hempty hk hfits hrest hdraw
      refine ⟨_, understoryDrain_next hunit hscan htodo hdest hempty hrest hdraw, ?_⟩
      obtain ⟨regs, holds, rfl⟩ := scanDraw_parts hdraw
      rw [candidateTile_eq]
      have hdesc : ∀ t d, tileDesc (putScan (setTile t dest d) x) dest = d := fun t d => tileDesc_setTile_same t dest d
      rw [hdesc]
      exact ⟨dState_candidateDesc .., dKind_candidateDesc .., dLength_candidateDesc _ (by omega), readBytes_candidate hfits _ _,
        candidate_sameOutside hk hfits _ _, findScan_putScan_same hscan rfl rfl⟩

end Sys2Proof.Machine
end

section
/-!
PROOF. Items under way (R285 to R289): their text, their staged passages, their journal records, reads that fail, and O41.
-/
namespace Sys2Proof.Machine

/-! ### Reads of host memory (R384) -/

/-- What a read from the host is charged to is its regulator set (R431). -/
theorem chargeTokens_parts (s : State) (set : Nat) (x : Resource) (n : Nat) (admitted : Bool) :
    ∃ regs, chargeTokens s set x n admitted = { s with regs := regs } := by
  unfold chargeTokens
  split
  · exact ⟨_, rfl⟩
  · exact ⟨_, rfl⟩

/-- A request that Wenik ends with another status than those of CANCEL and withdrawn rights completes (R44). -/
theorem endRequest_completes (s : State) (q : Req) {status : Nat} (detail flags : Nat) (hcancel : status ≠ stCancelled)
    (hdenied : status ≠ stDenied) : ∃ t e, endRequest s q status detail flags = completeReq t q e := by
  unfold endRequest
  split
  next v _ =>
    simp only [endSequence, endServe, beq_false_of_ne hcancel, beq_false_of_ne hdenied, Bool.or_self, Bool.false_and, Bool.false_eq_true,
      if_false]
    split <;> exact ⟨_, _, rfl⟩
  all_goals exact ⟨_, _, rfl⟩

theorem endRequest_ends (s : State) (q : Req) {status : Nat} (detail flags : Nat) (hcancel : status ≠ stCancelled)
    (hdenied : status ≠ stDenied) : ∀ x ∈ (endRequest s q status detail flags).reqs, x.id ≠ q.id := by
  obtain ⟨t, e, heq⟩ := endRequest_completes s q detail flags hcancel hdenied
  rw [heq]
  exact completeReq_ends t q e

/-- A read of a body that brings no data ends the request as invalid. -/
theorem readDone_bodyFails (s : State) (q : Req) {e : ReadEnd} (text : List Byte) (ok : Bool) (ft path : List Byte) (obj : Option ObjectEntry)
    (he : e ≠ .data) : ∃ t detail, readDone s q .body e text ok ft path obj = endRequest t q stInvalid detail 0 := by
  cases e with
  | data => exact absurd rfl he
  | error => exact ⟨_, _, rfl⟩
  | poisoned => exact ⟨_, _, rfl⟩
  | timeout => exact ⟨_, _, rfl⟩
  | badTag => exact ⟨_, _, rfl⟩

/-- The state once the bytes read have been charged. -/
def charged (s : State) (q : Req) (text : List Byte) : State :=
  if q.id.func != sideFunc then chargeTokens s (setOfFunc q.id.func) .hostIn text.length true else s

theorem charged_parts (s : State) (q : Req) (text : List Byte) : ∃ regs, charged s q text = { s with regs := regs } := by
  unfold charged
  split
  · exact chargeTokens_parts ..
  · exact ⟨s.regs, rfl⟩

theorem readDone_body (s : State) (q : Req) (text : List Byte) (ok : Bool) (ft path : List Byte) :
    readDone s q .body .data text ok ft path none = charged s q text := by
  simp [readDone, charged]

section
variable {s : State} {r : ReqId} {q : Req} (hq : reqOf s r = some q)
include hq

theorem hostRead_next (what : ReadFor) (e : ReadEnd) (text : List Byte) (ok : Bool) (ft path : List Byte) (obj : Option ObjectEntry) :
    exec (.hostMemoryReadCompletion r what e text ok ft path obj) s = .next (readDone s q what e text ok ft path obj) := by
  change execHostMemoryReadCompletion r what e text ok ft path obj s = _
  simp only [execHostMemoryReadCompletion, hq]

theorem hostRead_bodyFails {e : ReadEnd} (text : List Byte) (ok : Bool) (ft path : List Byte) (obj : Option ObjectEntry) (he : e ≠ .data) :
    ∃ t, exec (.hostMemoryReadCompletion r .body e text ok ft path obj) s = .next t ∧ ∀ x ∈ t.reqs, x.id ≠ r := by
  obtain ⟨t, detail, heq⟩ := readDone_bodyFails s q text ok ft path obj he
  refine ⟨_, hostRead_next hq .body e text ok ft path obj, ?_⟩
  rw [heq, ← reqOf_id s r q hq]
  exact endRequest_ends t q detail 0 (by decide) (by decide)

theorem hostRead_body (text : List Byte) (ok : Bool) (ft path : List Byte) :
    ∃ t, exec (.hostMemoryReadCompletion r .body .data text ok ft path none) s = .next t ∧ t = { s with regs := t.regs } := by
  refine ⟨_, hostRead_next hq .body .data text ok ft path none, ?_⟩
  rw [readDone_body]
  obtain ⟨regs, heq⟩ := charged_parts s q text
  rw [heq]

end

/-! ### The text of an item (R285, R286) -/

/-- An item whose text has come. -/
def itemWithText (x : ItemState) (text ft path : List Byte) : ItemState :=
  { x with text := some (cutText text), fileType := ft, path := path, truncated := decide (textLimit < text.length), key := 0 }

theorem readItem_text {ins : Bool} {x : ItemState} {text ft path : List Byte} (hstatus : x.status = none) (htext : x.text = none)
    (hft : ft.length ≤ 32) (hpath : path.length ≤ 4095) (hlen : text.length ≤ maxItem) (hins : ins = true → text.length ≤ 65536) :
    readItem ins x .data text true ft path 0 = itemWithText x text ft path := by
  have hshort : (ins && decide (65536 < text.length)) = false := by simpa using hins
  simp only [readItem, itemWithText, hstatus, htext, hshort, Nat.not_lt.mpr hft, Nat.not_lt.mpr hpath, Nat.not_lt.mpr hlen,
    Option.isSome_none, bne_self_eq_false, Bool.not_true, decide_false, Bool.or_self, Bool.false_eq_true, if_false]

theorem dropItemKeys_part {α : Type} (f : State → α) (hf : ∀ s n, f (dropKey s n) = f s) (s : State) (l : List ItemState) :
    f (dropItemKeys s l) = f s :=
  foldl_keeps _ f (fun s (x : ItemState) => hf s x.key) _ s

section
variable {s : State} {r : ReqId} {q : Req} {ins : Bool} {b : IngestBody} {img n : Nat} {l : List ItemState} {x : ItemState}
  (hq : reqOf s r = some q) (hjob : q.job = .items ins b img l) (hx : l[n]? = some x)
include hq hjob hx

theorem readDone_text {text ft path : List Byte} (hstatus : x.status = none)
    (hread : readItem ins x .data text true ft path 0 = itemWithText x text ft path) :
    readDone s q (.object (some n)) .data text true ft path none
      = dropItemKeys (setJob (charged s q text) q (.items ins b img (l.set n (itemWithText x text ft path))))
          (l.set n (itemWithText x text ft path)) := by
  have hreq : reqOf (setJob (charged s q text) q (.items ins b img (l.set n (itemWithText x text ft path)))) q.id
      = some { q with job := .items ins b img (l.set n (itemWithText x text ft path)) } := by
    obtain ⟨regs, heq⟩ := charged_parts s q text
    rw [heq]
    exact reqOf_setJob _ q.id q _ ((reqOf_id s r q hq).symm ▸ hq)
  have hopen : ∃ y ∈ l.set n (itemWithText x text ft path), y.status = none :=
    ⟨itemWithText x text ft path, List.mem_set (List.getElem?_eq_some_iff.mp hx).1 _, hstatus⟩
  rw [← settleItems_goesOn hreq rfl hopen]
  simp [readDone, charged, hjob, hx, hread, addItemKey]

theorem hostRead_text (hstatus : x.status = none) {text ft path : List Byte} (htext : x.text = none) (hft : ft.length ≤ 32)
    (hpath : path.length ≤ 4095) (hlen : text.length ≤ maxItem) (hins : ins = true → text.length ≤ 65536) :
    ∃ t, exec (.hostMemoryReadCompletion r (.object (some n)) .data text true ft path none) s = .next t
      ∧ reqOf t r = some { q with job := .items ins b img (l.set n (itemWithText x text ft path)) }
      ∧ t.media = s.media ∧ t.changes = s.changes := by
  have hdone := readDone_text hq hjob hx hstatus (readItem_text hstatus htext hft hpath hlen hins)
  refine ⟨_, hostRead_next hq .., ?_⟩
  rw [hdone, dropItemKeys_part (reqOf · r) (fun _ _ => rfl), dropItemKeys_part State.media (fun _ _ => rfl),
    dropItemKeys_part State.changes (fun _ _ => rfl)]
  obtain ⟨regs, heq⟩ := charged_parts s q text
  rw [heq]
  exact ⟨reqOf_setJob _ r q _ hq, rfl, rfl⟩

end

/-! ### The staged passages (R285 to R287) -/

/-- A passage key that is drawn joins the vault and the index's keys (R280). -/
theorem passageKey_parts {s s1 : State} {i i1 : Index} {tenant : Nat} (h : passageKey s i tenant = (s1, i1)) :
    ∃ count keys own, s1 = { s with freeCount := count, keys := keys } ∧ i1 = { i with keys := own } := by
  unfold passageKey at h
  split at h
  · cases h
    exact ⟨_, _, _, rfl, rfl⟩
  · cases h
    exact ⟨_, _, _, rfl, rfl⟩

/-- The records that an item's passages become, with consecutive passage IDs (R279, R285). -/
def stagedRecords (i : Index) (m : ImageMeta) (x : ItemState) (passages : List (List Nat)) : List IRec :=
  passages.zipIdx.map (fun v => stageRecord i x (nextPid i + v.2) (embedVector m v.1))

section
variable (i : Index) (m : ImageMeta) (x : ItemState) (passages : List (List Nat))

theorem length_stagedRecords : (stagedRecords i m x passages).length = passages.length := by simp [stagedRecords]

theorem getElem_stagedRecords {k : Nat} (hk : k < (stagedRecords i m x passages).length) :
    (stagedRecords i m x passages)[k].pid = nextPid i + k ∧ (stagedRecords i m x passages)[k].place = none
      ∧ (stagedRecords i m x passages)[k].tomb = false := by
  simp [stagedRecords, stageRecord]

theorem stagedRecords_vec : (stagedRecords i m x passages).map (·.vec) = passages.map (fun p => (embedVector m p).map toBf16) := by
  refine List.ext_getElem (by simp [stagedRecords]) fun k hk hk' => ?_
  simp [stagedRecords, stageRecord]

end

/-- An item whose passages are staged, accepted at once on an index that is not durable (R287). -/
def stagedItem (i : Index) (x : ItemState) (recs : List IRec) : ItemState :=
  { x with staged := some recs, accepted := !isDurable i.body, first := nextPid i }

/-- Staging moves the free count, the index's sequence number and its store, and the item; an item accepted at once asks for its apply. -/
theorem stageItem_parts (s : State) (q : Req) (ins : Bool) (b : IngestBody) (img : Nat) (l : List ItemState) (n : Nat) (x : ItemState)
    (i : Index) (m : ImageMeta) {passages : List (List Nat)} (hsome : passages ≠ []) :
    ∃ count j u, stageItem s q ins b img l n x i m passages = (if isDurable i.body then u else addChange u (.item q.id n))
      ∧ u = setJob (putIndex { s with freeCount := count } j) q (.items ins b img (l.set n (stagedItem i x (stagedRecords i m x passages))))
      ∧ j.handle = i.handle ∧ j.versions = i.versions ∧ j.seqNo = i.seqNo + (stagedRecords i m x passages).length := by
  have hrecs : (stagedRecords i m x passages).isEmpty = false := by simpa [stagedRecords] using hsome
  rw [stagedRecords] at hrecs
  cases hdurable : isDurable i.body with
  | true =>
    simp only [stageItem, stagedItem, hrecs, hdurable, Bool.not_true, Bool.false_eq_true, if_false, if_true]
    exact ⟨_, _, _, rfl, rfl, rfl, rfl, rfl⟩
  | false =>
    simp only [stageItem, stagedItem, hrecs, hdurable, Bool.not_false, Bool.false_eq_true, if_false, if_true]
    exact ⟨_, _, _, rfl, rfl, rfl, rfl, rfl⟩

section
variable {s s1 : State} {r : ReqId} {q : Req} {ins : Bool} {b : IngestBody} {img n unit : Nat} {l : List ItemState} {x : ItemState}
  {i i1 : Index} {m : Img} {text : List Byte} {passages : List (List Nat)}
  (hq : reqOf s r = some q) (hjob : q.job = .items ins b img l) (hx : l[n]? = some x)
  (hstatus : x.status = none) (hunit : unitStands s unit = false) (hi : heldIndex s b.handle = some i)
  (hm : imageOf s img = some m) (htext : x.text = some text) (hstaged : x.staged = none) (hearlier : earlierDone l n = true)
  (hpassages : passagesOf m.info b text = passages) (hsome : passages ≠ [])
  (hkey : passageKey s i x.entry.tenant.toNat = (s1, i1)) (hrecords : (itemFragments i1 m.info x passages).all recordFits = true)
  (hfits : itemFits s i passages.length (itemPlacing s1 i1 m.info x passages).2 = true)
include hq hjob hx hstatus hunit hi hm htext hstaged hearlier hpassages hsome hkey hrecords hfits

/-- An item whose turn it is, with room for its passages, is staged. -/
theorem itemStaged_next :
    exec (.itemStaged r n unit) s = .next (stageItem s1 q ins b img l n x i1 m.info passages) := by
  have hempty : passages.isEmpty = false := by simpa using hsome
  change execItemStaged r n unit s = _
  simp only [execItemStaged, itemReady, hunit, hq, hjob, hx, hi, hm, htext, hstatus, hstaged, hearlier, hpassages, hempty, hkey, hrecords, hfits,
    Option.isSome_none, Bool.not_true, Bool.or_self, Bool.false_eq_true, if_false]

/-- R285, R286: its records carry the vectors of its passages under consecutive passage IDs, and the index's next ID moves past them. -/
theorem itemStaged_stages :
    ∃ t recs i', exec (.itemStaged r n unit) s = .next t
      ∧ reqOf t r = some { q with job := .items ins b img (l.set n (stagedItem i x recs)) }
      ∧ recs.length = passages.length
      ∧ (∀ k (hk : k < recs.length), recs[k].pid = nextPid i + k ∧ recs[k].place = none ∧ recs[k].tomb = false)
      ∧ recs.map (·.vec) = passages.map (fun p => (embedVector m.info p).map toBf16)
      ∧ heldIndex t b.handle = some i' ∧ i'.seqNo = i.seqNo + passages.length ∧ i'.versions = i.versions
      ∧ t.changes = if isDurable i.body then s.changes else s.changes ++ [.item r n] := by
  have hnext := itemStaged_next hq hjob hx hstatus hunit hi hm htext hstaged hearlier hpassages hsome hkey hrecords hfits
  obtain ⟨count, keys, own, rfl, rfl⟩ := passageKey_parts hkey
  obtain ⟨drawnTo, j, u, hstage, hu, hhandle, hversions, hseqNo⟩ :=
    stageItem_parts { s with freeCount := count, keys := keys } q ins b img l n x { i with keys := own } m.info hsome
  have hpart : ∀ {α : Type} (f : State → α), (∀ t c, f (addChange t c) = f t) →
      f (stageItem { s with freeCount := count, keys := keys } q ins b img l n x { i with keys := own } m.info passages) = f u :=
    fun f hf => by
      rw [hstage]
      split
      · rfl
      · exact hf ..
  refine ⟨_, stagedRecords { i with keys := own } m.info x passages, j, hnext, ?_, length_stagedRecords ..,
    fun k hk => getElem_stagedRecords _ _ _ _ hk, stagedRecords_vec .., (hpart (heldIndex · b.handle) fun _ _ => rfl).trans ?_,
    hseqNo.trans (congrArg (i.seqNo + ·) (length_stagedRecords ..)), hversions, ?_⟩
  · rw [hpart (reqOf · r) fun _ _ => rfl, hu]
    exact reqOf_setJob _ r q _ hq
  · rw [hu]
    exact heldIndex_putIndex_same _ b.handle i _ hi (hhandle.trans (heldIndex_handle s b.handle i hi))
  · rw [hstage, hu, reqOf_id s r q hq]
    split <;> rfl

end

/-! ### The journal record (R287) -/

/-- The index with its open P-tile closed and written, as a journal record leaves it. -/
def journalled (s : State) (handle : Nat) : State :=
  match heldIndex s handle with
  | some i => putIndex (closeStore (pageOp s) i).1 (closeStore (pageOp s) i).2
  | none => s

/-- What neither the indexes nor the free count hold, the record leaves alone but for the pins' note of the page. -/
theorem journalled_part {α : Type} (f : State → α) (hpage : ∀ s, f (pageOp s) = f s) (hcount : ∀ s n, f { s with freeCount := n } = f s)
    (hindex : ∀ s i, f (putIndex s i) = f s) (s : State) (handle : Nat) : f (journalled s handle) = f s := by
  unfold journalled
  split
  · exact (hindex _ _).trans ((hcount _ _).trans (hpage s))
  · rfl

/-- Every index keeps its versions and its sequence number. -/
theorem heldIndex_journalled {s : State} {h : Nat} {i : Index} (handle : Nat) (hi : heldIndex s h = some i) :
    ∃ i', heldIndex (journalled s handle) h = some i' ∧ i'.versions = i.versions ∧ i'.seqNo = i.seqNo ∧ i'.current = i.current := by
  have hclosed : ∀ j, heldIndex (closeStore (pageOp s) j).1 h = some i := fun j => by
    rw [heldIndex, closeStore, pageOp_idx]
    exact hi
  unfold journalled
  split
  next j hj =>
    have hjhandle : (closeStore (pageOp s) j).2.handle = handle := heldIndex_handle s handle j hj
    by_cases hh : handle = h
    · subst hh
      obtain rfl : i = j := Option.some.inj (hi.symm.trans hj)
      exact ⟨_, heldIndex_putIndex_same _ handle i _ (hclosed i) hjhandle, rfl, rfl, rfl⟩
    · exact ⟨i, (heldIndex_putIndex_other _ h _ (hjhandle ▸ hh)).trans (hclosed j), rfl, rfl, rfl⟩
  · exact ⟨i, hi, rfl, rfl, rfl⟩

theorem journalProgrammed_accepts {s : State} {r : ReqId} {q : Req} {ins : Bool} {b : IngestBody} {img n : Nat} {l : List ItemState}
    {x : ItemState} (hq : reqOf s r = some q) (hjob : q.job = .items ins b img l) (hx : l[n]? = some x) (hstatus : x.status = none)
    (hstaged : x.staged.isSome = true) (haccepted : x.accepted = false) :
    ∃ t, exec (.journalProgrammed r n) s = .next t ∧ t.changes = s.changes ++ [.item r n]
      ∧ reqOf t r = some { q with job := .items ins b img (l.set n { x with accepted := true }) }
      ∧ ∀ h i, heldIndex s h = some i →
        ∃ i', heldIndex t h = some i' ∧ i'.versions = i.versions ∧ i'.seqNo = i.seqNo ∧ i'.current = i.current := by
  have hnext : exec (.journalProgrammed r n) s = .next (addChange
      (setJob (journalled s b.handle) q (.items ins b img (l.set n { x with accepted := true }))) (.item r n)) := by
    change execJournalProgrammed r n s = _
    simp only [execJournalProgrammed, hq, hjob, hx, hstatus, hstaged, haccepted, Option.isNone_none, Bool.not_false, Bool.and_self, if_true]
    rfl
  refine ⟨_, hnext, ?_, ?_, fun h i hi => heldIndex_journalled b.handle hi⟩
  · exact congrArg (· ++ [.item r n]) (journalled_part State.changes (fun _ => pageOp_changes ..) (fun _ _ => rfl) (fun _ _ => rfl) s b.handle)
  · refine reqOf_setJob _ r q _ (Eq.trans ?_ hq)
    exact journalled_part (reqOf · r) (fun s => by rw [reqOf, pageOp_reqs, reqOf]) (fun _ _ => rfl) (fun _ _ => rfl) s b.handle

/-- Settles O41: the text of an item, its staged passages (after the unit that the event names, log 12), its journal record, and reads that
bring no data. -/
theorem itemsAdvance : Obligations.ItemsAdvance := by
  unfold Obligations.ItemsAdvance
  intro s r q hq
  refine ⟨fun e text ok ft path obj he => hostRead_bodyFails hq text ok ft path obj he, hostRead_body hq,
    fun ins b img l n x hjob hx hstatus => ⟨?_, ?_, ?_⟩⟩
  · intro text ft path htext hft hpath hlen hins
    exact hostRead_text hq hjob hx hstatus htext hft hpath hlen hins
  · intro i m text passages s1 i1 unit hunit hi hm htext hstaged hearlier hpassages hsome hkey hrecords hfits
    exact itemStaged_stages hq hjob hx hstatus hunit hi hm htext hstaged hearlier hpassages hsome hkey hrecords hfits
  · exact journalProgrammed_accepts hq hjob hx hstatus

end Sys2Proof.Machine
end

section
/-!
PROOF. Merges (R189, R296, R297): the commit, the records of the version that a merge builds, and O42.
-/
namespace Sys2Proof.Machine

/-! ### The commit (R189, R297) -/

/-- A merge as its commit leaves it. -/
def committedMerge (i : Index) (m : Merge) (snap : List IRec) (made : Int) : Merge :=
  { m with committed := true, built := (buildMerge i m snap).1, fresh := (buildMerge i m snap).2.1
           lists := (buildMerge i m snap).2.1.length, moved := (buildMerge i m snap).2.2, made := made }

/-- A commit is told to the members that hold other shards. -/
def tellMerged (s : State) (i : Index) (handle : Nat) : State := if i.body.shardCount = 1 then s else tellPeers s 8 (mergeName handle)

theorem tellMerged_part {α : Type} (f : State → α) (htell : ∀ s n r, f (tellPeers s n r) = f s) (s : State) (i : Index) (handle : Nat) :
    f (tellMerged s i handle) = f s := by
  unfold tellMerged
  split
  · rfl
  · exact htell ..

theorem mergeCommit_next {s : State} {handle unit : Nat} {i : Index} {m : Merge} {snap : List IRec} (made : Int)
    (hunit : unitStands s unit = false) (hi : heldIndex s handle = some i) (hm : i.merge = some m) (hsnap : m.snap = some snap)
    (hopen : m.committed = false) : exec (.mergeCommit handle unit m.log.length made) s
      = .next (addChange (tellMerged (putIndex s { i with merge := some (committedMerge i m snap made) }) i handle) (.swap handle)) := by
  change execMergeCommit handle unit m.log.length made s = _
  simp only [execMergeCommit, tellMerged, committedMerge, hi, hm, hsnap, hunit, hopen, bne_self_eq_false, Bool.or_self, Bool.false_eq_true,
    if_false]

/-- The merge commits and asks for its swap; other indexes, the requests and the media stay. -/
theorem mergeCommit_commits (s : State) (handle unit : Nat) (made : Int) (i : Index) (m : Merge) (snap : List IRec)
    (hunit : unitStands s unit = false) (hi : heldIndex s handle = some i) (hm : i.merge = some m) (hsnap : m.snap = some snap)
    (hopen : m.committed = false) :
    ∃ t, exec (.mergeCommit handle unit m.log.length made) s = .next t ∧ t.changes = s.changes ++ [.swap handle]
      ∧ heldIndex t handle = some { i with merge := some (committedMerge i m snap made) }
      ∧ (∀ n, n ≠ handle → heldIndex t n = heldIndex s n) ∧ t.reqs = s.reqs ∧ t.media = s.media := by
  have hhandle : i.handle = handle := heldIndex_handle s handle i hi
  have hheld : ∀ n, heldIndex (addChange (tellMerged (putIndex s { i with merge := some (committedMerge i m snap made) }) i handle)
      (.swap handle)) n = heldIndex (putIndex s { i with merge := some (committedMerge i m snap made) }) n := fun n =>
    tellMerged_part (heldIndex · n) (fun s k r => by rw [heldIndex, tellPeers_idx, heldIndex]) _ i handle
  refine ⟨_, mergeCommit_next made hunit hi hm hsnap hopen, ?_, ?_, fun n hn => ?_, ?_, ?_⟩
  · exact congrArg (· ++ [.swap handle]) (tellMerged_part State.changes tellPeers_changes _ i handle)
  · rw [hheld]
    exact heldIndex_putIndex_same s handle i _ hi hhandle
  · rw [hheld]
    exact heldIndex_putIndex_other s n _ (hhandle ▸ hn.symm)
  · exact tellMerged_part State.reqs tellPeers_reqs _ i handle
  · exact tellMerged_part State.media tellPeers_media _ i handle

/-! ### Lists in order -/

theorem mem_insertNat {n x : Nat} {l : List Nat} : x ∈ insertNat n l ↔ x = n ∨ x ∈ l := by
  induction l with
  | nil => simp [insertNat]
  | cons y l ih =>
    rw [insertNat]
    split
    · simp
    · rw [List.mem_cons, ih, List.mem_cons, or_left_comm]

theorem mem_sortNat {x : Nat} {l : List Nat} : x ∈ sortNat l ↔ x ∈ l := by
  induction l with
  | nil => rfl
  | cons y l ih => rw [sortNat, List.foldr_cons, mem_insertNat, List.mem_cons, ← ih, sortNat]

theorem mem_insertPid {r x : IRec} {l : List IRec} : x ∈ insertPid r l ↔ x = r ∨ x ∈ l := by
  induction l with
  | nil => simp [insertPid]
  | cons y l ih =>
    rw [insertPid]
    split
    · simp
    · rw [List.mem_cons, ih, List.mem_cons, or_left_comm]

theorem mem_foldr_insertPid {x : IRec} {l : List IRec} : x ∈ l.foldr insertPid [] ↔ x ∈ l := by
  induction l with
  | nil => rfl
  | cons y l ih => rw [List.foldr_cons, mem_insertPid, List.mem_cons, ih]

/-! ### The records of version v + 1 (R296) -/

/-- Thicket records of the snapshot with no tombstone: those that a merge assigns (R296). -/
def liveThicket (snap : List IRec) : List IRec := snap.filter (fun x => inThicket x && !x.tomb)

/-- The records that lists gain. -/
def gainedRecords (i : Index) (snap : List IRec) : List IRec :=
  (liveThicket snap).filterMap (fun x => (assignedList i (vecFp x.vec)).map (fun l => assignRecord i l x))

/-- The records that stay in the Thicket. -/
def leftRecords (i : Index) (snap : List IRec) : List IRec := (liveThicket snap).filter (fun x => (assignedList i (vecFp x.vec)).isNone)

/-- The lists of version v + 1. -/
def mergedLists (i : Index) (snap : List IRec) : List Nat := sortNat ((snap ++ gainedRecords i snap).filterMap (·.place)).eraseDups

/-- The records of one list of version v + 1. -/
def mergedRecords (i : Index) (m : Merge) (snap : List IRec) (l : Nat) : List IRec :=
  (mergeList m.tombFrac (mergeMoves i m) (snap.filter (fun x => x.place == some l)) ((gainedRecords i snap).filter (fun x => x.place == some l))).1

theorem buildMerge_records (i : Index) (m : Merge) (snap : List IRec) :
    (buildMerge i m snap).1 = (mergedLists i snap).flatMap (mergedRecords i m snap) ++ leftRecords i snap :=
  congrArg (· ++ leftRecords i snap) (List.flatMap_map _ _ _)

/-- A list rewritten or not, no record without a tombstone is lost or added but those it gains. -/
theorem mem_mergeList {frac : W32} {moved : Bool} {old gained : List IRec} {x : IRec} (hlive : x.tomb = false) :
    x ∈ (mergeList frac moved old gained).1 ↔ x ∈ old ∨ x ∈ gained := by
  unfold mergeList
  split
  · simp [mem_foldr_insertPid, hlive]
  next hkeeps =>
    have hnone : gained = [] := by
      simp only [Bool.or_eq_true, not_or] at hkeeps
      simpa using hkeeps.1.1
    simp [hnone]

section
variable {i : Index} {m : Merge} {snap : List IRec} {x : IRec}

theorem mem_liveThicket : x ∈ liveThicket snap ↔ x ∈ snap ∧ x.place = none ∧ x.tomb = false := by
  simp [liveThicket, inThicket]

/-- A record gained is one of the Thicket's, assigned to its list. -/
theorem mem_gainedRecords : x ∈ gainedRecords i snap ↔
    ∃ y ∈ liveThicket snap, ∃ l, assignedList i (vecFp y.vec) = some l ∧ assignRecord i l y = x := by
  simp [gainedRecords]

/-- A record without a tombstone is of version v + 1 when it stood in a list, was gained by one, or stays in the Thicket. -/
theorem mem_buildMerge (hlive : x.tomb = false) :
    x ∈ (buildMerge i m snap).1 ↔ (x ∈ snap ∧ x.place ≠ none) ∨ x ∈ gainedRecords i snap ∨ x ∈ leftRecords i snap := by
  have hlists : ∀ l, l ∈ mergedLists i snap ↔ ∃ y, (y ∈ snap ∨ y ∈ gainedRecords i snap) ∧ y.place = some l := fun l => by
    rw [mergedLists, mem_sortNat, List.mem_eraseDups, List.mem_filterMap]
    simp only [List.mem_append]
  have hrecords : ∀ l, x ∈ mergedRecords i m snap l ↔ (x ∈ snap ∨ x ∈ gainedRecords i snap) ∧ x.place = some l := fun l => by
    rw [mergedRecords, mem_mergeList hlive]
    simp [or_and_right]
  have hplace : x ∈ gainedRecords i snap → ∃ l, x.place = some l := fun hg => by
    obtain ⟨y, -, l, -, rfl⟩ := mem_gainedRecords.mp hg
    exact ⟨l, rfl⟩
  rw [buildMerge_records, List.mem_append, List.mem_flatMap, ← or_assoc]
  refine or_congr_left ⟨?_, ?_⟩
  · rintro ⟨l, -, hx⟩
    obtain ⟨hx | hx, hl⟩ := (hrecords l).mp hx
    · exact .inl ⟨hx, by simp [hl]⟩
    · exact .inr hx
  · intro h
    have hx : x ∈ snap ∨ x ∈ gainedRecords i snap := h.imp And.left id
    obtain ⟨l, hl⟩ : ∃ l, x.place = some l := h.elim (fun h => Option.ne_none_iff_exists'.mp h.2) hplace
    exact ⟨l, (hlists l).mpr ⟨x, hx, hl⟩, (hrecords l).mpr ⟨hx, hl⟩⟩

end

/-- R296: a merge loses no live record and brings none back. -/
theorem buildMerge_keepsLive (i : Index) (m : Merge) (snap : List IRec) (p : Nat) :
    (∃ x ∈ (buildMerge i m snap).1, x.pid = p ∧ x.tomb = false) ↔ ∃ x ∈ snap, x.pid = p ∧ x.tomb = false := by
  constructor
  · rintro ⟨x, hx, rfl, hlive⟩
    rcases (mem_buildMerge hlive).mp hx with ⟨hsnap, -⟩ | hgained | hleft
    · exact ⟨x, hsnap, rfl, hlive⟩
    · obtain ⟨y, hy, l, -, rfl⟩ := mem_gainedRecords.mp hgained
      exact ⟨y, (mem_liveThicket.mp hy).1, rfl, hlive⟩
    · exact ⟨x, (mem_liveThicket.mp (List.mem_filter.mp hleft).1).1, rfl, hlive⟩
  · rintro ⟨x, hx, rfl, hlive⟩
    by_cases hplace : x.place = none
    · have hthicket := mem_liveThicket.mpr ⟨hx, hplace, hlive⟩
      cases hassigned : assignedList i (vecFp x.vec) with
      | some l =>
        have hgained : assignRecord i l x ∈ gainedRecords i snap := mem_gainedRecords.mpr ⟨x, hthicket, l, hassigned, rfl⟩
        exact ⟨assignRecord i l x, (mem_buildMerge (x := assignRecord i l x) hlive).mpr (.inr (.inl hgained)), rfl, hlive⟩
      | none =>
        have hleft : x ∈ leftRecords i snap := List.mem_filter.mpr ⟨hthicket, by simp [hassigned]⟩
        exact ⟨x, (mem_buildMerge hlive).mpr (.inr (.inr hleft)), rfl, hlive⟩
    · exact ⟨x, (mem_buildMerge hlive).mpr (.inl ⟨hx, hplace⟩), rfl, hlive⟩

/-- Settles O42: the commit builds from the snapshot and asks for the swap; each live record of the snapshot stays in its list, is gained by one
or stays in the Thicket, and no other live record is built. -/
theorem mergesKeepEveryLiveRecord : Obligations.MergesKeepEveryLiveRecord := by
  unfold Obligations.MergesKeepEveryLiveRecord
  exact ⟨mergeCommit_commits, buildMerge_keepsLive⟩

end Sys2Proof.Machine
end

section
/-!
PROOF. The CONFIG subfunctions other than those on tables (R364, R372, R378, R379, R411, R424, R425, R427, R443, R444), and O22.
-/
namespace Sys2Proof.Machine

open Sys2Proof.Claims

section
variable {s s' : State} {h : MsgHead} {recOk : Bool} {c : Ctx} (ht : taken s h 0x0D .opened recOk s' c)
include ht

/-- A subfunction that is taken in its form, from a session with the right to it and with its conditions met, is accepted (R9, R11). -/
theorem config_isAccepted {i : Instr} {form role valid : State → Ctx → Bool}
    (hexec : exec i s = .next (message s h opConfig .opened recOk (fun s c => configGo s h c i (form s c) (role s c) (valid s c))))
    (hform : form s' c = true) (hrole : role s' c = true) (hvalid : valid s' c = true) :
    exec i s = .next (accepted s' h c 0x0D none none (.config i)) := by
  have hgo : configGo s' h c i (form s' c) (role s' c) (valid s' c) = accepted s' h c 0x0D none none (.config i) := by
    rw [hform, hrole, hvalid, configGo_ok]
    rfl
  exact hexec.trans (congrArg Host.Outcome.next ((message_of_taken (op := opConfig) ht _).trans hgo))

/-- A subfunction on a loaded index, from a session with the right on it (R372). -/
theorem indexConfig_isAccepted {i : Instr} {n : Nat} {valid : Bool} {x : Index} (hrec : recOk = false)
    (hexec : exec i s = .next (indexConfig s h n i valid)) (hform : formOk h false = true) (hx : loadedIndex s' n = some x)
    (hright : indexRight s' c.sess x = true) (hvalid : valid = true) :
    exec i s = .next (accepted s' h c 0x0D none none (.config i)) := by
  subst hrec
  exact config_isAccepted ht (form := fun _ _ => formOk h false) (valid := fun s _ => valid && (loadedIndex s n).isSome) hexec hform
    (by simp only [hx, hright]) (by simp only [hx, hvalid, Option.isSome_some, Bool.and_self])

end

/-- A subfunction of the owner's whose conditions the model tests is accepted where they hold. -/
theorem ownerAccepts_of {i : Instr} {h : MsgHead} {sealing recOk : Bool} {test : State → Bool} {valid : State → Prop}
    (hexec : ∀ s, exec i s = .next (ownerConfig s h i sealing recOk test)) (hvalid : ∀ s, valid s → test s = true) :
    ownerAccepts i h sealing recOk valid := by
  intro s s' c ht hform hrole hs
  have howner : isOwner c.sess = true := beq_iff_eq.mpr hrole
  exact config_isAccepted ht (form := fun _ _ => formOk h sealing) (role := fun _ c => isOwner c.sess) (valid := fun s _ => test s)
    (hexec s) hform howner (hvalid s' hs)

/-- R411: PROTECTION_RESET, under the MAC of the owner credential key. -/
theorem protectionReset_isAccepted {h : MsgHead} {mac : BitVec 256} {s s' : State} {c : Ctx} (ht : taken s h 0x0D .opened false s' c)
    (hform : formOk h false = true) (hrole : c.sess.role = 0) (hmac : resetMac s' c.sess.id = some mac) :
    exec (.protectionReset h mac) s = .next (accepted s' h c 0x0D none none (.config (.protectionReset h mac))) :=
  config_isAccepted ht (form := fun _ _ => formOk h false) (role := fun s c => isOwner c.sess && resetMac s c.sess.id == some mac)
    (valid := fun _ _ => true) rfl hform (by simp [isOwner, hrole, hmac]) rfl

/-- R378: a tenant with a binding and no index of its own may be unbound. -/
theorem tenantUnbindOk_of {s : State} {t : Nat} (h : (∃ b, tenOf s t = some b) ∧ ownsIndex s t = false) : tenantUnbindOk s t = true := by
  obtain ⟨⟨b, hb⟩, howns⟩ := h
  simp [tenantUnbindOk, hb, howns]

/-- R424: a profile that is named and is none of the first eight may be removed. -/
theorem profileRemoveOk_of {s : State} {n : Nat} (h : 8 ≤ n ∧ ∃ p, AMap.get none s.glades.profiles n = some p) :
    profileRemoveOk s n = true := by
  obtain ⟨hn, p, hp⟩ := h
  simp [profileRemoveOk, hn, hp]

theorem protectionConfigs_areAccepted : protectionConfigsAreAccepted := fun _ =>
  ⟨fun _ => ownerAccepts_of (fun _ => rfl) fun _ => decide_eq_true,
    fun _ => ownerAccepts_of (fun _ => rfl) fun _ => id,
    ownerAccepts_of (fun _ => rfl) fun _ _ => rfl,
    fun _ _ => ownerAccepts_of (fun _ => rfl) fun _ => id,
    fun _ => ownerAccepts_of (fun _ => rfl) fun _ => id,
    fun _ => ownerAccepts_of (fun _ => rfl) fun _ => tenantUnbindOk_of,
    fun _ _ => ownerAccepts_of (fun _ => rfl) fun _ => id,
    fun _ => ownerAccepts_of (fun _ => rfl) fun _ => id,
    fun _ => ownerAccepts_of (fun _ => rfl) fun _ => Option.isSome_iff_exists.mpr,
    fun _ _ _ => ownerAccepts_of (fun _ => rfl) fun _ => id,
    fun _ => ownerAccepts_of (fun _ => rfl) fun _ => Option.isSome_iff_exists.mpr,
    fun _ _ _ _ => protectionReset_isAccepted⟩

/-- R299: 0 turns the triggers off; any other threshold lies from 65,536 to 67,108,864. -/
theorem thresholdOk_of {x : Nat} (h : x = 0 ∨ 65536 ≤ x ∧ x ≤ 67108864) :
    (x == 0 || (decide (65536 ≤ x) && decide (x ≤ thicketLimit))) = true := by
  obtain rfl | ⟨hlow, hhigh⟩ := h
  · rfl
  · have hlimit : x ≤ thicketLimit := hhigh
    simp [hlow, hlimit]

theorem gladeProfileAndIndexConfigs_areAccepted : gladeProfileAndIndexConfigsAreAccepted := fun _ =>
  ⟨fun _ => ownerAccepts_of (fun _ => rfl) fun _ => id,
    fun _ => ownerAccepts_of (fun _ => rfl) fun _ => id,
    fun _ => ownerAccepts_of (fun _ => rfl) fun _ => id,
    fun _ => ownerAccepts_of (fun _ => rfl) fun _ => id,
    fun _ => ownerAccepts_of (fun _ => rfl) fun _ => profileRemoveOk_of,
    fun _ => ownerAccepts_of (fun _ => rfl) fun _ => Option.isSome_iff_exists.mpr,
    fun _ _ _ _ _ _ ht hform hx hright hsecs => indexConfig_isAccepted ht rfl rfl hform hx hright (decide_eq_true hsecs),
    fun _ _ _ _ _ _ ht hform hx hright hrange => indexConfig_isAccepted ht rfl rfl hform hx hright (thresholdOk_of hrange)⟩

/-- Settles O22: a subfunction that is taken and passes its checks is accepted, and the state is the one before with its request and its
change. -/
theorem ownerConfigsAreAccepted : Obligations.OwnerConfigsAreAccepted := by
  unfold Obligations.OwnerConfigsAreAccepted
  exact ⟨protectionConfigs_areAccepted, gladeProfileAndIndexConfigs_areAccepted⟩

end Sys2Proof.Machine
end

section
/-!
PROOF. The messages on sessions (R373 to R377, R399, R400, R559), and O24.
-/
namespace Sys2Proof.Machine

open Sys2Proof.Claims

/-! ### HELLO (R374) -/

/-- The challenge that a HELLO keeps. -/
def helloChallenge (s : State) (h : MsgHead) (b : HelloBody) : Challenge :=
  ⟨s.prot.nextSession, b.role.toNat, b.principal.toNat, h.func, b.hostNonce, Config.freeNonce s.freeCount, b.blob.map blobCred, false⟩

/-- The module with the challenge kept: the session ID and the nonce are used up (log 6: IDs rise by one). -/
def challenged (s : State) (h : MsgHead) (b : HelloBody) : State :=
  drawn { s with prot := { s.prot with
    nextSession := s.prot.nextSession + 1, challenges := s.prot.challenges ++ [helloChallenge s h b] } }

/-- What a HELLO answers with (R374, R375). -/
def helloAnswer (s : State) (b : HelloBody) : List Byte :=
  helloReply s s.prot.nextSession (Config.freeNonce s.freeCount) (Config.freeSignature s.freeCount)
    (shownCred s b.role.toNat b.principal.toNat (b.blob.map blobCred))

theorem helloGo_answers {s : State} {h : MsgHead} {b : HelloBody} (hc : helloCheck s h b = none) (c : Ctx) :
    helloGo s h b c = refuse (putOutput (challenged s h b) ⟨h.func, h.rid⟩ (helloAnswer s b)) h c
      ⟨stOk, 0, 0, [(0, 4, s.prot.nextSession)]⟩ := by
  unfold helloGo
  rw [hc]
  rfl

/-- Output moves a regulator and what leaves the module, or the sideband's reply, and nothing else (R422, R431). -/
theorem putOutput_leaves (s : State) (r : ReqId) (l : List Byte) :
    (putOutput s r l).prot = s.prot ∧ (putOutput s r l).reqs = s.reqs ∧ (putOutput s r l).freeCount = s.freeCount
      ∧ (putOutput s r l).media = s.media ∧ (putOutput s r l).chip = s.chip := by
  unfold putOutput
  split
  · exact ⟨rfl, rfl, rfl, rfl, rfl⟩
  · exact ⟨chargeTokens_prot .., chargeTokens_reqs .., chargeTokens_freeCount .., chargeTokens_media .., chargeTokens_chip ..⟩

theorem hello_keepsItsChallenge (h : MsgHead) (b : HelloBody) (s s' : State) (c : Ctx) (ht : taken s h 0x01 .hello true s' c)
    (hc : helloCheck s' h b = none) (_ : h.func ≠ 0xFF#8) :
    ∃ t, exec (.hello h b) s = .next t ∧ t.prot.nextSession = s'.prot.nextSession + 1
      ∧ t.prot.challenges = s'.prot.challenges ++ [⟨s'.prot.nextSession, b.role.toNat, b.principal.toNat, h.func, b.hostNonce,
          Config.freeNonce s'.freeCount, b.blob.map blobCred, false⟩]
      ∧ t.freeCount = s'.freeCount + 1 ∧ t.reqs = s'.reqs ∧ t.prot.sessions = s'.prot.sessions ∧ t.media = s'.media ∧ t.chip = s'.chip := by
  refine ⟨_, congrArg Host.Outcome.next ((message_of_taken ht _).trans (helloGo_answers hc c)), ?_⟩
  obtain ⟨hprot, hreqs, hcount, hmedia, hchip⟩ :=
    putOutput_leaves (challenged s' h b) ⟨h.func, h.rid⟩ (helloAnswer s' b)
  rw [refuse_prot, refuse_freeCount, refuse_reqs, refuse_media, refuse_chip, hprot, hreqs, hcount, hmedia, hchip]
  exact ⟨rfl, rfl, rfl, rfl, rfl, rfl, rfl⟩

/-! ### PROOF (R373, R375) -/

/-- The module with the challenge proved. -/
def proved (s : State) (id : Nat) : State :=
  { s with prot := { s.prot with
    challenges := s.prot.challenges.map (fun x => if x.id == id then { x with proved := true } else x) } }

/-- The module that has turned a wrong proof away: the challenge is used up and the failure counts (R375). -/
def proofFailed (s : State) (ch : Challenge) : State := countFail (dropChallenge s ch.id) ch.role ch.principal

section
variable {s : State} {h : MsgHead} {p : BitVec 256} {ch : Challenge} {k : Cred} (hform : formOk h false = true)
  (hch : s.prot.challenges.find? (fun x => x.id == h.session.toNat && x.func == h.func && !x.proved) = some ch)
  (hopen : lockedPrincipal s ch.role ch.principal = false) (hfirst : ch.first = none ∨ credOf s 0 0 = none)
  (hk : challengeCred s ch = some k)
include hform hch hopen hfirst hk

/-- A proof for a challenge that stands, of a principal that is not locked, is compared with the credential's. -/
theorem proofGo_compares (c : Ctx) : proofGo s h p c
    = if proofOf s ch k.key != p then refuse (proofFailed s ch) h c (endWith stDenied)
      else if breach (policyOf s) ch.role k then refuse (dropChallenge s ch.id) h c ⟨stDenied, dtPolicy, 0, []⟩
      else addChange (acceptReq (proved s ch.id) h c opOpen none none (.proof ch.id)) (.request ⟨h.func, h.rid⟩) := by
  have hother : (ch.first.isSome && (credOf s 0 0).isSome) = false := by
    obtain hnone | hnone := hfirst <;> simp [hnone]
  simp only [proofGo, hform, hch, hopen, hother, hk, Bool.not_true, Bool.or_self, Bool.false_eq_true, if_false]
  rfl

theorem proofGo_right (hp : proofOf s ch k.key = p) (hpolicy : breach (policyOf s) ch.role k = false) (c : Ctx) : proofGo s h p c
    = addChange (acceptReq (proved s ch.id) h c opOpen none none (.proof ch.id)) (.request ⟨h.func, h.rid⟩) := by
  simp [proofGo_compares hform hch hopen hfirst hk, hp, hpolicy]

theorem proofGo_wrong (hp : proofOf s ch k.key ≠ p) (c : Ctx) : proofGo s h p c = refuse (proofFailed s ch) h c (endWith stDenied) := by
  simp [proofGo_compares hform hch hopen hfirst hk, hp]

end

theorem proof_waitsForTheBoundary (h : MsgHead) (p : BitVec 256) (s s' : State) (c : Ctx) (ch : Challenge) (k : Cred)
    (ht : taken s h 0x01 .proof true s' c) (hform : formOk h false = true)
    (hch : s'.prot.challenges.find? (fun x => x.id == h.session.toNat && x.func == h.func && !x.proved) = some ch)
    (hopen : lockedPrincipal s' ch.role ch.principal = false) (hfirst : ch.first = none ∨ credOf s' 0 0 = none)
    (hk : challengeCred s' ch = some k) (hp : proofOf s' ch k.key = p) (hpolicy : breach (policyOf s') ch.role k = false) :
    ∃ t, exec (.proof h p) s = .next t ∧ t.reqs = s'.reqs ++ [newReq s' h c 0x01 none none (.proof ch.id)]
      ∧ t.changes = s'.changes ++ [.request ⟨h.func, h.rid⟩]
      ∧ t.prot.challenges = s'.prot.challenges.map (fun x => if x.id == ch.id then { x with proved := true } else x)
      ∧ t.prot.sessions = s'.prot.sessions ∧ t.prot.fails = s'.prot.fails :=
  ⟨_, congrArg Host.Outcome.next ((message_of_taken ht _).trans (proofGo_right hform hch hopen hfirst hk hp hpolicy c)),
    rfl, rfl, rfl, rfl, rfl⟩

/-! ### Failed proofs (R375) -/

/-- The failures of a principal within the last 60 s. -/
def recentFails (s : State) (role principal : Nat) : List (Nat × Nat × Nat) :=
  s.prot.fails.filter (fun f => f.1 == role && f.2.1 == principal && decide (s.time < f.2.2 + 60000000))

/-- The failures within the last 60 s with one more. -/
def failsWith (s : State) (role principal : Nat) : List (Nat × Nat × Nat) :=
  (s.prot.fails ++ [(role, principal, s.time)]).filter (fun f => decide (s.time < f.2.2 + 60000000))

/-- The one more counts for its principal. -/
theorem failsWith_count (s : State) (role principal : Nat) :
    ((failsWith s role principal).filter (fun f => f.1 == role && f.2.1 == principal)).length = (recentFails s role principal).length + 1 := by
  simp [failsWith, recentFails, List.filter_append, List.filter_filter]

/-- R375: the fifth failure within 60 s locks the principal. -/
theorem countFail_locks (s : State) (role principal : Nat) : (countFail s role principal).prot.locks
    = if 5 ≤ (recentFails s role principal).length + 1 then setHas s.prot.locks (role, principal) else s.prot.locks := by
  rw [← failsWith_count]
  unfold countFail failsWith
  dsimp only
  split
  next h => rw [if_pos (of_decide_eq_true h)]
  next h => rw [if_neg (fun hlt => h (decide_eq_true hlt))]

/-- A failure counted moves the failures and the locks only. -/
theorem countFail_leaves (s : State) (role principal : Nat) : (countFail s role principal).prot.challenges = s.prot.challenges
    ∧ (countFail s role principal).prot.sessions = s.prot.sessions ∧ (countFail s role principal).reqs = s.reqs := by
  unfold countFail
  dsimp only
  split <;> exact ⟨rfl, rfl, rfl⟩

/-- A principal that was not locked is locked by its fifth failure and by no earlier one. -/
theorem mem_locks_proofFailed {s : State} {ch : Challenge} (hopen : lockedPrincipal s ch.role ch.principal = false) :
    4 ≤ (recentFails s ch.role ch.principal).length ↔ (ch.role, ch.principal) ∈ (proofFailed s ch).prot.locks := by
  have hout : (ch.role, ch.principal) ∉ s.prot.locks := by simpa [lockedPrincipal] using hopen
  have hrecent : recentFails (dropChallenge s ch.id) ch.role ch.principal = recentFails s ch.role ch.principal := rfl
  rw [proofFailed, countFail_locks, hrecent]
  split
  next h => exact ⟨fun _ => mem_setHas .., fun _ => by omega⟩
  next h => exact ⟨fun _ => by omega, fun hin => absurd hin hout⟩

theorem wrongProof_countsAndLocks : wrongProofCountsAndLocks := by
  intro h p s s' c ch k ht hform hch hopen hfirst hk hp
  obtain ⟨hchallenges, hsessions, hreqs⟩ := countFail_leaves (dropChallenge s' ch.id) ch.role ch.principal
  refine ⟨_, congrArg Host.Outcome.next ((message_of_taken ht _).trans (proofGo_wrong hform hch hopen hfirst hk hp c)), ?_⟩
  rw [refuse_prot, refuse_reqs]
  exact ⟨hchallenges, hsessions, hreqs, mem_locks_proofFailed hopen⟩

/-! ### CLOSE_SESSION and CANCEL (R377, R399, R400, R559) -/

theorem closeSession_isAccepted (h : MsgHead) (mode : Byte) (s s' : State) (c : Ctx) (ht : taken s h 0x02 .opened true s' c)
    (hform : formOk h false = true) (hmode : mode.toNat ≤ 1) : exec (.closeSession h mode) s
      = .next (accepted s' h c 0x02 (sessionGlade s' c.sess) (sessionTenant c.sess) (.closing c.sess.id (mode == 1#8))) := by
  have hgo : closeGo s' h mode c
      = accepted s' h c 0x02 (sessionGlade s' c.sess) (sessionTenant c.sess) (.closing c.sess.id (mode == 1#8)) := by
    simp only [closeGo, hform, Nat.not_lt.mpr hmode, Bool.not_true, decide_false, Bool.or_self, Bool.false_eq_true, if_false]
    rfl
  exact congrArg Host.Outcome.next ((message_of_taken ht _).trans hgo)

theorem cancel_isAccepted (h : MsgHead) (target : W64) (f : Byte) (s s' : State) (c : Ctx) (ht : taken s h 0x0C .opened false s' c)
    (hform : formOk h false = true) (hscope : cancelScope s' h c.sess f = true) (hright : cancelAllowed s' c.sess ⟨f, target⟩ = true) :
    exec (.cancel h target f) s
      = .next (accepted s' h c 0x0C (sessionGlade s' c.sess) (sessionTenant c.sess) (.cancel ⟨f, target⟩)) := by
  have hgo : cancelGo s' h target f c
      = accepted s' h c 0x0C (sessionGlade s' c.sess) (sessionTenant c.sess) (.cancel ⟨f, target⟩) := by
    simp only [cancelGo, hform, hscope, hright, Bool.not_true, Bool.or_self, Bool.false_eq_true, if_false]
    rfl
  exact congrArg Host.Outcome.next ((message_of_taken ht _).trans hgo)

/-- Settles O24: a HELLO keeps its challenge, the three messages that pass their checks wait for the boundary, and a wrong PROOF counts. That
session IDs rise by one is the model's choice (log 6). -/
theorem sessionsOpenAndClose : Obligations.SessionsOpenAndClose := by
  unfold Obligations.SessionsOpenAndClose
  exact ⟨⟨hello_keepsItsChallenge, proof_waitsForTheBoundary, closeSession_isAccepted, cancel_isAccepted⟩, wrongProof_countsAndLocks⟩

end Sys2Proof.Machine
end

section
/-!
SUPPORT. Lengths under AES-256: every block enciphers to 16 bytes, and counter mode answers with as many bytes as it is given (R366).
-/
namespace Sys2Proof.Machine

/-! ### Consecutive runs of a list -/

section
variable {α : Type} {n : Nat}

theorem length_le_of_mem_chunksFuel {fuel : Nat} {l c : List α} (hc : c ∈ chunksFuel n fuel l) : c.length ≤ n := by
  induction fuel generalizing l with
  | zero => cases hc
  | succ fuel ih =>
    rw [chunksFuel] at hc
    split at hc
    · cases hc
    · obtain rfl | hc := List.mem_cons.mp hc
      · exact List.length_take_le _ _
      · exact ih hc

/-- Where `n` divides the length, no run is shorter. -/
theorem length_of_mem_chunksFuel {fuel : Nat} {l c : List α} (hdvd : n ∣ l.length) (hc : c ∈ chunksFuel n fuel l) : c.length = n := by
  induction fuel generalizing l with
  | zero => cases hc
  | succ fuel ih =>
    rw [chunksFuel] at hc
    split at hc
    · cases hc
    next hne =>
      have hle : n ≤ l.length := Nat.le_of_dvd (List.length_pos_iff.mpr (by simpa using hne)) hdvd
      obtain rfl | hc := List.mem_cons.mp hc
      · rw [List.length_take, Nat.min_eq_left hle]
      · exact ih (by rw [List.length_drop]; exact Nat.dvd_sub hdvd (Nat.dvd_refl n)) hc

/-- The runs put together again are the list. -/
theorem flatten_chunksOf (hn : 0 < n) (l : List α) : (chunksOf n l).flatten = l := by
  have hfuel : ∀ fuel (l : List α), l.length ≤ fuel → (chunksFuel n fuel l).flatten = l := by
    intro fuel
    induction fuel with
    | zero =>
      intro l hl
      rw [List.length_eq_zero_iff.mp (Nat.le_zero.mp hl)]
      rfl
    | succ fuel ih =>
      intro l hl
      rw [chunksFuel]
      split
      next hnil => rw [List.isEmpty_iff.mp hnil]; rfl
      · rw [List.flatten_cons, ih _ (by rw [List.length_drop]; omega), List.take_append_drop]
  exact hfuel l.length l (Nat.le_refl _)

theorem length_chunksOf (hn : 0 < n) {l : List α} (hdvd : n ∣ l.length) : n * (chunksOf n l).length = l.length := by
  have hmap : (chunksOf n l).map List.length = List.replicate (chunksOf n l).length n :=
    List.eq_replicate_iff.mpr ⟨List.length_map _, by
      intro m hm
      obtain ⟨c, hc, rfl⟩ := List.mem_map.mp hm
      exact length_of_mem_chunksFuel hdvd hc⟩
  have hsum := congrArg List.length (flatten_chunksOf hn l)
  rw [List.length_flatten, hmap, List.sum_replicate_nat] at hsum
  rw [Nat.mul_comm, hsum]

end

/-! ### Words of the key schedule -/

@[simp] theorem length_xorBytes (a b : List Byte) : (xorBytes a b).length = min a.length b.length := List.length_zipWith

/-- The key schedule's word `i` behind the words `w`, newest first. -/
def expandedWord (i : Nat) (rc : Byte) (w : List (List Byte)) : List Byte :=
  xorBytes (w.getD 7 []) (if i % 8 = 0 then
    (match ((w.headD []).drop 1 ++ (w.headD []).take 1).map aesSub with | b :: r => (b ^^^ rc) :: r | [] => [])
    else if i % 8 = 4 then (w.headD []).map aesSub else w.headD [])

theorem aesExpand_succ (n i : Nat) (rc : Byte) (w : List (List Byte)) : aesExpand (n + 1) i rc w
    = aesExpand n (i + 1) (if i % 8 = 0 then xtime rc else rc) (expandedWord i rc w :: w) := rfl

section
variable {w : List (List Byte)} (hw : ∀ x ∈ w, x.length = 4) (hlen : 8 ≤ w.length)
include hw hlen

theorem length_expandedWord (i : Nat) (rc : Byte) : (expandedWord i rc w).length = 4 := by
  have hhead : (w.headD []).length = 4 := by
    cases w with
    | nil => cases hlen
    | cons x w => exact hw x List.mem_cons_self
  have hback : (w.getD 7 []).length = 4 := by
    rw [List.getD_eq_getElem?_getD, List.getElem?_eq_getElem hlen, Option.getD_some]
    exact hw _ (List.getElem_mem _)
  rw [expandedWord, length_xorBytes, hback]
  split
  · have hrot : (((w.headD []).drop 1 ++ (w.headD []).take 1).map aesSub).length = 4 := by
      rw [List.length_map, List.length_append, List.length_drop, List.length_take, hhead]
      rfl
    split
    next heq => rw [heq] at hrot; rw [List.length_cons] at *; omega
    next heq => rw [heq] at hrot; cases hrot
  · split
    · rw [List.length_map, hhead, Nat.min_self]
    · rw [hhead, Nat.min_self]

/-- The key schedule adds words of four bytes to words of four bytes. -/
theorem aesExpand_words (n i : Nat) (rc : Byte) :
    (∀ x ∈ aesExpand n i rc w, x.length = 4) ∧ (aesExpand n i rc w).length = w.length + n := by
  induction n generalizing i rc w with
  | zero => exact ⟨fun x hx => hw x (List.mem_reverse.mp hx), List.length_reverse⟩
  | succ n ih =>
    have hnext : ∀ x ∈ expandedWord i rc w :: w, x.length = 4 :=
      List.forall_mem_cons.mpr ⟨length_expandedWord hw hlen i rc, hw⟩
    obtain ⟨hwords, hcount⟩ := ih hnext (Nat.le_succ_of_le hlen) (i + 1) (if i % 8 = 0 then xtime rc else rc)
    rw [aesExpand_succ, hcount, List.length_cons]
    exact ⟨hwords, by omega⟩

end

/-! ### Round keys, blocks, counter mode -/

section
variable (key : BitVec 256)

theorem length_keyBytes : (keyBytes key).length = 32 := length_leBytes ..

/-- The 60 words of the key schedule. -/
theorem keySchedule_words : (∀ x ∈ aesExpand 52 8 1#8 (chunksOf 4 (keyBytes key)).reverse, x.length = 4)
    ∧ (aesExpand 52 8 1#8 (chunksOf 4 (keyBytes key)).reverse).length = 60 := by
  have hdvd : 4 ∣ (keyBytes key).length := by rw [length_keyBytes]; decide
  have hcount : (chunksOf 4 (keyBytes key)).reverse.length = 8 := by
    have hlen := length_chunksOf (by decide) hdvd
    rw [length_keyBytes] at hlen
    rw [List.length_reverse]
    omega
  have hfour : ∀ x ∈ (chunksOf 4 (keyBytes key)).reverse, x.length = 4 :=
    fun x hx => length_of_mem_chunksFuel hdvd (List.mem_reverse.mp hx)
  obtain ⟨hwords, hlen⟩ := aesExpand_words hfour (Nat.le_of_eq hcount.symm) 52 8 1#8
  exact ⟨hwords, hlen.trans (by rw [hcount])⟩

theorem length_of_mem_aesKeys {x : List Byte} (hx : x ∈ aesKeys (keyBytes key)) : x.length = 16 := by
  obtain ⟨hwords, hlen⟩ := keySchedule_words key
  obtain ⟨l, hl, rfl⟩ := List.mem_map.mp hx
  have hfour : l.length = 4 := length_of_mem_chunksFuel (by rw [hlen]; decide) hl
  have hsub : ∀ x ∈ l, x.length = 4 := by
    intro x hxl
    refine hwords x ?_
    rw [← flatten_chunksOf (n := 4) (by decide) (aesExpand 52 8 1#8 (chunksOf 4 (keyBytes key)).reverse)]
    exact List.mem_flatten.mpr ⟨l, hl, hxl⟩
  rw [List.length_flatMap, List.map_congr_left (f := fun x : List Byte => (id x).length) (g := fun _ => 4) hsub, List.map_const',
    List.sum_replicate_nat, hfour]

theorem length_aesKeys : (aesKeys (keyBytes key)).length = 15 := by
  obtain ⟨-, hlen⟩ := keySchedule_words key
  have hcount := length_chunksOf (n := 4) (by decide) (l := aesExpand 52 8 1#8 (chunksOf 4 (keyBytes key)).reverse) (by rw [hlen]; decide)
  rw [aesKeys, List.length_map]
  omega

/-- The rounds end with a whole round key on 16 bytes. -/
theorem length_aesRounds {keys : List (List Byte)} (hne : keys ≠ []) (hkeys : ∀ k ∈ keys, k.length = 16) (b : List Byte) :
    (aesRounds keys b).length = 16 := by
  induction keys generalizing b with
  | nil => exact absurd rfl hne
  | cons k ks ih =>
    cases ks with
    | nil => simp [aesRounds, shiftRows, hkeys k List.mem_cons_self]
    | cons k' ks => exact ih (List.cons_ne_nil _ _) (fun x hx => hkeys x (List.mem_cons_of_mem _ hx)) _

theorem length_aesEncrypt (b : List Byte) : (aesEncrypt (aesKeys (keyBytes key)) b).length = 16 := by
  refine length_aesRounds ?_ (fun k hk => length_of_mem_aesKeys key (List.mem_of_mem_drop hk)) _
  intro hnil
  have hlen := congrArg List.length hnil
  rw [List.length_drop, length_aesKeys] at hlen
  cases hlen

/-- Runs of at most 16 bytes, each under a block of 16, keep their bytes' number. -/
theorem length_flatMap_xorBytes {l : List (List Byte)} (hl : ∀ b ∈ l, b.length ≤ 16) {g : Nat → List Byte} (hg : ∀ n, (g n).length = 16)
    (c : Nat) : ((l.zipIdx c).flatMap (fun p => xorBytes p.1 (g p.2))).length = l.flatten.length := by
  induction l generalizing c with
  | nil => rfl
  | cons b l ih =>
    rw [List.zipIdx_cons, List.flatMap_cons, List.length_append, ih (fun x hx => hl x (List.mem_cons_of_mem _ hx)), length_xorBytes, hg,
      Nat.min_eq_left (hl b List.mem_cons_self), List.flatten_cons, List.length_append]

/-- Counter mode answers with as many bytes as it is given. -/
theorem length_gcmCtr (nonce : List Byte) (c : Nat) (m : List Byte) : (gcmCtr (aesKeys (keyBytes key)) nonce c m).length = m.length := by
  have hruns : ∀ b ∈ chunksOf 16 m, b.length ≤ 16 := fun b hb => length_le_of_mem_chunksFuel hb
  have hblocks : ∀ n, (aesEncrypt (aesKeys (keyBytes key)) (nonce ++ beBytes 4 n)).length = 16 := fun n => length_aesEncrypt key _
  rw [gcmCtr, length_flatMap_xorBytes hruns hblocks, flatten_chunksOf (by decide)]

end

end Sys2Proof.Machine
end

section
/-!
PROOF. What the cipher engine makes of an issued instruction; XDEC, XENC, XOPEN and XSEAL (R366, R368, R369), and O15.
-/
namespace Sys2Proof.Machine

open Sys2Proof.Claims

/-! ### An instruction whose start draws on more than its core (R82, R430) -/

/-- A transfer drawn from a regulator moves the regulators and the transfers held, and nothing else (R430). -/
theorem drawTokens_moves {s t : State} {set n : Nat} {x : Resource} {admitted : Bool} {a : Ticket}
    (h : drawTokens s set x n admitted a = some t) : ∃ regs holds, t = { s with regs := regs, holds := holds } := by
  unfold drawTokens at h
  split at h
  · exact ⟨s.regs, s.holds, (Option.some.inj h).symm⟩
  · split at h
    · cases h
    · split at h
      · cases h
      · obtain ⟨b, -, rfl⟩ := Option.map_eq_some_iff.mp h
        exact ⟨_, _, rfl⟩

theorem drawTokens_leaves {s t : State} {set n : Nat} {x : Resource} {admitted : Bool} {a : Ticket}
    (h : drawTokens s set x n admitted a = some t) : t.chip.cores = s.chip.cores ∧ t.tabs = s.tabs ∧ t.host = s.host := by
  obtain ⟨regs, holds, rfl⟩ := drawTokens_moves h
  exact ⟨rfl, rfl, rfl⟩

/-- What a core holds is nothing to a regulator. -/
theorem drawTokens_setCore {s t : State} {set n : Nat} {x : Resource} {admitted : Bool} {a : Ticket}
    (h : drawTokens s set x n admitted a = some t) (c : Nat) (k : Core) :
    drawTokens (setCore s c k) set x n admitted a = some (setCore t c k) := by
  have hcomm : drawTokens (setCore s c k) set x n admitted a = (drawTokens s set x n admitted a).map (setCore · c k) := by
    unfold drawTokens
    rw [setCore_holds, setCore_regs]
    split
    · rfl
    · split
      · rfl
      · split
        · rfl
        · rw [Option.map_map]
          rfl
  rw [hcomm, h, Option.map_some]

/-- `presentAt_starts` where the start of the instruction moves the rest of the state too, its cores and tables apart: what it makes of that
rest stands, with the instruction in execution. -/
theorem presentAt_startsOn {s t : State} {r : Running} {core : CoreId} {e op : Nat} {h : Hdr} {o : BitVec 88} {k : Core} {f : Flight}
    (hcores : t.chip.cores = s.chip.cores) (htabs : t.tabs = s.tabs)
    (hi : issuable s core.toNat r ⟨e, op, h, o⟩) (he : e ≠ engD)
    (hc : engineCheck (coreOf s core.toNat) r.desc ⟨e, op, h, o⟩ (iterOf r) = none)
    (hb : beginFlight (setCore s core.toNat (issuedFlight (coreOf s core.toNat) r ⟨e, op, h, o⟩)) core.toNat
      (issuedFlight (coreOf s core.toNat) r ⟨e, op, h, o⟩) r.desc (flightOf (coreOf s core.toNat) r ⟨e, op, h, o⟩)
      = .go (setCore t core.toNat (issuedFlight (coreOf s core.toNat) r ⟨e, op, h, o⟩)) k f)
    (hrun : k.run = some (stepPc r ⟨e, op, h, o⟩)) (hfl : k.flights = [flightOf (coreOf s core.toNat) r ⟨e, op, h, o⟩])
    (hid : r.issued = f.id) (hf : Runs f) :
    presentAt core e op h o s = setCore t core.toNat { k with flights := [f] } := by
  have hissues := coreMove_issues hi he hc
  have hstarts := coreMove_starts hb
  have hpresent := present_issuable hi
  obtain ⟨⟨-, hended, hwaiting, -, hothers, hlocks⟩, -⟩ := hi
  have hsame : ∀ n, coreOf t n = coreOf s n := fun n => congrArg (AMap.get coreOff · n) hcores
  have hothers' : othersRest t core.toNat := fun n hn => by rw [hsame]; exact hothers n hn
  have hlocks' : locksAsked (setCore t core.toNat { k with flights := [f] }) := fun a ha => hlocks a (htabs ▸ ha)
  rw [setCore_setCore, putFlight_alone hfl hid] at hstarts
  have hstill : coreMove (setCore t core.toNat { k with flights := [f] }) core.toNat = none := coreMove_runs hf rfl hrun hwaiting
  have hgo : goOn (setCore s core.toNat (headCore (coreOf s core.toNat) r ⟨e, op, h, o⟩)) core.toNat
      = setCore t core.toNat { k with flights := [f] } := by
    obtain ⟨n, hn⟩ : ∃ n, pumpFuel (headCore (coreOf s core.toNat) r ⟨e, op, h, o⟩) = n + 2 := ⟨_, rfl⟩
    rw [goOn, coreOf_setCore_same, hn, pump_of_move hissues, pump_of_move hstarts, pump_of_still hstill, settleCasts_runs hf rfl]
  have hgoing : ∀ n q, (coreOf (setCore t core.toNat { k with flights := [f] }) n).run = some q → q.ended = false := by
    intro n q hq
    by_cases hn : n = core.toNat
    · rw [hn, coreOf_setCore_same] at hq
      obtain rfl := Option.some.inj (hrun.symm.trans hq)
      exact (stepPc_ended ..).trans hended
    · rw [coreOf_setCore_other _ _ _ _ hn] at hq
      exact ((hothers' n hn).2 q hq).2
  rw [presentAt, hpresent, goAll_eq_goOn hgo (othersRest_setCore hothers' _) hlocks', finishAll_going hgoing]

/-! ### The cipher engine's start (R82, R90) -/

/-- An instruction of the cipher engine that has started only completes. -/
theorem runs_cipher {f : Flight} (hs : f.started = true) (he : f.word.engine = engX) (hw : f.work = .none) : Runs f where
  started := hs
  engine := by rw [he]; decide
  waits s c k u := by simp [resumeFlight, he, engX, hw]
  serves s c k hk := by simp [serveMove, gServe, qServe, gReady, qReady, servedOrder, hk, hw]

/-- `presentAt_startsOn` for the cipher engine: what `xBegin` makes of the issued instruction stands. -/
theorem cipher_starts {s t : State} {core : CoreId} {r : Running} {op : Nat} {h : Hdr} {o : BitVec 88} {k : Core} {f : Flight}
    (hcores : t.chip.cores = s.chip.cores) (htabs : t.tabs = s.tabs)
    (hi : issuable s core.toNat r ⟨6, op, h, o⟩) (hc : xCheck r.desc op o = none)
    (hb : xBegin (setCore s core.toNat (issuedFlight (coreOf s core.toNat) r ⟨6, op, h, o⟩)) core.toNat
      (issuedFlight (coreOf s core.toNat) r ⟨6, op, h, o⟩) r.desc (flightOf (coreOf s core.toNat) r ⟨6, op, h, o⟩)
      = .go (setCore t core.toNat (issuedFlight (coreOf s core.toNat) r ⟨6, op, h, o⟩)) k f)
    (hrun : k.run = some (stepPc r ⟨6, op, h, o⟩)) (hfl : k.flights = [flightOf (coreOf s core.toNat) r ⟨6, op, h, o⟩])
    (hid : r.issued = f.id) (hf : Runs f) : presentAt core engX op h o s = setCore t core.toNat { k with flights := [f] } :=
  presentAt_startsOn hcores htabs hi (by decide) hc hb hrun hfl hid hf

section
variable (s : State) (c : Nat) (k : Core) (r : Running) (w : EWord)

@[simp] theorem issuedFlight_descs : (issuedFlight k r w).descs = k.descs := issueTokens_keeps Core.descs (fun _ _ _ => rfl) ..

@[simp] theorem slotDesc_issuedFlight (n : Nat) : slotDesc (issuedFlight k r w) n = slotDesc k n :=
  congrArg (AMap.get 0#512 · n) (issuedFlight_descs k r w)

@[simp] theorem slotOf_issuedFlight (n : Nat) : slotOf (issuedFlight k r w) n = slotOf k n :=
  congrArg (AMap.get SlotState.empty · n) (issuedFlight_slots k r w)

/-- What an issue leaves alone decides whether a source may be read, and what it holds. -/
theorem sourceGate_issued (g : Nat) (x : TileRef) : sourceGate (setCore s c (issuedFlight k r w)) (issuedFlight k r w) g x = sourceGate s k g x := by
  unfold sourceGate
  rw [readGate_of_slots (issuedFlight_slots k r w)]
  rfl

theorem sourceDesc_issued (x : TileRef) : sourceDesc (setCore s c (issuedFlight k r w)) (issuedFlight k r w) x = sourceDesc s k x := by
  unfold sourceDesc
  rw [slotDesc_issuedFlight]
  rfl

theorem xSource_issued (x : TileRef) (n : Nat) : xSource (setCore s c (issuedFlight k r w)) (issuedFlight k r w) x n = xSource s k x n := by
  unfold xSource refCells
  rw [issuedFlight_bytes]
  rfl

/-- An instruction of the cipher engine alone in execution reads no ring. -/
theorem writeGate_issued {op n : Nat} {h : Hdr} {o : BitVec 88} (hfree : allFree k [n]) :
    writeGate (issuedFlight k r ⟨6, op, h, o⟩) engX false [n] = .pass := by
  refine writeGate_allFree (fun m hm => ?_) fun _ => rfl
  rw [slotOf_issuedFlight]
  exact hfree m hm

end

/-- Where nothing waits at a tile, a source that may be read is read at once (R215). -/
theorem tileRead1_pass {s : State} {k : Core} {g : Nat} {x : TileRef} (hgate : sourceGate s k g x = .pass) (hwaits : s.media.waits = [])
    (c id : Nat) : tileRead1 s c k g id x = .pass := by
  have hturn : (xAccess c id x).all (tileTurn s) = true := by
    unfold xAccess
    split
    · rfl
    · simp [tileTurn_read hwaits]
  simp only [tileRead1, hgate, hturn, if_true]

theorem xSource_of_media {s t : State} (h : t.media = s.media) (k : Core) (x : TileRef) (n : Nat) : xSource t k x n = xSource s k x n := by
  simp only [xSource, refCells, h]

@[simp] theorem length_xSource (s : State) (k : Core) (x : TileRef) (n : Nat) : (xSource s k x n).length = n := by
  simp [xSource, cellsBytes, readBytes]

/-! ### What it writes (R213, R368) -/

/-- A core whose only instruction in execution, `f`, has put `l` into slot `n` with the descriptor `d`. -/
def ciphered (k : Core) (f : Flight) (n : Nat) (l : List Byte) (d : BitVec 512) : Core := { xWrite k n l d with flights := [f] }

theorem ciphered_bytes (k : Core) (f : Flight) (n : Nat) (l : List Byte) (d : BitVec 512) :
    (ciphered k f n l d).bytes = writeBytes k.bytes (slotAddr n) l := engineWrite_bytes k [n] [(slotAddr n, l)]

/-- The slot holds the bytes, FILLING under its new descriptor, and the core is otherwise as it was before the issue. -/
theorem ciphered_leaves (k : Core) (r : Running) (w : EWord) (f : Flight) (n : Nat) {l : List Byte} {len : Nat} (hlen : l.length = len)
    (d : BitVec 512) :
    readBytes (ciphered (issuedFlight k r w) f n l d).bytes (slotAddr n) len = l
    ∧ sameOutside k.bytes (ciphered (issuedFlight k r w) f n l d).bytes (slotAddr n) len
    ∧ slotOf (ciphered (issuedFlight k r w) f n l d) n = .filling ∧ slotDesc (ciphered (issuedFlight k r w) f n l d) n = d
    ∧ (ciphered (issuedFlight k r w) f n l d).scalars = k.scalars := by
  subst hlen
  rw [ciphered_bytes, issuedFlight_bytes]
  exact ⟨readBytes_writeBytes .., readByte_writeBytes_outside k.bytes (slotAddr n) l, slotOf_setSlot_same .., slotDesc_setSlotDesc_same ..,
    issuedFlight_scalars k r w⟩

/-- An instruction of the cipher engine that has started on `n` bytes and writes the slots `writes`. -/
def ciphering (f : Flight) (writes : List Nat) (n : Nat) : Flight := { f with started := true, writes := writes, cycles := xCycles n }

/-! ### XDEC and XOPEN (R368, R369) -/

/-- The key handle that an XDEC names, or that its source's descriptor does (R368). -/
def xDecKey (p : XDecOp) (d : BitVec 512) : Nat := if p.ksrc then p.key else fld d 96 32

/-- The tenant that a tile sealed under a tenant's key names (R370). -/
def tenantOf (d : BitVec 512) : Option Nat := if bitOf d 15 then some (fld d 20 12) else none

theorem xBegin_xdec {s s1 : State} {c : Nat} {k : Core} {u : UnitDesc} {f : Flight} {v : VKey} {pl : List Byte} {p : XDecOp} {d : BitVec 512}
    (hop : f.word.opcode = 1) (hp : xDecOp f.word.o = p) (hgate : sourceGate s k u.glade p.src = .pass) (hwaits : s.media.waits = [])
    (hd : sourceDesc s k p.src = d) (hkey : keyScope s u.glade (xDecKey p d) (tenantOf d) = some v)
    (hwrite : writeGate k engX false [p.slot] = .pass)
    (hdraw : drawTokens s u.glade .t2 (if p.src.tier = 1 then dLength d else 0) (unitReserved u) ⟨u.glade, 0, c, f.id, 0⟩ = some s1)
    (hopen : gcmOpen (keyBytes v.key) (leBytes 12 (fld d 256 96)) (descAad d) (xSource s k p.src (dLength d)) (leBytes 16 (fld d 352 128))
      = some pl) :
    xBegin s c k u f = .go s1 (xWrite k p.slot pl (setFld 0#512 32 15 (dLength d))) (ciphering f [p.slot] (dLength d)) := by
  unfold xDecKey tenantOf at hkey
  have hmedia := drawTokens_media hdraw
  rw [← xSource_of_media hmedia] at hopen
  simp only [xBegin, hop, if_true, hp, tileRead1_pass hgate hwaits, hd, hkey, hwrite, afterGate, hdraw, hopen,
    leaveTiles_none (hmedia ▸ hwaits), ciphering]

/-- The plaintext of the `n` bytes at byte `off` of an object, read from one of its tiles (R369). -/
def objectPlain (s : State) (k : Core) (v : VKey) (ob : ObjState) (tile off n : Nat) : List Byte :=
  gcmCtr (aesKeys (keyBytes v.key)) (leBytes 12 ob.nonce.toNat) (2 + off / 16) (xSource s k ⟨1, tile⟩ n)

theorem length_objectPlain (s : State) (k : Core) (v : VKey) (ob : ObjState) (tile off n : Nat) :
    (objectPlain s k v ob tile off n).length = n := (length_gcmCtr ..).trans (length_xSource ..)

theorem xBegin_xopen {s s1 : State} {c : Nat} {k : Core} {u : UnitDesc} {f : Flight} {v : VKey} {ob : ObjState} {p : XOpenOp} {off n : Nat}
    (hop : f.word.opcode = 3) (hp : xOpenOp f.word.o = p) (hob : AMap.get none s.keys.objects p.obj = some ob) (hverified : ob.verified = true)
    (htile : p.tile ∈ ob.tiles) (hgate : sourceGate s k u.glade ⟨1, p.tile⟩ = .pass) (hwaits : s.media.waits = [])
    (hkey : keyScope s u.glade ob.key none = some v) (hwrite : writeGate k engX false [p.slot] = .pass)
    (hoff : off = ob.tiles.findIdx (· == p.tile) * 16384) (hn : n = min 16384 (ob.length - off))
    (hdraw : drawTokens s u.glade .t2 n (unitReserved u) ⟨u.glade, 0, c, f.id, 0⟩ = some s1) :
    xBegin s c k u f = .go s1 (xWrite k p.slot (objectPlain s k v ob p.tile off n) (setFld 0#512 32 15 n)) (ciphering f [p.slot] n) := by
  subst hoff hn
  have hmedia := drawTokens_media hdraw
  simp [xBegin, hop, hp, hob, hverified, htile, tileRead1_pass hgate hwaits, hkey, hwrite, afterGate, tileBytes, hdraw,
    leaveTiles_none (hmedia ▸ hwaits), ciphering, objectPlain, xSource_of_media hmedia]

theorem xdec_decrypts (s s1 : State) (core : CoreId) (h : Hdr) (o : BitVec 88) (r : Running) (v : VKey) (pl : List Byte) (d : BitVec 512)
    (hi : issuable s core.toNat r ⟨6, 1, h, o⟩) (hc : xCheck r.desc 1 o = none)
    (hgate : sourceGate s (coreOf s core.toNat) r.desc.glade (xDecOp o).src = .pass) (hwaits : s.media.waits = [])
    (hd : d = sourceDesc s (coreOf s core.toNat) (xDecOp o).src)
    (hkey : keyScope s r.desc.glade (xDecKey (xDecOp o) d) (tenantOf d) = some v)
    (hfree : allFree (coreOf s core.toNat) [(xDecOp o).slot])
    (hdraw : drawTokens s r.desc.glade .t2 (if (xDecOp o).src.tier = 1 then dLength d else 0) (unitReserved r.desc)
      ⟨r.desc.glade, 0, core.toNat, r.issued, 0⟩ = some s1)
    (hopen : gcmOpen (keyBytes v.key) (leBytes 12 (fld d 256 96)) (descAad d) (xSource s (coreOf s core.toNat) (xDecOp o).src (dLength d))
      (leBytes 16 (fld d 352 128)) = some pl) :
    ∃ k', exec (.xdec core h o) s = .next (setCore s1 core.toNat k')
      ∧ readBytes k'.bytes (slotAddr (xDecOp o).slot) pl.length = pl
      ∧ sameOutside (coreOf s core.toNat).bytes k'.bytes (slotAddr (xDecOp o).slot) pl.length
      ∧ slotOf k' (xDecOp o).slot = .filling ∧ slotDesc k' (xDecOp o).slot = setFld 0#512 32 15 (dLength d)
      ∧ k'.scalars = (coreOf s core.toNat).scalars ∧ k'.flights.map (fun f => (f.word, f.started)) = [(⟨6, 1, h, o⟩, true)] := by
  have hbegin := xBegin_xdec (s := setCore s core.toNat (issuedFlight (coreOf s core.toNat) r ⟨6, 1, h, o⟩)) (c := core.toNat)
    (f := flightOf (coreOf s core.toNat) r ⟨6, 1, h, o⟩) rfl rfl ((sourceGate_issued ..).trans hgate) hwaits
    ((sourceDesc_issued ..).trans hd.symm) hkey (writeGate_issued _ _ hfree) (drawTokens_setCore hdraw _ _)
    ((congrArg (gcmOpen _ _ _ · _) (xSource_issued ..)).trans hopen)
  obtain ⟨hcores, htabs, -⟩ := drawTokens_leaves hdraw
  have hstarts := cipher_starts hcores htabs hi hc hbegin rfl rfl rfl (runs_cipher rfl rfl rfl)
  obtain ⟨hreads, hsame, hslot, hdesc, hscalars⟩ := ciphered_leaves (coreOf s core.toNat) r ⟨6, 1, h, o⟩
    (ciphering (flightOf (coreOf s core.toNat) r ⟨6, 1, h, o⟩) [(xDecOp o).slot] (dLength d)) (xDecOp o).slot (l := pl) rfl
    (setFld 0#512 32 15 (dLength d))
  exact ⟨_, congrArg Host.Outcome.next hstarts, hreads, hsame, hslot, hdesc, hscalars, rfl⟩

theorem xopen_decrypts (s s1 : State) (core : CoreId) (h : Hdr) (o : BitVec 88) (r : Running) (v : VKey) (ob : ObjState) (n off : Nat)
    (hi : issuable s core.toNat r ⟨6, 3, h, o⟩) (hc : xCheck r.desc 3 o = none)
    (hob : AMap.get none s.keys.objects (xOpenOp o).obj = some ob) (hverified : ob.verified = true) (htile : (xOpenOp o).tile ∈ ob.tiles)
    (hgate : sourceGate s (coreOf s core.toNat) r.desc.glade ⟨1, (xOpenOp o).tile⟩ = .pass) (hwaits : s.media.waits = [])
    (hkey : keyScope s r.desc.glade ob.key none = some v) (hfree : allFree (coreOf s core.toNat) [(xOpenOp o).slot])
    (hoff : off = ob.tiles.findIdx (· == (xOpenOp o).tile) * 16384) (hn : n = min 16384 (ob.length - off))
    (hdraw : drawTokens s r.desc.glade .t2 n (unitReserved r.desc) ⟨r.desc.glade, 0, core.toNat, r.issued, 0⟩ = some s1) :
    ∃ k', exec (.xopen core h o) s = .next (setCore s1 core.toNat k')
      ∧ readBytes k'.bytes (slotAddr (xOpenOp o).slot) n = gcmCtr (aesKeys (keyBytes v.key)) (leBytes 12 ob.nonce.toNat) (2 + off / 16)
          (xSource s (coreOf s core.toNat) ⟨1, (xOpenOp o).tile⟩ n)
      ∧ sameOutside (coreOf s core.toNat).bytes k'.bytes (slotAddr (xOpenOp o).slot) n
      ∧ slotOf k' (xOpenOp o).slot = .filling ∧ slotDesc k' (xOpenOp o).slot = setFld 0#512 32 15 n
      ∧ k'.scalars = (coreOf s core.toNat).scalars ∧ k'.flights.map (fun f => (f.word, f.started)) = [(⟨6, 3, h, o⟩, true)] := by
  have hbegin := xBegin_xopen (s := setCore s core.toNat (issuedFlight (coreOf s core.toNat) r ⟨6, 3, h, o⟩)) (c := core.toNat)
    (f := flightOf (coreOf s core.toNat) r ⟨6, 3, h, o⟩) rfl rfl hob hverified htile ((sourceGate_issued ..).trans hgate) hwaits
    hkey (writeGate_issued _ _ hfree) hoff hn (drawTokens_setCore hdraw _ _)
  rw [objectPlain, xSource_issued, ← objectPlain] at hbegin
  obtain ⟨hcores, htabs, -⟩ := drawTokens_leaves hdraw
  have hstarts := cipher_starts hcores htabs hi hc hbegin rfl rfl rfl (runs_cipher rfl rfl rfl)
  obtain ⟨hreads, hsame, hslot, hdesc, hscalars⟩ := ciphered_leaves (coreOf s core.toNat) r ⟨6, 3, h, o⟩
    (ciphering (flightOf (coreOf s core.toNat) r ⟨6, 3, h, o⟩) [(xOpenOp o).slot] n) (xOpenOp o).slot
    (length_objectPlain s (coreOf s core.toNat) v ob (xOpenOp o).tile off n) (setFld 0#512 32 15 n)
  exact ⟨_, congrArg Host.Outcome.next hstarts, hreads, hsame, hslot, hdesc, hscalars, rfl⟩

/-! ### XENC (R366, R368, R369) -/

/-- A number written in `k` bytes and read back. -/
theorem leNat_leBytes (k n : Nat) : leNat (leBytes k n) = n % 256 ^ k := by
  induction k generalizing n with
  | zero => simp [leBytes, leNat, Nat.mod_one]
  | succ k ih =>
    have hcons : leNat (leBytes (k + 1) n) = (byteNat n).toNat + 256 * leNat (leBytes k (n / 256)) := rfl
    rw [hcons, ih, Nat.pow_succ', Nat.mod_mul]
    simp [byteNat]

/-- The destination's descriptor behind an XENC (R369). -/
def sealedDesc (old : BitVec 512) (p : XEncOp) (nonce tag : Nat) : BitVec 512 :=
  setFld (setFld (setFld (setFld (setFld (setFld (setFld (setFld old 2 4 5) 12 1 1) 15 1 1) 20 12 p.tenant) 32 15 p.len) 96 32 p.key)
    256 96 nonce) 352 128 tag

/-- A bit under a field just set is the value's; any other reads as before. -/
theorem bitOf_setFld {n : Nat} (w : BitVec n) (lo len v i : Nat) (hi : i < n) :
    bitOf (setFld w lo len v) i = if lo ≤ i ∧ i < lo + len then v.testBit (i - lo) else bitOf w i := getLsbD_setFld w lo len v i hi

section
variable (old : BitVec 512) (p : XEncOp) (nonce tag : Nat)

theorem sealedDesc_flags : dKind (sealedDesc old p nonce tag) = 5 ∧ bitOf (sealedDesc old p nonce tag) 12 = true
    ∧ bitOf (sealedDesc old p nonce tag) 15 = true := by
  simp [sealedDesc, dKind, fld_setFld_other, fld_setFld_same, bitOf_setFld]

theorem sealedDesc_fields : fld (sealedDesc old p nonce tag) 20 12 = p.tenant % 2 ^ 12 ∧ fld (sealedDesc old p nonce tag) 96 32 = p.key % 2 ^ 32
    ∧ fld (sealedDesc old p nonce tag) 256 96 = nonce % 2 ^ 96 ∧ fld (sealedDesc old p nonce tag) 352 128 = tag % 2 ^ 128 := by
  simp [sealedDesc, fld_setFld_other, fld_setFld_same]

end

/-- What an XENC seals with: the key, a fresh nonce, and the additional data that the destination's descriptor will hold (R366, R369). -/
def encSeal (k : Core) (p : XEncOp) (key : BitVec 256) (nonce : BitVec 96) : List Byte × List Byte :=
  gcmSeal (keyBytes key) (leBytes 12 nonce.toNat) (tileAad 5 p.tenant p.key (fld (slotDesc k p.dst) 128 128))
    (readBytes k.bytes (slotAddr p.src) p.len)

theorem xBegin_xenc {s : State} {k : Core} {u : UnitDesc} {f : Flight} {v : VKey} {p : XEncOp} {ct tag : List Byte}
    (hop : f.word.opcode = 2) (hp : xEncOp f.word.o = p) (hread : readGate k f.reads = .pass)
    (hwrite : writeGate k engX false [p.dst] = .pass) (hkey : keyScope s u.glade p.key (some p.tenant) = some v)
    (hseal : encSeal k p v.key (Config.freeGcmNonce s.freeCount) = (ct, tag)) (c : Nat) :
    xBegin s c k u f = .go (drawn s)
      (xWrite k p.dst ct (sealedDesc (slotDesc k p.dst) p (leNat (leBytes 12 (Config.freeGcmNonce s.freeCount).toNat)) (leNat tag)))
      (ciphering f [p.dst] p.len) := by
  unfold encSeal at hseal
  simp [xBegin, hop, hp, hread, hwrite, Gate.and, afterGate, hkey, hseal, ciphering, sealedDesc]

theorem xenc_encrypts (s : State) (core : CoreId) (h : Hdr) (o : BitVec 88) (r : Running) (v : VKey)
    (hi : issuable s core.toNat r ⟨6, 2, h, o⟩) (hc : xCheck r.desc 2 o = none) (hfull : allFull (coreOf s core.toNat) (xReads 2 o))
    (hfree : allFree (coreOf s core.toNat) [(xEncOp o).dst])
    (hkey : keyScope s r.desc.glade (xEncOp o).key (some (xEncOp o).tenant) = some v) :
    ∃ k', exec (.xenc core h o) s = .next (setCore (drawn s) core.toNat k')
      ∧ (∃ ct tag, gcmSeal (keyBytes v.key) (leBytes 12 (Config.freeGcmNonce s.freeCount).toNat)
            (tileAad 5 (xEncOp o).tenant (xEncOp o).key (fld (slotDesc (coreOf s core.toNat) (xEncOp o).dst) 128 128))
            (readBytes (coreOf s core.toNat).bytes (slotAddr (xEncOp o).src) (xEncOp o).len) = (ct, tag)
          ∧ readBytes k'.bytes (slotAddr (xEncOp o).dst) ct.length = ct ∧ fld (slotDesc k' (xEncOp o).dst) 352 128 = leNat tag % 2 ^ 128)
      ∧ dKind (slotDesc k' (xEncOp o).dst) = 5 ∧ bitOf (slotDesc k' (xEncOp o).dst) 12 = true
      ∧ bitOf (slotDesc k' (xEncOp o).dst) 15 = true ∧ fld (slotDesc k' (xEncOp o).dst) 20 12 = (xEncOp o).tenant
      ∧ fld (slotDesc k' (xEncOp o).dst) 96 32 = (xEncOp o).key
      ∧ fld (slotDesc k' (xEncOp o).dst) 256 96 = (Config.freeGcmNonce s.freeCount).toNat
      ∧ slotOf k' (xEncOp o).dst = .filling ∧ k'.scalars = (coreOf s core.toNat).scalars
      ∧ k'.flights.map (fun f => (f.word, f.started)) = [(⟨6, 2, h, o⟩, true)] := by
  obtain ⟨ct, tag, hseal⟩ : ∃ ct tag, encSeal (coreOf s core.toNat) (xEncOp o) v.key (Config.freeGcmNonce s.freeCount) = (ct, tag) :=
    ⟨_, _, rfl⟩
  have hseal' : encSeal (issuedFlight (coreOf s core.toNat) r ⟨6, 2, h, o⟩) (xEncOp o) v.key (Config.freeGcmNonce s.freeCount)
      = (ct, tag) := by
    rwa [encSeal, slotDesc_issuedFlight, issuedFlight_bytes]
  have hbegin := xBegin_xenc (s := setCore s core.toNat (issuedFlight (coreOf s core.toNat) r ⟨6, 2, h, o⟩))
    (f := flightOf (coreOf s core.toNat) r ⟨6, 2, h, o⟩) rfl rfl (readGate_issuedFlight hfull ..) (writeGate_issued _ _ hfree) hkey hseal'
    core.toNat
  have hstarts := cipher_starts (s := s) (t := drawn s) rfl rfl hi hc hbegin rfl rfl rfl (runs_cipher rfl rfl rfl)
  obtain ⟨hreads, -, hslot, hdesc, hscalars⟩ := ciphered_leaves (coreOf s core.toNat) r ⟨6, 2, h, o⟩
    (ciphering (flightOf (coreOf s core.toNat) r ⟨6, 2, h, o⟩) [(xEncOp o).dst] (xEncOp o).len) (xEncOp o).dst (l := ct) rfl
    (sealedDesc (slotDesc (issuedFlight (coreOf s core.toNat) r ⟨6, 2, h, o⟩) (xEncOp o).dst) (xEncOp o)
      (leNat (leBytes 12 (Config.freeGcmNonce s.freeCount).toNat)) (leNat tag))
  obtain ⟨hkind, hbit12, hbit15⟩ := sealedDesc_flags (slotDesc (issuedFlight (coreOf s core.toNat) r ⟨6, 2, h, o⟩) (xEncOp o).dst)
    (xEncOp o) (leNat (leBytes 12 (Config.freeGcmNonce s.freeCount).toNat)) (leNat tag)
  obtain ⟨htenant, hkeyId, hnonce, htag⟩ := sealedDesc_fields (slotDesc (issuedFlight (coreOf s core.toNat) r ⟨6, 2, h, o⟩) (xEncOp o).dst)
    (xEncOp o) (leNat (leBytes 12 (Config.freeGcmNonce s.freeCount).toNat)) (leNat tag)
  have hnonceVal : leNat (leBytes 12 (Config.freeGcmNonce s.freeCount).toNat) % 2 ^ 96 = (Config.freeGcmNonce s.freeCount).toNat := by
    have hlt := (Config.freeGcmNonce s.freeCount).isLt
    rw [leNat_leBytes]
    omega
  rw [← hdesc] at hkind hbit12 hbit15 htenant hkeyId hnonce htag
  exact ⟨_, congrArg Host.Outcome.next hstarts, ⟨ct, tag, hseal, hreads, htag⟩, hkind, hbit12, hbit15,
    htenant.trans (Nat.mod_eq_of_lt (BitVec.isLt _)), hkeyId.trans (Nat.mod_eq_of_lt (BitVec.isLt _)), hnonce.trans hnonceVal, hslot,
    hscalars, rfl⟩

/-! ### XSEAL (R366, R368, R369) -/

/-- The module that has written one sealed segment outward. -/
def withSegment (s : State) (e : OutEntry) (ct tag : List Byte) : State :=
  { s with host := s.host ++ [.segment e.req e.number e.final ct tag] }

theorem writeSegment_sealed {s : State} {e : OutEntry} {key : BitVec 256} {plain ct tag : List Byte}
    (hseal : gcmSeal (keyBytes key) (segNonce e.req.rid e.number) (segAad e.req.rid e.number e.final) plain = (ct, tag)) :
    writeSegment s e key plain = withSegment s e ct tag := by
  simp only [writeSegment, hseal, withSegment]

/-- The bytes that an XSEAL seals. -/
def sealSource (k : Core) (p : XSealOp) : List Byte := readBytes k.bytes (addr16 p.slot p.off) p.len

theorem xBegin_xseal {s s1 : State} {c : Nat} {k : Core} {u : UnitDesc} {f : Flight} {v : VKey} {e : OutEntry} {p : XSealOp}
    {ct tag : List Byte} (hop : f.word.opcode = 4) (hp : xSealOp f.word.o = p) (he : AMap.get none s.keys.outputs p.desc = some e)
    (hkey : keyScope s u.glade e.key none = some v) (hread : readGate k f.reads = .pass)
    (hdraw : drawTokens s u.glade .hostOut (segmentSize p.len) (unitReserved u) ⟨u.glade, 3, c, f.id, 0⟩ = some s1)
    (hseal : gcmSeal (keyBytes v.key) (segNonce e.req.rid e.number) (segAad e.req.rid e.number e.final) (sealSource k p) = (ct, tag)) :
    xBegin s c k u f = .go (withSegment s1 e ct tag) k { f with started := true, cycles := xCycles p.len } := by
  have hsegment := writeSegment_sealed (s := s1) hseal
  unfold sealSource at hsegment
  simp [xBegin, hop, hp, he, hkey, hread, afterGate, hdraw, hsegment]

theorem xseal_writesASegment (s s1 : State) (core : CoreId) (h : Hdr) (o : BitVec 88) (r : Running) (v : VKey) (e : OutEntry)
    (ct tag : List Byte) (hi : issuable s core.toNat r ⟨6, 4, h, o⟩) (hc : xCheck r.desc 4 o = none)
    (hfull : allFull (coreOf s core.toNat) (xReads 4 o)) (he : AMap.get none s.keys.outputs (xSealOp o).desc = some e)
    (hkey : keyScope s r.desc.glade e.key none = some v)
    (hdraw : drawTokens s r.desc.glade .hostOut (segmentSize (xSealOp o).len) (unitReserved r.desc)
      ⟨r.desc.glade, 3, core.toNat, r.issued, 0⟩ = some s1)
    (hseal : gcmSeal (keyBytes v.key) (segNonce e.req.rid e.number) (segAad e.req.rid e.number e.final)
      (sealSource (coreOf s core.toNat) (xSealOp o)) = (ct, tag)) :
    exec (.xseal core h o) s = .next (setCore { s1 with host := s.host ++ [.segment e.req e.number e.final ct tag] } core.toNat
      { issued (coreOf s core.toNat) r ⟨6, 4, h, o⟩ with
        flights := [{ flightOf (coreOf s core.toNat) r ⟨6, 4, h, o⟩ with
          started := true, cycles := 40 + ceilDiv (xSealOp o).len 64 }] }) := by
  have hsource : sealSource (issuedFlight (coreOf s core.toNat) r ⟨6, 4, h, o⟩) (xSealOp o) = sealSource (coreOf s core.toNat) (xSealOp o) := by
    rw [sealSource, issuedFlight_bytes, sealSource]
  obtain ⟨hcores, htabs, hhost⟩ := drawTokens_leaves hdraw
  have hbegin := xBegin_xseal (s := setCore s core.toNat (issuedFlight (coreOf s core.toNat) r ⟨6, 4, h, o⟩)) (c := core.toNat)
    (f := flightOf (coreOf s core.toNat) r ⟨6, 4, h, o⟩) rfl rfl he hkey (readGate_issuedFlight hfull ..) (drawTokens_setCore hdraw _ _)
    (hsource ▸ hseal)
  have hstarts := cipher_starts (s := s) (t := withSegment s1 e ct tag) hcores htabs hi hc hbegin rfl rfl rfl (runs_cipher rfl rfl rfl)
  rw [withSegment, hhost] at hstarts
  exact congrArg Host.Outcome.next hstarts

/-- Settles O15: each of the four instructions starts with its issue, and the slot, its descriptor and the segment are what its start makes of
them. The nonce of an XENC is a fresh free value (log 3). -/
theorem cipherEngine : Obligations.CipherEngine := by
  unfold Obligations.CipherEngine
  exact ⟨⟨xdec_decrypts, xopen_decrypts⟩, xenc_encrypts, xseal_writesASegment⟩

end Sys2Proof.Machine
end

section
/-!
PROOF. Every command answers a next state but an input beyond the absolute ratings (R531, R532), and O60.
-/
namespace Sys2Proof.Machine

/-- The meaning stops with no fault and no refusal. -/
def answers (r : Result) : Prop := ∃ t, r = .next t

theorem answers_next (t : State) : answers (.next t) := ⟨t, rfl⟩

/-- A meaning that decides between two that answer does. -/
theorem answers_ite {c : Prop} [Decidable c] {a b : Result} (ha : answers a) (hb : answers b) : answers (if c then a else b) := by
  split
  · exact ha
  · exact hb

/-! ### Meanings that decide before they answer -/

section
variable (core : CoreId) (s : State)

theorem engineStall_answers (e : EngineId) : answers (execEngineStall core e s) := by
  unfold execEngineStall
  dsimp only
  split
  · exact answers_ite (answers_next _) (answers_next _)
  · exact answers_next _

theorem unitBound_answers : answers (execUnitBound core s) := by
  unfold execUnitBound
  split <;> exact answers_next _

theorem arrayStop_answers : answers (execArrayStop core s) := answers_ite (answers_next _) (answers_next _)

theorem coreClockGate_answers : answers (execCoreClockGate core s) := answers_ite (answers_next _) (answers_next _)

theorem corePowerGate_answers : answers (execCorePowerGate core s) := answers_ite (answers_next _) (answers_next _)

theorem instructionComplete_answers (e : EngineId) (res : UnitResult) : answers (execInstructionComplete core e res s) := by
  unfold execInstructionComplete
  dsimp only
  split <;> exact answers_next _

end

section
variable (s : State)

theorem replayComplete_answers (unit : Nat) (o : ReplayOutcome) : answers (execReplayComplete unit o s) := by
  unfold execReplayComplete
  split
  · exact answers_next _
  · cases o <;> exact answers_next _

theorem t2RebuildEnd_answers (channel : Nat) : answers (execT2RebuildEnd channel s) := by
  unfold execT2RebuildEnd
  split <;> exact answers_next _

theorem t3DieFail_answers (channel die : Nat) (spare : Bool) : answers (execT3DieFail channel die spare s) :=
  answers_ite (answers_next _) (answers_next _)

theorem tableUpdateApplyEnd_answers (table : Nat) : answers (execTableUpdateApplyEnd table s) :=
  answers_ite (answers_next _) (answers_next _)

theorem sessionIdleExpiry_answers (session : W32) : answers (execSessionIdleExpiry session s) :=
  answers_ite (answers_next _) (answers_next _)

/-- R531, R532: an overvoltage stop within the absolute rating answers; beyond it nothing is defined. -/
theorem overvoltageStop_cases (mv : Nat) :
    answers (execOvervoltageStop mv s) ∨ 72000 < mv ∧ execOvervoltageStop mv s = .fault .damaged := by
  unfold execOvervoltageStop
  split
  next h => exact .inr ⟨h, rfl⟩
  next => exact .inl (answers_ite (answers_next _) (answers_next _))

end

/-- Settles O60: the meanings that decide before they answer do so in every case, an overvoltage within the rating too; each other meaning
is a next state as it is written. -/
theorem onlyOvervoltageStops : Obligations.OnlyOvervoltageStops := by
  unfold Obligations.OnlyOvervoltageStops
  intro s i
  cases i with
  | overvoltageStop mv => exact (overvoltageStop_cases s mv).imp_right fun ⟨h, hf⟩ => ⟨mv, rfl, h, hf⟩
  | engineStall core e => exact .inl (engineStall_answers core s e)
  | unitBound core => exact .inl (unitBound_answers core s)
  | arrayStop core => exact .inl (arrayStop_answers core s)
  | coreClockGate core => exact .inl (coreClockGate_answers core s)
  | corePowerGate core => exact .inl (corePowerGate_answers core s)
  | instructionComplete core e res => exact .inl (instructionComplete_answers core s e res)
  | replayComplete unit o => exact .inl (replayComplete_answers s unit o)
  | t2RebuildEnd channel => exact .inl (t2RebuildEnd_answers s channel)
  | t3DieFail channel die spare => exact .inl (t3DieFail_answers s channel die spare)
  | tableUpdateApplyEnd table => exact .inl (tableUpdateApplyEnd_answers s table)
  | sessionIdleExpiry session => exact .inl (sessionIdleExpiry_answers s session)
  | _ => exact .inl (answers_next _)

end Sys2Proof.Machine
end

section
/-!
PROOF. The bits of KT_READY, the states of the Grove ports, and what a link reset leaves alone: rules that the obligations on pins, resets and
the Grove use.
-/
namespace Sys2Proof.Machine

/-! ### KT_READY (R416) -/

theorem bitOf_putBit_same {n : Nat} (w : BitVec n) (i : Nat) (v : Bool) (h : i < n) : bitOf (putBit w i v) i = v := by
  rw [putBit, bitOf_setFld _ _ _ _ _ h]
  cases v <;> simp

theorem bitOf_putBit_other {n : Nat} (w : BitVec n) (i j : Nat) (v : Bool) (hj : j < n) (h : j ≠ i) : bitOf (putBit w i v) j = bitOf w j := by
  rw [putBit, bitOf_setFld _ _ _ _ _ hj, if_neg (by omega)]

/-- The fold that tells every function of a change of KT_READY. -/
def tellFuncs (s : State) (l : List Nat) : State :=
  l.foldl (fun s f => raiseEvent (setFunc s f { funcAt s f with readychg := true }) f) s

theorem setReadyWord_eq (s : State) (w : W64) : setReadyWord s w = if w = s.kt.ready then s
    else tellFuncs { s with kt := { s.kt with ready := w }, side := { s.side with ready := true, alert := true } } (List.range 9) := rfl

theorem tellFuncs_kt (s : State) (l : List Nat) : (tellFuncs s l).kt = s.kt := foldl_keeps _ State.kt (fun s f => by simp) l s

@[simp] theorem setReadyWord_kt (s : State) (w : W64) : (setReadyWord s w).kt = { s.kt with ready := w } := by
  rw [setReadyWord_eq]
  split
  next h => rw [h]
  next => rw [tellFuncs_kt]

@[simp] theorem setReady_kt (s : State) (i : Nat) (v : Bool) : (setReady s i v).kt = { s.kt with ready := putBit s.kt.ready i v } :=
  setReadyWord_kt s _

theorem readyBit_of_ready {s t : State} (h : t.kt.ready = s.kt.ready) (i : Nat) : readyBit t i = readyBit s i := by rw [readyBit, h, readyBit]

theorem readyBit_setReady_same (s : State) (i : Nat) (v : Bool) (h : i < 64) : readyBit (setReady s i v) i = v := by
  rw [readyBit, setReady_kt]
  exact bitOf_putBit_same _ _ _ h

theorem readyBit_setReady_other (s : State) (i j : Nat) (v : Bool) (hj : j < 64) (h : j ≠ i) : readyBit (setReady s i v) j = readyBit s j := by
  rw [readyBit, setReady_kt]
  exact bitOf_putBit_other _ _ _ _ hj h

theorem readyBit_dropReady (s : State) (keep : W64) (i : Nat) : readyBit (dropReady s keep) i = (readyBit s i && bitOf keep i) := by
  rw [readyBit, dropReady, setReadyWord_kt]
  exact BitVec.getLsbD_and

theorem alive_of_kt {s t : State} (hl : t.kt.life = s.kt.life) (hs : t.kt.shut = s.kt.shut) : alive t = alive s := by
  rw [alive, alive, clearingNow, clearingNow, hl, hs]

/-! ### States of the Grove ports (R464, R465) -/

theorem portAt_of_grove {s t : State} (h : t.grove = s.grove) (p : Nat) : portAt t p = portAt s p := by rw [portAt, h, portAt]

theorem portUp_of_port {s t : State} {p : Nat} (h : portAt t p = portAt s p) : portUp t p = portUp s p := by rw [portUp, h, portUp]

/-- The state in which the change of a port's STATE has been logged. -/
theorem setPortState_eq (s : State) (p n : Nat) : setPortState s p n = if (portAt s p).state = n then s
    else setReady (logAdd (setPort s p { portAt s p with state := n }) { logNone with kind := 5, code := n, detail := BitVec.ofNat 128 p })
      (bGrove p) (n == 2 || n == 3) := rfl

theorem portAt_setPortState_same (s : State) (p n : Nat) : portAt (setPortState s p n) p = { portAt s p with state := n } := by
  rw [setPortState_eq]
  split
  next h => rw [← h]
  next => rw [portAt_of_grove (setReady_grove ..), portAt_of_grove (logAdd_grove ..), portAt_setPort_same]

theorem portAt_setPortState_other (s : State) (p n x : Nat) (h : x ≠ p) : portAt (setPortState s p n) x = portAt s x := by
  rw [setPortState_eq]
  split
  · rfl
  · rw [portAt_of_grove (setReady_grove ..), portAt_of_grove (logAdd_grove ..), portAt_setPort_other _ _ _ _ h]

theorem portAt_setPortState_setPort_same (s : State) (p n : Nat) (x : Port) : portAt (setPortState (setPort s p x) p n) p = { x with state := n } := by
  rw [portAt_setPortState_same, portAt_setPort_same]

theorem portAt_setPortState_setPort_other (s : State) (p n y : Nat) (x : Port) (h : y ≠ p) :
    portAt (setPortState (setPort s p x) p n) y = portAt s y := by
  rw [portAt_setPortState_other _ _ _ _ h, portAt_setPort_other _ _ _ _ h]

/-- The port is neither up nor training. -/
def portStill (s : State) (p : Nat) : Prop := portUp s p = false ∧ (portAt s p).state ≠ 1

theorem portStill_of_state {s : State} {p n : Nat} (h : (portAt s p).state = n) (h1 : n ≠ 1) (h2 : n ≠ 2) (h3 : n ≠ 3) : portStill s p := by
  simp [portStill, portUp, h, h1, h2, h3]

theorem portStill_of_port {s t : State} {p : Nat} (h : portAt t p = portAt s p) (hs : portStill s p) : portStill t p := by
  rw [portStill, portUp, h]
  exact hs

theorem setPortState_log (s : State) (p n : Nat) (h : (portAt s p).state ≠ n) :
    (setPortState s p n).log = (logAdd s { logNone with kind := 5, code := n, detail := BitVec.ofNat 128 p }).log := by
  rw [setPortState_eq, if_neg h, setReady_log]
  rfl

section
variable (s : State) (p n : Nat)

@[simp] theorem setPortState_chip : (setPortState s p n).chip = s.chip := by rw [setPortState_eq]; split <;> simp
@[simp] theorem setPortState_media : (setPortState s p n).media = s.media := by rw [setPortState_eq]; split <;> simp
@[simp] theorem setPortState_reqs : (setPortState s p n).reqs = s.reqs := by rw [setPortState_eq]; split <;> simp
@[simp] theorem setPortState_changes : (setPortState s p n).changes = s.changes := by rw [setPortState_eq]; split <;> simp
@[simp] theorem setPortState_tap : (setPortState s p n).tap = s.tap := by rw [setPortState_eq]; split <;> simp
@[simp] theorem setPortState_keys : (setPortState s p n).keys = s.keys := by rw [setPortState_eq]; split <;> simp
@[simp] theorem setPortState_prot : (setPortState s p n).prot = s.prot := by rw [setPortState_eq]; split <;> simp
@[simp] theorem setPortState_tabs : (setPortState s p n).tabs = s.tabs := by rw [setPortState_eq]; split <;> simp
@[simp] theorem setPortState_regs : (setPortState s p n).regs = s.regs := by rw [setPortState_eq]; split <;> simp
@[simp] theorem setPortState_rc : (setPortState s p n).rc = s.rc := by rw [setPortState_eq]; split <;> simp

/-- A change of a port's STATE moves KT_READY and nothing else of the Kettle. -/
theorem setPortState_kt : ∃ w, (setPortState s p n).kt = { s.kt with ready := w } := by
  rw [setPortState_eq]
  split
  · exact ⟨s.kt.ready, rfl⟩
  · exact ⟨_, by simp; rfl⟩

end

/-! ### A link reset (R511) -/

@[simp] theorem dropReady_kt (s : State) (keep : W64) : (dropReady s keep).kt = { s.kt with ready := s.kt.ready &&& keep } :=
  setReadyWord_kt s _

/-- A live module with no link reset pending drops HOSTLINK at once and asks for the rest at the boundary. -/
theorem linkReset_of_alive {s : State} (hal : alive s = true) (hno : ∀ c ∈ s.changes, c ≠ .linkReset) :
    linkReset s = addChange (dropReady s (~~~(1#64 <<< bHostlink))) .linkReset := by
  have hmem : Change.linkReset ∉ s.changes := fun h => hno _ h rfl
  simp [linkReset, hal, hmem]

/-- Whatever a link reset asks for, it is of the changes, KT_READY and the notices of its change. -/
theorem linkReset_keeps {β : Type} (g : State → β) (hd : ∀ s w, g (setReadyWord s w) = g s) (hc : ∀ s c, g (addChange s c) = g s) (s : State) :
    g (linkReset s) = g s := by
  unfold linkReset
  split
  · rfl
  · rw [hc, dropReady, hd]

theorem linkReset_asks (s : State) (hal : alive s = true) : .linkReset ∈ (linkReset s).changes := by
  unfold linkReset
  rw [hal]
  split
  next h => simpa using h
  next => simp [addChange]

theorem bitOf_notHostlink (i : Nat) (h : i < 64) : bitOf (~~~(1#64 <<< bHostlink)) i = (i != 3) := by
  interval_cases i <;> rfl

end Sys2Proof.Machine
end

section
/-!
PROOF. The test access port (R518, R540, R541): O33.
-/
namespace Sys2Proof.Machine
open Sys2Proof.Claims

theorem tapSelect_powered {s : State} (h : kettlePowered s = true) (i : TapInstr) : tapSelect s i = { s with tap := { s.tap with instr := i } } :=
  if_pos h

theorem tapInstructions_select : tapInstructionsSelect := by
  intro s hpow
  have hscan : exec .internalScanInstruction s = .next (if s.kt.cleared then { s with tap := { s.tap with instr := .scan } } else s) := by
    rw [← tapSelect_powered hpow]
    rfl
  exact ⟨congrArg Host.Outcome.next (tapSelect_powered hpow _), congrArg Host.Outcome.next (tapSelect_powered hpow _),
    congrArg Host.Outcome.next (tapSelect_powered hpow _), fun cells => congrArg Host.Outcome.next (if_pos hpow), hscan, fun low => rfl⟩

/-! ### Ports that go down -/

theorem portStill_portDown_same (s : State) (p : Nat) : portStill (portDown s p) p := by
  unfold portDown
  split
  · exact portStill_of_state (n := 0) (congrArg Port.state (portAt_setPortState_setPort_same ..)) (by omega) (by omega) (by omega)
  next h => simpa [portStill] using h

theorem portStill_portDown {s : State} {p : Nat} (q : Nat) (h : portStill s p) : portStill (portDown s q) p := by
  by_cases hp : p = q
  · exact hp ▸ portStill_portDown_same s p
  · unfold portDown
    split
    · exact portStill_of_port (portAt_setPortState_setPort_other _ _ _ _ _ hp) h
    · exact h

theorem portStill_foldl_portDown (l : List Nat) {s : State} {p : Nat} (h : p ∈ l ∨ portStill s p) : portStill (l.foldl portDown s) p := by
  induction l generalizing s with
  | nil => exact h.resolve_left (by simp)
  | cons q l ih =>
    refine ih ?_
    rcases h with hmem | hs
    · rcases List.mem_cons.mp hmem with rfl | hl
      · exact .inr (portStill_portDown_same s p)
      · exact .inl hl
    · exact .inr (portStill_portDown q hs)

/-- What the ports' going down leaves alone. -/
theorem portDown_keeps {β : Type} (g : State → β) (hp : ∀ s p n, g (setPortState s p n) = g s) (hx : ∀ s p x, g (setPort s p x) = g s)
    (hg : ∀ (s : State) b, g { s with grove := { s.grove with recheck := b } } = g s) (s : State) (p : Nat) : g (portDown s p) = g s := by
  unfold portDown
  split
  · rw [hg, hp, hx]
  · rfl

/-! ### An instruction that disconnects the pins -/

/-- The state in which the instruction stands and the pins are cut. -/
def cutPins (s : State) (x : TapInstr) : State := { s with tap := { s.tap with instr := x, cut := true } }

/-- The state before the ports go down. -/
def cutLink (s : State) (x : TapInstr) : State := if readyBit s bHostlink then linkReset (cutPins s x) else cutPins s x

theorem tapCut_powered {s : State} (h : kettlePowered s = true) (x : TapInstr) : tapCut s x = (List.range 8).foldl portDown (cutLink s x) := by
  rw [tapCut, h]
  rfl

theorem cutLink_keeps {β : Type} (g : State → β) (hd : ∀ s w, g (setReadyWord s w) = g s) (hc : ∀ s c, g (addChange s c) = g s) (s : State)
    (x : TapInstr) : g (cutLink s x) = g (cutPins s x) := by
  unfold cutLink
  split
  · exact linkReset_keeps g hd hc _
  · rfl

theorem tapCut_keeps {β : Type} (g : State → β) (hd : ∀ s w, g (setReadyWord s w) = g s) (hc : ∀ s c, g (addChange s c) = g s)
    (hp : ∀ s p n, g (setPortState s p n) = g s) (hx : ∀ s p x, g (setPort s p x) = g s)
    (hg : ∀ (s : State) b, g { s with grove := { s.grove with recheck := b } } = g s) {s : State} (h : kettlePowered s = true) (x : TapInstr) :
    g (tapCut s x) = g (cutPins s x) := by
  rw [tapCut_powered h, foldl_keeps portDown g (portDown_keeps g hp hx hg), cutLink_keeps g hd hc]

theorem tapCut_changes {s : State} (h : kettlePowered s = true) (x : TapInstr) : (tapCut s x).changes = (cutLink s x).changes := by
  rw [tapCut_powered h]
  exact foldl_keeps portDown State.changes (portDown_keeps _ (fun s p n => by simp) (fun s p x => by simp) fun s b => rfl) _ _

theorem tapCut_takesTheLinksDown (s : State) (x : TapInstr) (hpow : kettlePowered s = true) :
    (tapCut s x).tap = { s.tap with instr := x, cut := true } ∧ (∀ p, p < 8 → portUp (tapCut s x) p = false ∧ (portAt (tapCut s x) p).state ≠ 1)
      ∧ (alive s = true → readyBit s 3 = true → .linkReset ∈ (tapCut s x).changes) ∧ (tapCut s x).reqs = s.reqs
      ∧ (tapCut s x).media = s.media ∧ (tapCut s x).chip = s.chip := by
  refine ⟨?_, fun p hp => ?_, fun hal hlink => ?_, ?_, ?_, ?_⟩
  · exact tapCut_keeps State.tap (by simp) (by simp [addChange]) (by simp) (by simp) (by simp) hpow x
  · rw [tapCut_powered hpow]
    exact portStill_foldl_portDown _ (.inl (List.mem_range.mpr hp))
  · rw [tapCut_changes hpow, cutLink, if_pos (show readyBit s bHostlink = true from hlink)]
    exact linkReset_asks _ hal
  · exact tapCut_keeps State.reqs (by simp) (by simp [addChange]) (by simp) (by simp) (by simp) hpow x
  · exact tapCut_keeps State.media (by simp) (by simp [addChange]) (by simp) (by simp) (by simp) hpow x
  · exact tapCut_keeps State.chip (by simp) (by simp [addChange]) (by simp) (by simp) (by simp) hpow x

/-- Settles O33: the instructions that leave the pins alone are a selection; each of the five that disconnect them cuts the host link, then
takes the eight ports down one after the other. -/
theorem testAccessPort : Obligations.TestAccessPort := by
  unfold Obligations.TestAccessPort
  refine ⟨tapInstructions_select, fun s i x hpow hi => ⟨tapCut s x, ?_, tapCut_takesTheLinksDown s x hpow⟩⟩
  simp only [List.mem_cons, Prod.mk.injEq, List.not_mem_nil, or_false] at hi
  rcases hi with ⟨rfl, rfl⟩ | ⟨rfl, rfl⟩ | ⟨rfl, rfl⟩ | ⟨rfl, rfl⟩ | ⟨rfl, rfl⟩ <;> rfl

end Sys2Proof.Machine
end

section
/-!
PROOF. The transactions of the sideband (R421, R422, R539): O32.
-/
namespace Sys2Proof.Machine

section
variable (s : State) (hpow : kettlePowered s = true)

include hpow

theorem sideActs_powered : sideActs s true = true := hpow

theorem regAddr_selects (off : W16) (h : sideReg off.toNat = true) :
    exec (.regAddr off true) s = .next { s with side := { s.side with reg := off.toNat } } := by
  simp [exec, execRegAddr, sideActs_powered s hpow, h]

theorem regData_reads (h : sideReg s.side.reg = true) (hdraw : s.side.reg ≠ 0x220) :
    exec (.regData none true) s = .next { s with host := s.host ++ [.smbus (leBytes 8 (readReg s 0 s.side.reg).toNat)] } := by
  simp [exec, execRegData, sideActs_powered s hpow, h, hdraw, answer]

theorem regData_writesScratch (v : W64) (h : s.side.reg = 0x118) :
    exec (.regData (some v) true) s = .next { s with kt := { s.kt with scratch := v } } := by
  simp [exec, execRegData, sideActs_powered s hpow, h, sideReg, writeReg, pfOnly, writeModule, merge]

theorem msgPut_appends (l : List Byte) (hne : l ≠ []) (hlen : l.length ≤ 255) (hfit : s.side.buffer.length + l.length ≤ 65536) :
    exec (.msgPut l true) s = .next { s with side := { s.side with buffer := s.side.buffer ++ l } } := by
  simp [exec, execMsgPut, sideActs_powered s hpow, hne, bufferLimit, Nat.not_lt.mpr hlen, Nat.not_lt.mpr hfit]

theorem msgPut_overflows (l : List Byte) (hne : l ≠ []) (hlen : l.length ≤ 255) (hover : 65536 < s.side.buffer.length + l.length) :
    exec (.msgPut l true) s = .next { s with side := { s.side with overflow := true } } := by
  simp [exec, execMsgPut, sideActs_powered s hpow, hne, bufferLimit, Nat.not_lt.mpr hlen, hover]

theorem msgGo_runs (hrun : s.side.running = false) (hreply : s.side.reply = []) :
    exec (.msgGo true) s = .next { s with side := { s.side with running := true, buffer := [], overflow := false } } := by
  simp [exec, execMsgGo, sideActs_powered s hpow, hrun, hreply]

theorem msgGet_answers : exec (.msgGet true) s
    = .next { s with side := { s.side with reply := s.side.reply.drop 255 }, host := s.host ++ [.smbus (s.side.reply.take 255)] } := by
  simp [exec, execMsgGet, sideActs_powered s hpow, answer]

/-- MSG_STAT: bit 0 a pending reply, bit 1 the overflow, the buffer's fill above. -/
theorem msgStat_answers : ∃ n, exec (.msgStat true) s = .next { s with host := s.host ++ [.smbus (leBytes 2 n)] }
    ∧ n % 2 = (if s.side.reply = [] then 0 else 1) ∧ n / 2 % 2 = (if s.side.overflow then 1 else 0) := by
  refine ⟨bitNat (!s.side.reply.isEmpty) 0 + bitNat s.side.overflow 1 + s.side.buffer.length / 4 % 16384 * 4, ?_, ?_, ?_⟩
  · simp [exec, execMsgStat, sideActs_powered s hpow, answer]
  · by_cases hr : s.side.reply = [] <;> cases s.side.overflow <;> simp [bitNat, hr] <;> omega
  · by_cases hr : s.side.reply = [] <;> cases s.side.overflow <;> simp [bitNat, hr] <;> omega

theorem alertResponse_answers (h : s.side.alert = true) : exec .smbusAlertResponse s = .next { s with
    side := { s.side with alert := false, ready := false }, host := s.host ++ [.smbus (leBytes 1 (2 * (0x40 + s.pins.slotId.toNat)))] } := by
  simp [exec, execSmbusAlertResponse, hpow, h, answer]

end

/-- A transaction whose PEC does not hold does nothing. -/
theorem invalidPec_changesNothing (s : State) (off : W16) (w : Option W64) (l : List Byte) :
    exec (.regAddr off false) s = .next s ∧ exec (.regData w false) s = .next s ∧ exec (.msgPut l false) s = .next s
      ∧ exec (.msgGo false) s = .next s ∧ exec (.msgGet false) s = .next s ∧ exec (.msgStat false) s = .next s := ⟨rfl, rfl, rfl, rfl, rfl, rfl⟩

/-- Settles O32: each transaction acts when its PEC holds and the Kettle has power, and does nothing otherwise. -/
theorem sidebandTransactions : Obligations.SidebandTransactions := by
  unfold Obligations.SidebandTransactions
  exact fun s hpow => ⟨regAddr_selects s hpow, regData_reads s hpow, regData_writesScratch s hpow, msgPut_appends s hpow,
    msgPut_overflows s hpow, msgGo_runs s hpow, msgGet_answers s hpow, msgStat_answers s hpow, alertResponse_answers s hpow, rfl,
    invalidPec_changesNothing s⟩

end Sys2Proof.Machine
end

section
/-!
PROOF. Configuration requests, the interrupt of a pair and BI_ONLINE (R383, R394, R528): O31.
-/
namespace Sys2Proof.Machine

theorem configRequest_retries {s : State} {f : Byte} (hpow : kettlePowered s = true) (hf : f.toNat ≤ 8) (hctrl : readyBit s 2 = false) :
    exec (.pcieConfigRequest f) s = .next { s with host := s.host ++ [.config f.toNat true] } := by
  simp [exec, execPcieConfigRequest, bCtrl, hpow, hctrl, Nat.not_lt.mpr hf]

theorem configRequest_answers {s : State} {f : Byte} (hpow : kettlePowered s = true) (hf : f.toNat ≤ 8) (hctrl : readyBit s 2 = true)
    (hen : (funcAt s f.toNat).enabled = true) :
    exec (.pcieConfigRequest f) s = .next { s with host := s.host ++ [.config f.toNat false] } := by
  simp [exec, execPcieConfigRequest, bCtrl, hpow, hctrl, hen, Nat.not_lt.mpr hf]

/-! ### The interrupt of a pair -/

theorem vecAt_setPair (s : State) (n : Nat) (p : Pair) (f v : Nat) : vecAt (setPair s n p) f v = vecAt s f v := rfl

theorem vecAt_setVec_same (s : State) (f v : Nat) (x : Vec) : vecAt (setVec s f v x) f v = x := AMap.get_put_same ..

theorem pairAt_setVec (s : State) (f v n : Nat) (x : Vec) : pairAt (setVec s f v x) n = pairAt s n := rfl

theorem pairAt_raiseVec (s : State) (f v n : Nat) : pairAt (raiseVec s f v) n = pairAt s n := by
  unfold raiseVec
  split <;> rfl

/-- A vector that is masked, or that finds the link down, waits. -/
theorem raiseVec_waits {s : State} {f v : Nat} (h : (vecAt s f v).masked = true ∨ readyBit s 3 = false) :
    (vecAt (raiseVec s f v) f v).pending = true ∧ (raiseVec s f v).host = s.host := by
  have hc : ((vecAt s f v).masked || !readyBit s bHostlink) = true := by simpa [bHostlink] using h
  rw [raiseVec, if_pos hc, vecAt_setVec_same]
  exact ⟨rfl, rfl⟩

theorem raiseVec_goes {s : State} {f v : Nat} (h : ¬ ((vecAt s f v).masked = true ∨ readyBit s 3 = false)) :
    (raiseVec s f v).host = s.host ++ [.msix f v] := by
  have hc : ¬ ((vecAt s f v).masked || !readyBit s bHostlink) = true := by simpa [bHostlink] using h
  rw [raiseVec, if_neg hc]

/-- The pair whose records have been raised. -/
def raisedPair (s : State) (n : Nat) : State := setPair s n { pairAt s n with unraised := 0 }

theorem msixRaise_eq {s : State} {n : Nat} (hn : n < 64) (hun : (pairAt s n).unraised ≠ 0) :
    exec (.msixRaise n) s = .next (raiseVec (raisedPair s n) (funcOfPair n) (pairAt s n).force.vec) := by
  simp [exec, execMsixRaise, raisedPair, Nat.not_le.mpr hn, hun]

theorem msixRaise_raises {s : State} {n : Nat} (hn : n < 64) (hun : (pairAt s n).unraised ≠ 0) :
    ∃ t, exec (.msixRaise n) s = .next t ∧ (pairAt t n).unraised = 0
      ∧ (if (vecAt s (funcOfPair n) (pairAt s n).force.vec).masked = true ∨ readyBit s 3 = false
         then (vecAt t (funcOfPair n) (pairAt s n).force.vec).pending = true ∧ t.host = s.host
         else t.host = s.host ++ [.msix (funcOfPair n) (pairAt s n).force.vec]) := by
  refine ⟨_, msixRaise_eq hn hun, ?_, ?_⟩
  · rw [pairAt_raiseVec, raisedPair, pairAt_setPair_same]
  · split
    next h => exact raiseVec_waits (s := raisedPair s n) h
    next h => exact raiseVec_goes (s := raisedPair s n) h

/-! ### BI_ONLINE -/

theorem onlineRequest_noted {s : State} {site : Nat} (hal : alive s = true) (hlife : s.kt.life ≠ .recovery) (htest : s.bi.testing = none)
    (hfenced : site ∈ s.chip.fenced) : onlineRequest s site = { s with bi := { s.bi with wanted := setHas s.bi.wanted site } } := by
  simp [onlineRequest, hal, hlife, htest, hfenced]

/-- Settles O31. -/
theorem requestsInterruptsAndOnlineTests : Obligations.RequestsInterruptsAndOnlineTests := by
  unfold Obligations.RequestsInterruptsAndOnlineTests
  refine ⟨fun s f hpow hf => ⟨configRequest_retries hpow hf, configRequest_answers hpow hf⟩, fun s n hn hun => msixRaise_raises hn hun,
    fun s site hreach hal hlife htest hfenced => ⟨{ s with bi := { s.bi with wanted := setHas s.bi.wanted site.toNat } }, ?_,
      mem_setHas _ _, rfl, rfl⟩⟩
  rw [← onlineRequest_noted hal hlife htest hfenced]
  exact congrArg Host.Outcome.next (if_pos hreach)

end Sys2Proof.Machine
end

section
/-!
PROOF. Host writes to the registers, PW_COMMIT and VL_STAT (R385, R416 to R420): O29.
-/
namespace Sys2Proof.Machine
open Sys2Proof.Claims

/-! ### PW_COMMIT -/

theorem commitPower_checks (s : State) : commitPower s
    = if 1200 ≤ s.power.sustShadow ∧ s.power.sustShadow ≤ s.power.peakShadow ∧ s.power.peakShadow ≤ 3000
      then { wake s with changes := s.changes ++ [.power s.power.sustShadow s.power.peakShadow] }
      else { s with power := { s.power with disagree := true } } := by
  simp [commitPower, addChange, wake_changes, and_assoc]

theorem powerCommit_checksTheLimits : powerCommitChecksTheLimits := by
  intro s value hpow hgo
  have hgoes : exec (.pwCommit value) s = .next (commitPower s) := by simp [exec, execPwCommit, hpow, hgo]
  exact hgoes.trans (congrArg Host.Outcome.next (commitPower_checks s))

/-! ### Writes -/

theorem registerWrite_unreached {s : State} {func : Byte} (h : reached s func.toNat = false) (off : W16) (half : Option Bool) (value : W64) :
    exec (.registerWrite func off half value) s = .next s := by
  simp [exec, execRegisterWrite, h]

theorem registerWrite_reached {s : State} {func : Byte} (h : reached s func.toNat = true) (off : W16) (half : Option Bool) (value : W64) :
    exec (.registerWrite func off half value) s = .next (writeReg s func.toNat off.toNat half value) := by
  simp [exec, execRegisterWrite, h]

theorem pfOnly_iff (off : Nat) : pfOnly off = true ↔ 0x0100 ≤ off ∧ off < 0x0800 := by simp [pfOnly]

theorem writeReg_vf {s : State} {f off : Nat} (half : Option Bool) (value : W64) (h : pfOnly off = true) (hf : f ≠ 0) :
    writeReg s f off half value = s := by
  simp [writeReg, h, hf]

theorem writeReg_scratch (s : State) (half : Option Bool) (value : W64) :
    writeReg s 0 0x118 half value = { s with kt := { s.kt with scratch := merge s.kt.scratch value half } } := rfl

theorem readReg_scratch (s : State) : readReg s 0 0x118 = s.kt.scratch := rfl

theorem writeReg_sustained (s : State) (value : W64) :
    writeReg s 0 0x200 none value = { s with power := { s.power with sustShadow := fld value 0 16 } } := rfl

theorem writeReg_qsel (s : State) (f : Nat) (value : W64) :
    writeReg s f 0x10 none value = setFunc s f { funcAt s f with qsel := fld value 0 3 } := rfl

theorem readReg_qsel (s : State) (f : Nat) : readReg s f 0x10 = w64 (funcAt s f).qsel := rfl

theorem funcAt_setFunc_self (s : State) (f : Nat) (x : Func) : funcAt (setFunc s f x) f = x := AMap.get_put_same ..

theorem registerWrites_reachTheirRegister : registerWritesReachTheirRegister := by
  intro s func value
  refine ⟨fun h off half => registerWrite_unreached h off half value, fun h => ⟨fun hf off half hlo hhi => ?_, ?_, ?_, ?_, ?_⟩⟩
  · have hvf : func.toNat ≠ 0 := fun h0 => hf (BitVec.eq_of_toNat_eq h0)
    rw [registerWrite_reached h, writeReg_vf half value ((pfOnly_iff _).mpr ⟨hlo, hhi⟩) hvf]
  · rintro rfl
    exact ⟨_, registerWrite_reached h _ _ _, rfl, rfl⟩
  · rintro rfl
    refine ⟨_, registerWrite_reached h _ _ _, ?_⟩
    exact BitVec.or_comm ..
  · rintro rfl
    exact registerWrite_reached h _ _ _
  · refine ⟨_, registerWrite_reached h _ _ _, ?_, ?_⟩
    · exact congrArg Func.qsel (funcAt_setFunc_self ..)
    · exact congrArg (fun x : Func => w64 x.qsel) (funcAt_setFunc_self ..)

/-! ### VL_STAT -/

theorem fld_w64 (n lo len : Nat) (h : lo + len ≤ 64) : fld (w64 n) lo len = n / 2 ^ lo % 2 ^ len := by
  have hsplit : 2 ^ 64 = 2 ^ lo * 2 ^ (64 - lo) := by rw [← Nat.pow_add]; congr 1; omega
  have hlen : 2 ^ len ∣ 2 ^ (64 - lo) := Nat.pow_dvd_pow 2 (by omega)
  rw [fld, BitVec.extractLsb'_toNat, w64, BitVec.toNat_ofNat, Nat.shiftRight_eq_div_pow, hsplit, Nat.mod_mul_right_div_self,
    Nat.mod_mod_of_dvd _ hlen]

theorem bitOf_w64 (n i : Nat) (h : i < 64) : bitOf (w64 n) i = n.testBit i := by
  rw [bitOf, w64, BitVec.getLsbD_ofNat, decide_eq_true h, Bool.true_and]

/-- VL_STAT: whether there is a store, and an owner in it, and the low 32 bits of its generation. -/
def vlWord (store owner : Bool) (gen : Nat) : W64 := w64 (bitNat store 0 + bitNat owner 1 + gen % 2 ^ 32 * 2 ^ 32)

theorem readReg_vlStat (s : State) :
    readReg s 0 0x400 = vlWord s.prot.store.isSome (s.prot.store.bind (fun t => t.owner)).isSome (generationOf s) := rfl

theorem vlWord_fields (store owner : Bool) (gen : Nat) :
    bitOf (vlWord store owner gen) 0 = store ∧ bitOf (vlWord store owner gen) 1 = owner ∧ fld (vlWord store owner gen) 2 30 = 0
      ∧ fld (vlWord store owner gen) 32 32 = gen % 2 ^ 32 := by
  rw [vlWord, bitOf_w64 _ _ (by omega), bitOf_w64 _ _ (by omega), fld_w64 _ _ _ (by omega), fld_w64 _ _ _ (by omega),
    Nat.testBit_eq_decide_div_mod_eq, Nat.testBit_eq_decide_div_mod_eq]
  have hgen : gen % 2 ^ 32 < 2 ^ 32 := Nat.mod_lt _ (by omega)
  generalize gen % 2 ^ 32 = g at hgen
  cases store <;> cases owner <;> simp [bitNat] <;> omega

theorem registerWrite_vlStat (s : State) (func : Byte) (half : Option Bool) (value : W64) :
    exec (.registerWrite func 0x400#16 half value) s = .next s := by
  have hwrite : writeReg s func.toNat 0x400 half value = s := by
    by_cases hf : func.toNat = 0
    · rw [hf]; rfl
    · exact writeReg_vf half value rfl hf
  cases h : reached s func.toNat with
  | false => exact registerWrite_unreached h _ _ _
  | true => exact (registerWrite_reached h _ _ _).trans (congrArg Host.Outcome.next hwrite)

theorem vlStat_showsTheStore : vlStatShowsTheStore := by
  refine ⟨rfl, fun s => ?_⟩
  rw [readReg_vlStat]
  obtain ⟨hstore, howner, hzero, hgen⟩ := vlWord_fields s.prot.store.isSome (s.prot.store.bind (fun t => t.owner)).isSome (generationOf s)
  refine ⟨hstore, howner, hzero, hgen.trans ?_, registerWrite_vlStat s⟩
  unfold generationOf
  cases s.prot.store <;> rfl

/-- Settles O29. -/
theorem registersAndLimits : Obligations.RegistersAndLimits := by
  unfold Obligations.RegistersAndLimits
  exact ⟨powerCommit_checksTheLimits, registerWrites_reachTheirRegister, vlStat_showsTheStore⟩

end Sys2Proof.Machine
end

section
/-!
PROOF. CD_QCOMMIT and the doorbells (R386 to R389): O28.
-/
namespace Sys2Proof.Machine
open Sys2Proof.Claims

theorem pairAt_setPair_other (s : State) (n m : Nat) (p : Pair) (h : m ≠ n) : pairAt (setPair s n p) m = pairAt s m :=
  AMap.get_put_other _ _ _ _ _ h

/-! ### CD_QCOMMIT (R388) -/

/-- The pair whose commit is turned away. -/
def turnedAway (s : State) (f n : Nat) : Pair :=
  { pairAt s n with
    disagree := (pairAt s n).disagree || commitDisagrees f (pairAt s n).shadow
    busy := (pairAt s n).busy || ((pairAt s n).active && inflight s n != 0) }

/-- The shadow is taken: the pair's commit and, once, its change. -/
def staged (s : State) (n : Nat) : State :=
  let t := setPair s n { pairAt s n with commit := some (pairAt s n).shadow }
  if t.changes.contains (.pair n) then t else addChange t (.pair n)

theorem commitPair_eq {s : State} {f n : Nat} (h : pairNumber f (funcAt s f).qsel = some n) : commitPair s f
    = if commitDisagrees f (pairAt s n).shadow = true ∨ ((pairAt s n).active = true ∧ inflight s n ≠ 0)
      then setPair s n (turnedAway s f n) else staged s n := by
  simp [commitPair, h, turnedAway, staged]

theorem staged_pair (s : State) (n : Nat) : pairAt (staged s n) n = { pairAt s n with commit := some (pairAt s n).shadow } := by
  unfold staged
  dsimp only
  split <;> exact pairAt_setPair_same ..

theorem staged_others (s : State) (n m : Nat) (h : m ≠ n) : pairAt (staged s n) m = pairAt s m := by
  unfold staged
  dsimp only
  split <;> exact pairAt_setPair_other _ _ _ _ h

theorem staged_change (s : State) (n : Nat) : .pair n ∈ (staged s n).changes := by
  unfold staged
  dsimp only
  split
  next h => simpa using h
  next => simp [addChange]

theorem staged_rest (s : State) (n : Nat) : (staged s n).reqs = s.reqs ∧ (staged s n).media = s.media := by
  unfold staged
  dsimp only
  split <;> exact ⟨rfl, rfl⟩

theorem queueCommit_checksAndStages : queueCommitChecksAndStages := by
  intro s func value n hreach hgo hn
  have hexec : exec (.cdQcommit func value) s = .next (commitPair s func.toNat) := by simp [exec, execCdQcommit, hreach, hgo]
  rw [commitPair_eq hn] at hexec
  refine ⟨_, hexec, ?_⟩
  split
  next h =>
    rw [pairAt_setPair_same]
    exact ⟨rfl, fun m hm => pairAt_setPair_other _ _ _ _ hm, rfl, rfl, rfl, rfl, rfl, rfl⟩
  next h =>
    obtain ⟨hreqs, hmedia⟩ := staged_rest s n
    rw [staged_pair]
    exact ⟨rfl, staged_others s n, hreqs, hmedia, rfl, staged_change s n, rfl⟩

/-! ### The doorbells (R389) -/

/-- Writing held records appends to what the host sees, and leaves the completion head. -/
theorem drainHeld_appends (k : Nat) (s : State) (n : Nat) :
    (∃ more, (drainHeld k s n).host = s.host ++ more) ∧ (pairAt (drainHeld k s n) n).cqHead = (pairAt s n).cqHead := by
  induction k generalizing s with
  | zero => exact ⟨⟨[], (List.append_nil _).symm⟩, rfl⟩
  | succ k ih =>
    unfold drainHeld
    split
    · exact ⟨⟨[], (List.append_nil _).symm⟩, rfl⟩
    next c r _ =>
      split
      · obtain ⟨⟨more, hhost⟩, hhead⟩ := ih (writeRecord (setPair s n { pairAt s n with held := r }) n c)
        refine ⟨⟨_, hhost.trans (List.append_assoc ..)⟩, hhead.trans ?_⟩
        simp [writeRecord, pairAt, setPair, AMap.get_put_same]
      · exact ⟨⟨[], (List.append_nil _).symm⟩, rfl⟩

/-- A pair with room writes its oldest held record first. -/
theorem drainHeld_writes {s : State} {n k : Nat} {c : Completion} {r : List Completion} (hheld : (pairAt s n).held = c :: r)
    (hroom : (pairAt s n).room = true) :
    ∃ more, (drainHeld (k + 1) s n).host = s.host ++ [.record n (pairAt s n).cqTail (pairAt s n).phase c] ++ more := by
  obtain ⟨⟨more, hhost⟩, _⟩ := drainHeld_appends k (writeRecord (setPair s n { pairAt s n with held := r }) n c) n
  refine ⟨more, ?_⟩
  rw [drainHeld, hheld]
  simp only [hroom, if_true]
  rw [hhost]
  simp [writeRecord]

theorem doorbells_moveTheRings : doorbellsMoveTheRings := by
  intro s func loc value n hreach hn hactive
  have hsubmit : exec (.cdSqdb func loc value) s = .next (submitBell s func.toNat loc value) := by simp [exec, execCdSqdb, hreach]
  have hcomplete : exec (.cdCqdb func loc value) s = .next (completeBell s func.toNat loc value) := by simp [exec, execCdCqdb, hreach]
  have hdrains : fld value 0 12 < (pairAt s n).cqSize →
      completeBell s func.toNat loc value = drainHeld (pairAt s n).held.length (setPair s n { pairAt s n with cqHead := fld value 0 12 }) n := by
    intro h
    simp [completeBell, hn, hactive, Nat.not_le.mpr h]
  refine ⟨fun h => ?_, fun h => ?_, fun h => ?_, fun h hheld => ?_, fun c r h hheld hroom => ?_⟩
  · simp [hsubmit, submitBell, hn, hactive, Nat.not_le.mpr h]
  · simp [hsubmit, submitBell, hn, hactive, h]
  · simp [hcomplete, completeBell, hn, hactive, h]
  · rw [hcomplete, hdrains h, hheld]
    rfl
  · rw [hdrains h, hheld, List.length_cons] at hcomplete
    have hpair := pairAt_setPair_same s n { pairAt s n with cqHead := fld value 0 12 }
    obtain ⟨_, hhead⟩ := drainHeld_appends (r.length + 1) (setPair s n { pairAt s n with cqHead := fld value 0 12 }) n
    obtain ⟨more, hhost⟩ := drainHeld_writes (k := r.length) (s := setPair s n { pairAt s n with cqHead := fld value 0 12 }) (n := n) (c := c)
      (r := r) (by rw [hpair]; exact hheld) (by rw [hpair]; simpa [Pair.room, Pair.cqSize] using hroom)
    rw [hpair] at hhead hhost
    exact ⟨_, more, hcomplete, hhead, hhost⟩

/-- Settles O28: the commit is one decision on the shadow and the pair's load; a doorbell moves its index or sets BADDB, and then drains. -/
theorem queuePairsTakeTheirRegisters : Obligations.QueuePairsTakeTheirRegisters := by
  unfold Obligations.QueuePairsTakeTheirRegisters
  exact ⟨queueCommit_checksAndStages, doorbells_moveTheRings⟩

end Sys2Proof.Machine
end

section
/-!
PROOF. REGULATOR_REFILL (R430): O21.
-/
namespace Sys2Proof.Machine
open Sys2Proof.Claims

/-- The reserved part of a bucket's depth is no more than the depth. -/
theorem reservedDepth_le {b : Bucket} (h : b.rRes ≤ b.rate) : (bucketDepths b).1 ≤ b.depth := by
  unfold bucketDepths
  dsimp only
  split
  · exact Nat.zero_le _
  · exact Nat.div_le_of_le_mul (by rw [Nat.mul_comm b.rate]; exact Nat.mul_le_mul_left _ h)

theorem bucketDepths_sum {b : Bucket} (h : b.rRes ≤ b.rate) : (bucketDepths b).1 + (bucketDepths b).2 = b.depth :=
  Nat.add_sub_cancel' (reservedDepth_le h)

theorem refillBucket_res (b : Bucket) : (refillBucket b).res = min ((bucketDepths b).1 : Int) (b.res + b.rRes) := rfl

theorem refillBucket_free (b : Bucket) : (refillBucket b).free = min ((bucketDepths b).2 : Int) (b.free + (b.rate - b.rRes : Nat)) := rfl

/-- A part that gains its rate up to a depth that holds it neither falls nor gains more. -/
theorem min_add_bounds {d x : Int} (r : Nat) (h : x ≤ d) : x ≤ min d (x + r) ∧ min d (x + r) ≤ x + r := by omega

/-- A module at rest with no scan under way: time goes on and the buckets refill. -/
def refilled (s : State) : State := { s with time := s.time + 1, regs := s.regs.map (fun p => (p.1, p.2.map refillSet)) }

theorem refilled_rest {s : State} (h : restAll s) : restAll (refilled s) := restAll_of_chip rfl (fun _ ha => ha) h

theorem runScans_none {s : State} (h : s.under.scans = []) : runScans s = s := by rw [runScans, h]; rfl

theorem regulatorRefill_atRest {s : State} (hal : alive s = true) (hrest : restAll s) (hscans : s.under.scans = []) :
    exec .regulatorRefill s = .next (refilled s) := by
  have hruns : runScans (refilled s) = refilled s := runScans_none hscans
  have hal' : alive { s with time := s.time + 1 } = true := hal
  change Host.Outcome.next (if !alive { s with time := s.time + 1 } then _ else finishAll (goAll (runScans (refilled s)) 0)) = _
  rw [hal', hruns, goAll_rest _ _ (refilled_rest hrest), finishAll_rest _ (refilled_rest hrest)]
  rfl

/-- Settles O21. -/
theorem refillAddsOneMicrosecond : Obligations.RefillAddsOneMicrosecond := by
  unfold Obligations.RefillAddsOneMicrosecond
  refine ⟨fun s hal hrest hscans => regulatorRefill_atRest hal hrest hscans, fun b hb => ⟨⟨?_, ?_⟩, ?_, ?_, bucketDepths_sum hb⟩⟩
  · exact min_le_left _ _
  · exact min_le_left _ _
  · exact min_add_bounds _
  · exact min_add_bounds _

end Sys2Proof.Machine
end

section
/-!
PROOF. Block resets (R491): O30.
-/
namespace Sys2Proof.Machine
open Sys2Proof.Claims

/-- What the write of RC_BLOCK answers on a live module with no reset in progress. -/
theorem blockReset_answers {s : State} (hal : alive s = true) (hfree : s.rc.block = none) (type index e : Nat) : blockReset s type index e
    = if blockNamed s type index e = false then { s with rc := { s.rc with badSel := true } }
      else if blockIdle s type index = false then { s with rc := { s.rc with notIdle := true } }
      else { s with rc := { s.rc with block := some (type, index, e) } } := by
  simp [blockReset, hal, hfree]

theorem blockResets_begin : blockResetsBegin := by
  intro s index engine hal hfree i type e hi
  simp only [List.mem_cons, Prod.mk.injEq, List.not_mem_nil, or_false] at hi
  rcases hi with ⟨rfl, rfl, rfl⟩ | ⟨rfl, rfl, rfl⟩ | ⟨rfl, rfl, rfl⟩ | ⟨rfl, rfl, rfl⟩ | ⟨rfl, rfl, rfl⟩ <;>
    exact congrArg Host.Outcome.next (blockReset_answers hal hfree _ _ _)

/-- The reset in progress is done: its effect, and RC_STAT DONE. -/
theorem blockResetDone_eq {s : State} {type index e : Nat} (h : s.rc.block = some (type, index, e)) :
    exec .blockResetDone s = .next { blockEffect s type index e with
      rc := { (blockEffect s type index e).rc with done := true, block := none } } := by
  simp [exec, execBlockResetDone, h]

theorem clearEngine_vector (k : Core) : (∀ n, scalarOf (clearEngine k 1) n = 0#32) ∧ (clearEngine k 1).bytes = k.bytes
    ∧ (clearEngine k 1).tokens = k.tokens := ⟨fun _ => rfl, rfl, rfl⟩

theorem blockResetDone_clearsTheBlock : blockResetDoneClearsTheBlock := by
  refine ⟨fun s c e h => ⟨_, blockResetDone_eq h, coreOf_setCore_same .., fun n hn => coreOf_setCore_other _ _ _ _ hn, rfl, rfl⟩,
    fun s c h => ⟨_, blockResetDone_eq h, ?_⟩⟩
  obtain ⟨hscalars, hbytes, htokens⟩ := clearEngine_vector (coreOf s c)
  have hcore : coreOf (setCore s c (clearEngine (coreOf s c) 1)) c = clearEngine (coreOf s c) 1 := coreOf_setCore_same ..
  refine ⟨?_, ?_, ?_, fun n hn => coreOf_setCore_other _ _ _ _ hn, rfl⟩
  · exact hcore ▸ hscalars
  · exact hcore ▸ hbytes
  · exact hcore ▸ htokens

/-- Settles O30. -/
theorem blockResets : Obligations.BlockResets := by
  unfold Obligations.BlockResets
  exact ⟨blockResets_begin, blockResetDone_clearsTheBlock⟩

end Sys2Proof.Machine
end

section
/-!
PROOF. Frames that do not take effect: received before, ahead of their turn, or with a tag that fails (R448), and O47.
-/
namespace Sys2Proof.Machine
open Sys2Proof.Claims

/-- Every frame that carries a sequence number is received before it has its effect. -/
theorem exec_frame {i : Instr} {p : Nat} {n : W64} {ok : Bool} (h : frameOf i = some (p, n, ok)) :
    ∃ f : State → State → State, ∀ s, exec i s = .next (received s p n ok (f s)) := by
  cases i with
  | dataFrame port seq tagOk dest bytes => cases h; exact ⟨_, fun s => rfl⟩
  | boundaryFrame port seq tagOk step commit => cases h; exact ⟨_, fun s => rfl⟩
  | reserveFrame port seq tagOk from_ r handle search => cases h; exact ⟨_, fun s => rfl⟩
  | grantFrame port seq tagOk from_ r granted => cases h; exact ⟨_, fun s => rfl⟩
  | controlFrame port seq tagOk info => cases h; exact ⟨_, fun s => rfl⟩
  | heartbeatFrame port seq tagOk => cases h; exact ⟨_, fun s => rfl⟩
  | _ => cases h

section
variable {s : State} {p : Nat}

theorem received_down (h : portUp s p = false) (n : W64) (ok : Bool) (f : State → State) : received s p n ok f = s := by
  simp [received, h]

theorem received_again (h : portUp s p = true) {n : W64} (hn : n.toNat ≤ (portAt s p).rxSeq) (f : State → State) :
    received s p n true f = { s with host := s.host ++ [.frame p (leBytes 1 6 ++ leBytes 8 n.toNat)] } := by
  have hne : n.toNat ≠ (portAt s p).rxSeq + 1 := by omega
  simp [received, h, hne, hn]

theorem received_early (h : portUp s p = true) {n : W64} (hn : (portAt s p).rxSeq + 1 < n.toNat) (f : State → State) :
    received s p n true f = { s with host := s.host ++ [.frame p (leBytes 1 7 ++ leBytes 8 ((portAt s p).rxSeq + 1))] } := by
  have hne : n.toNat ≠ (portAt s p).rxSeq + 1 := by omega
  have hgt : ¬ n.toNat ≤ (portAt s p).rxSeq := by omega
  simp [received, h, hne, hgt]

theorem received_badTag (h : portUp s p = true) (hf : (portAt s p).fails < 7) (n : W64) (f : State → State) :
    received s p n false f = { setPort s p { portAt s p with fails := (portAt s p).fails + 1 } with
      host := s.host ++ [.frame p (leBytes 1 7 ++ leBytes 8 n.toNat)] } := by
  simp [received, h, Nat.not_le.mpr hf]

theorem received_lastBadTag (h : portUp s p = true) (hf : 7 ≤ (portAt s p).fails) (n : W64) (f : State → State) :
    received s p n false f = retrain s p := by
  simp [received, h, hf]

end

/-! ### A port that retrains -/

/-- The port as its retraining begins, before its STATE changes. -/
def retrainingPort (x : Port) : Port := { x with retrains := min 65535 (x.retrains + 1), fails := 0, width := 0 }

theorem retrain_eq (s : State) (p : Nat) : retrain s p = setPortState (setPort s p (retrainingPort (portAt s p))) p 1 := rfl

theorem portAt_retrain_same (s : State) (p : Nat) : portAt (retrain s p) p = { retrainingPort (portAt s p) with state := 1 } :=
  portAt_setPortState_setPort_same ..

theorem portAt_retrain_other (s : State) (p x : Nat) (h : x ≠ p) : portAt (retrain s p) x = portAt s x :=
  portAt_setPortState_setPort_other _ _ _ _ _ h

theorem retrain_logs {s : State} {p : Nat} (h : (portAt s p).state ≠ 1) : (retrain s p).log.next = s.log.next + 1 := by
  have hstate : (portAt (setPort s p (retrainingPort (portAt s p))) p).state ≠ 1 := by rwa [portAt_setPort_same]
  rw [retrain_eq, setPortState_log _ _ _ hstate]
  rfl

theorem state_ne_training {s : State} {p : Nat} (h : portUp s p = true) : (portAt s p).state ≠ 1 := by
  intro h1
  simp [portUp, h1] at h

/-- Settles O47: what each frame is received as, in its five cases. -/
theorem framesAreTakenOnceInOrder : Obligations.FramesAreTakenOnceInOrder := by
  unfold Obligations.FramesAreTakenOnceInOrder
  intro s i p n ok hframe
  obtain ⟨f, hexec⟩ := exec_frame hframe
  rw [hexec s]
  refine ⟨fun h => congrArg _ (received_down h ..), ?_, ?_, ?_, ?_⟩
  · rintro h rfl hn
    exact congrArg _ (received_again h hn _)
  · rintro h rfl hn
    exact congrArg _ (received_early h hn _)
  · rintro h rfl hf
    exact congrArg _ (received_badTag h hf ..)
  · rintro h rfl hf
    refine ⟨retrain s p, congrArg _ (received_lastBadTag h hf ..), ?_, ?_, ?_, fun x hx => portAt_retrain_other s p x hx,
      retrain_logs (state_ne_training h), ?_, ?_⟩
    · rw [portAt_retrain_same]
    · rw [portAt_retrain_same]; rfl
    · rw [portAt_retrain_same]; rfl
    · rw [retrain_eq, setPortState_reqs, setPort_reqs]
    · rw [retrain_eq, setPortState_media, setPort_media]

end Sys2Proof.Machine
end

section
/-!
PROOF. What stops the rails (R466, R475, R490): O36.
-/
namespace Sys2Proof.Machine
open Sys2Proof.Claims

/-! ### The rails stop -/

theorem interruptBist_keeps {β : Type} (g : State → β) (h : ∀ (s : State) b r, g { s with kt := { s.kt with bist := b, run := r } } = g s) (s : State) :
    g (interruptBist s) = g s := by
  unfold interruptBist
  split
  · exact h _ _ _
  · rfl

section
variable (s : State)

@[simp] theorem interruptBist_prot : (interruptBist s).prot = s.prot := interruptBist_keeps State.prot (fun _ _ _ => rfl) s
@[simp] theorem interruptBist_power : (interruptBist s).power = s.power := interruptBist_keeps State.power (fun _ _ _ => rfl) s
@[simp] theorem interruptBist_good : (interruptBist s).kt.good = s.kt.good := interruptBist_keeps (·.kt.good) (fun _ _ _ => rfl) s
@[simp] theorem interruptBist_vault : (interruptBist s).kt.vaultCounter = s.kt.vaultCounter :=
  interruptBist_keeps (·.kt.vaultCounter) (fun _ _ _ => rfl) s

/-- Only the Kettle runs, and it keeps its power-good, its counter and the store. -/
theorem toKettleOnly_kettle : (toKettleOnly s).kt.life = .kettleOnly ∧ (toKettleOnly s).kt.good = s.kt.good
    ∧ (toKettleOnly s).kt.vaultCounter = s.kt.vaultCounter ∧ (toKettleOnly s).prot.store = s.prot.store := by
  simp [toKettleOnly, coldIndexes, loseT2, endSessions, stopWork, foldClock, dropReady]

/-- Nothing is under way any more. -/
theorem toKettleOnly_ends : (toKettleOnly s).reqs = [] ∧ (toKettleOnly s).prot.sessions = [] ∧ (toKettleOnly s).changes = [] := ⟨rfl, rfl, rfl⟩

theorem toKettleOnly_junction : (toKettleOnly s).power.junction = s.power.junction := by
  simp [toKettleOnly, coldIndexes, loseT2, endSessions, stopWork, foldClock, dropReady]

/-! ### The Kettle loses its power -/

/-- Nothing is left but the vault counter and the shadow. -/
theorem loseKettle_leaves : (loseKettle s).kt.life = .off ∧ (loseKettle s).kt.ready = 0#64 ∧ (loseKettle s).kt.latch = false
    ∧ (loseKettle s).prot.store = none ∧ (loseKettle s).reqs = [] ∧ (loseKettle s).kt.vaultCounter = s.kt.vaultCounter :=
  ⟨rfl, rfl, rfl, rfl, rfl, rfl⟩

end

/-! ### The inputs -/

section
variable {s : State}

theorem powerGoodLoss_eq (hgood : s.kt.good = true) (hheld : s.kt.life ≠ .held) :
    exec .powerGoodLoss s = .next (toKettleOnly { s with kt := { s.kt with good := false } }) := by
  simp [exec, execPowerGoodLoss, hgood, hheld]

theorem mrstHeld_eq (hoff : s.kt.life ≠ .off) (hheld : s.kt.life ≠ .held) :
    exec .mrstNHeld s = .next { toKettleOnly s with kt := { (toKettleOnly s).kt with life := .held } } := by
  simp [exec, execMrstNHeld, kettlePowered, hoff, hheld]

/-- The module as THERMTRIP finds it, with the junction temperature seen. -/
def sawJunction (s : State) (j : Int) : State := { s with power := { s.power with junction := j } }

theorem thermtrip_eq {j : Int} (hj : 1150 ≤ j) (hoff : s.kt.life ≠ .off) (honly : s.kt.life ≠ .kettleOnly) (hheld : s.kt.life ≠ .held) :
    exec (.thermtrip j) s = .next { toKettleOnly (sawJunction s j) with
      power := { (toKettleOnly (sawJunction s j)).power with tripped := true }
      kt := { (toKettleOnly (sawJunction s j)).kt with life := .kettleOnly } } := by
  simp [exec, execThermtrip, kettlePowered, sawJunction, hoff, honly, hheld, Int.not_lt.mpr hj]

theorem overvoltage_eq {mv : Nat} (hlo : 62000 < mv) (hhi : mv ≤ 72000) : exec (.overvoltageStop mv) s
    = .next { loseKettle (interruptBist s) with kt := { (loseKettle (interruptBist s)).kt with latch := true } } := by
  simp [exec, execOvervoltageStop, Nat.not_lt.mpr hhi, Nat.not_le.mpr hlo]

theorem overvoltage_damages {mv : Nat} (h : 72000 < mv) : exec (.overvoltageStop mv) s = .fault .damaged := by
  simp [exec, execOvervoltageStop, h]

end

/-- Settles O36. -/
theorem railStopsLeaveTheKettle : Obligations.RailStopsLeaveTheKettle := by
  unfold Obligations.RailStopsLeaveTheKettle
  refine fun s => ⟨fun hgood hheld => ?_, fun hoff hheld => ?_, fun j hj hoff honly hheld => ?_, ?_, fun mv hlo hhi => ?_,
    fun mv h => overvoltage_damages h⟩
  · obtain ⟨hlife, hg, hvault, hstore⟩ := toKettleOnly_kettle { s with kt := { s.kt with good := false } }
    exact ⟨_, powerGoodLoss_eq hgood hheld, hlife, hg, rfl, rfl, rfl, hstore, hvault⟩
  · obtain ⟨_, _, _, hstore⟩ := toKettleOnly_kettle s
    exact ⟨_, mrstHeld_eq hoff hheld, rfl, rfl, rfl, hstore⟩
  · exact ⟨_, thermtrip_eq hj hoff honly hheld, rfl, rfl, toKettleOnly_junction _, rfl⟩
  · obtain ⟨hlife, hready, hlatch, hstore, hreqs, hvault⟩ := loseKettle_leaves (interruptBist s)
    exact ⟨_, rfl, hlife, hready, hlatch, hstore, hreqs, hvault.trans (interruptBist_vault s)⟩
  · obtain ⟨hlife, hready, _, _, hreqs, _⟩ := loseKettle_leaves (interruptBist s)
    exact ⟨_, overvoltage_eq hlo hhi, hlife, rfl, hreqs, hready⟩

end Sys2Proof.Machine
end

section
/-!
PROOF. Resets and training of the host link (R487, R511): O37.
-/
namespace Sys2Proof.Machine

/-! ### The link goes down -/

/-- What a link reset does to a live module whose link is up and has no reset pending. -/
theorem linkReset_drops {s : State} (hal : alive s = true) (hno : ∀ c ∈ s.changes, c ≠ .linkReset) :
    readyBit (linkReset s) 3 = false ∧ (linkReset s).changes = s.changes ++ [.linkReset] ∧ (linkReset s).reqs = s.reqs
      ∧ (linkReset s).media = s.media ∧ (linkReset s).chip = s.chip ∧ ∀ b, b < 64 → b ≠ 3 → readyBit (linkReset s) b = readyBit s b := by
  rw [linkReset_of_alive hal hno]
  have hbit : ∀ b, b < 64 → readyBit (addChange (dropReady s (~~~(1#64 <<< bHostlink))) .linkReset) b = (readyBit s b && (b != 3)) := by
    intro b hb
    rw [← bitOf_notHostlink b hb]
    exact readyBit_dropReady s _ b
  refine ⟨?_, ?_, ?_, ?_, ?_, fun b hb hb3 => ?_⟩
  · simpa using hbit 3 (by omega)
  · simp [addChange, dropReady]
  · simp [addChange, dropReady]
  · simp [addChange, dropReady]
  · simp [addChange, dropReady]
  · rw [hbit b hb, bne_iff_ne.mpr hb3, Bool.and_true]

theorem perstAssert_eq (s : State) : exec .perstNAssert s = .next (linkReset { s with pins := { s.pins with perst := true } }) := rfl

theorem hotReset_eq {s : State} (h : readyBit s 3 = true) : exec .hotReset s = .next (linkReset s) := congrArg Host.Outcome.next (if_pos h)

theorem linkDown_eq {s : State} (h : readyBit s 3 = true) : exec (.linkDown false) s = .next (linkReset s) := congrArg Host.Outcome.next (if_pos h)

theorem refclkLost_eq {s : State} (h : readyBit s 3 = true) :
    exec (.linkDown true) s = .next (linkReset { s with pins := { s.pins with refclk := false } }) :=
  congrArg Host.Outcome.next (if_pos (show readyBit { s with pins := { s.pins with refclk := false } } bHostlink = true from h))

/-! ### The link trains -/

/-- Held records and pending vectors that go out move nothing but the rings, the vectors and what the host sees. -/
theorem drainHeld_keeps {β : Type} (g : State → β) (hs : ∀ s n p, g (setPair s n p) = g s) (hw : ∀ s n c, g (writeRecord s n c) = g s)
    (k : Nat) (s : State) (n : Nat) : g (drainHeld k s n) = g s := by
  induction k generalizing s with
  | zero => rfl
  | succ k ih =>
    unfold drainHeld
    split
    · rfl
    · split
      · rw [ih, hw, hs]
      · rfl

theorem flushHeld_keeps {β : Type} (g : State → β) (hs : ∀ s n p, g (setPair s n p) = g s) (hw : ∀ s n c, g (writeRecord s n c) = g s)
    (s : State) : g (flushHeld s) = g s := by
  refine foldl_keeps _ g (fun t p => ?_) _ _
  split
  · exact drainHeld_keeps g hs hw _ _ _
  · rfl

theorem flushVecs_keeps {β : Type} (g : State → β) (hv : ∀ s f v x, g (setVec s f v x) = g s) (hr : ∀ s f v, g (raiseVec s f v) = g s)
    (s : State) : g (flushVecs s) = g s := by
  refine foldl_keeps _ g (fun t p => ?_) _ _
  dsimp only
  split
  · rw [hr, hv]
  · rfl

section
variable (s : State)

@[simp] theorem flushHeld_kt : (flushHeld s).kt = s.kt := flushHeld_keeps State.kt (fun _ _ _ => rfl) (fun _ _ _ => by simp) s
@[simp] theorem flushHeld_glades : (flushHeld s).glades = s.glades := flushHeld_keeps State.glades (fun _ _ _ => rfl) (fun _ _ _ => by simp) s
@[simp] theorem flushHeld_reqs : (flushHeld s).reqs = s.reqs := flushHeld_keeps State.reqs (fun _ _ _ => rfl) (fun _ _ _ => by simp) s
@[simp] theorem flushVecs_kt : (flushVecs s).kt = s.kt := flushVecs_keeps State.kt (fun _ _ _ _ => rfl) (fun _ _ _ => by simp) s
@[simp] theorem flushVecs_glades : (flushVecs s).glades = s.glades := flushVecs_keeps State.glades (fun _ _ _ _ => rfl) (fun _ _ _ => by simp) s
@[simp] theorem flushVecs_reqs : (flushVecs s).reqs = s.reqs := flushVecs_keeps State.reqs (fun _ _ _ _ => rfl) (fun _ _ _ => by simp) s

end

/-- The module whose link has trained, before the sets' rates are looked at. -/
def linkUp (s : State) (rate : Nat) : State :=
  flushHeld (flushVecs (setReady { s with
    pins := { s.pins with refclk := true }, glades := { s.glades with hostCap := min 98000 rate } } bHostlink true))

theorem linkUp_parts (s : State) (rate : Nat) : (linkUp s rate).kt = { s.kt with ready := putBit s.kt.ready 3 true }
    ∧ (linkUp s rate).glades = { s.glades with hostCap := min 98000 rate } ∧ (linkUp s rate).reqs = s.reqs := by
  simp [linkUp, bHostlink]

/-- A change asked for or not. -/
theorem hostScale_if (t : State) (c : Bool) : ∃ l, (if c then addChange t .hostScale else t) = { t with changes := l } := by
  cases c
  · exact ⟨t.changes, rfl⟩
  · exact ⟨_, rfl⟩

theorem hostLinkTrained_eq {s : State} {rate : Nat} (hal : alive s = true) (hperst : s.pins.perst = false) (hlink : readyBit s 3 = false)
    (hcut : s.tap.cut = false) (hno : ∀ c ∈ s.changes, c ≠ .linkReset) :
    ∃ l, exec (.hostLinkTrained rate) s = .next { linkUp s rate with changes := l } := by
  have hmem : Change.linkReset ∉ s.changes := fun h => hno _ h rfl
  obtain ⟨l, hl⟩ := hostScale_if (linkUp s rate) ((linkUp s rate).glades.hostCap < sumRates (linkUp s rate) (·.hostOut)
    || (linkUp s rate).glades.hostCap < sumRates (linkUp s rate) (·.hostIn))
  refine ⟨l, ?_⟩
  have hgate : (!alive s || s.pins.perst || readyBit s bHostlink || s.tap.cut || s.changes.contains .linkReset) = false := by
    simp [hal, hperst, hcut, hmem, bHostlink, hlink]
  rw [← hl]
  simp only [exec, execHostLinkTrained, hgate]
  rfl

theorem hostLinkDowntrain_eq {s : State} {rate : Nat} (hlink : readyBit s 3 = true) (hrate : rate < s.glades.hostCap) :
    exec (.hostLinkDowntrain rate) s = .next { s with
      glades := { s.glades with hostCap := rate }
      changes := if rate < sumRates s (fun g => g.hostOut) ∨ rate < sumRates s (fun g => g.hostIn) then s.changes ++ [.hostScale]
        else s.changes } := by
  have hsum : ∀ f, sumRates { s with glades := { s.glades with hostCap := rate } } f = sumRates s f := fun _ => rfl
  simp only [exec, execHostLinkDowntrain, bHostlink, hlink, Nat.not_le.mpr hrate, hsum]
  by_cases h : rate < sumRates s (fun g => g.hostOut) ∨ rate < sumRates s (fun g => g.hostIn)
  · simp [h, addChange]
  · simp [h]

/-- Settles O37. -/
theorem linkResetsAndTraining : Obligations.LinkResetsAndTraining := by
  unfold Obligations.LinkResetsAndTraining
  refine ⟨fun s i hal hlink hno hi => ?_, fun s rate hal hperst hlink hcut hno => ?_, fun s rate hlink hrate =>
    ⟨_, hostLinkDowntrain_eq hlink hrate, rfl, rfl, rfl, rfl⟩⟩
  · simp only [List.mem_cons, List.not_mem_nil, or_false] at hi
    rcases hi with rfl | rfl | rfl | rfl
    · exact ⟨_, perstAssert_eq s, linkReset_drops (s := { s with pins := { s.pins with perst := true } }) hal hno⟩
    · exact ⟨_, hotReset_eq hlink, linkReset_drops hal hno⟩
    · exact ⟨_, linkDown_eq hlink, linkReset_drops hal hno⟩
    · exact ⟨_, refclkLost_eq hlink, linkReset_drops (s := { s with pins := { s.pins with refclk := false } }) hal hno⟩
  · obtain ⟨l, hexec⟩ := hostLinkTrained_eq (rate := rate) hal hperst hlink hcut hno
    obtain ⟨hkt, hglades, hreqs⟩ := linkUp_parts s rate
    refine ⟨_, hexec, ?_, congrArg Glades.hostCap hglades, hreqs, fun b hb hb3 => ?_⟩
    · rw [readyBit, hkt]
      exact bitOf_putBit_same _ _ _ (by omega)
    · rw [readyBit, hkt]
      exact bitOf_putBit_other _ _ _ _ hb hb3

end Sys2Proof.Machine
end

section
/-!
PROOF. Temperatures, clocks, hours, monitors and skipping (R475 to R484): O38.
-/
namespace Sys2Proof.Machine
open Sys2Proof.Claims

/-! ### Temperatures and the Kettle's clock (R475, R480, R481) -/

theorem thermalWarning_sets {s : State} {j st : Int} (h : 1000 ≤ j ∨ 900 ≤ st) (hwarn : s.power.warning = false) :
    exec (.thermalWarningSet j st) s
      = .next (raiseAlert (moduleEvent { s with power := { s.power with junction := j, stack := st, warning := true } } 0x100 0)) := by
  have hgate : (decide (j < 1000) && decide (st < 900)) = false := by
    simpa [imp_iff_not_or] using h
  simp only [exec, execThermalWarningSet, hwarn, hgate, Bool.or_self, Bool.false_eq_true, if_false]

theorem thermalWarning_clears (s : State) {j st : Int} (hj : j ≤ 950) (hst : st ≤ 850) : exec (.thermalWarningClear j st) s
    = .next { s with power := { s.power with junction := j, stack := st, warning := false } } := by
  simp [exec, execThermalWarningClear, hj, hst]

theorem crystalFallback_notes {s : State} (hoff : s.kt.life ≠ .off) (hfall : s.kt.fallback = false) :
    exec .crystalFallback s = .next (moduleEvent { s with kt := { s.kt with fallback := true } } 0x101 0) := by
  simp [exec, execCrystalFallback, kettlePowered, hoff, hfall]

theorem operatingHours_shadowed {s : State} (hal : alive s = true) : exec .operatingHoursShadow s = .next (shadowHours s) :=
  congrArg Host.Outcome.next (if_pos hal)

/-! ### One controller of several stops (R506) -/

theorem heartbeatLoss_eq {s : State} {c : Nat} (hal : alive s = true) (hc : c ∈ s.kt.ctrls) (hmore : 2 ≤ s.kt.ctrls.length) :
    exec (.controllerHeartbeatLoss c) s = .next { addDecision s 6 0 c with
      kt := { (addDecision s 6 0 c).kt with ctrls := s.kt.ctrls.filter (· != c) } } := by
  have hnot : ¬ s.kt.ctrls.length ≤ 1 := by omega
  simp only [exec, execControllerHeartbeatLoss, hal, List.contains_iff_mem.mpr hc, hnot]
  rfl

/-- A decision stands in the table once it is made, while the table has room. -/
theorem addDecision_stands {s : State} (kind value comp : Nat) (h : s.kt.journal.decisions.length < 384) :
    ∃ d ∈ (addDecision s kind value comp).kt.journal.decisions, d.kind = kind ∧ d.comp = comp := by
  have hlen := List.length_filter_le (fun d : Decision => !(d.kind == kind && d.comp == comp)) s.kt.journal.decisions
  refine ⟨⟨kind, value, comp, opSeconds s / 3600⟩, ?_, rfl, rfl⟩
  rw [addDecision, putDecisions, List.take_of_length_le]
  · exact List.mem_append_right _ List.mem_cons_self
  · rw [List.length_append, List.length_singleton]
    omega

/-! ### Monitors (R482, R483) -/

theorem monitorSample_eq {s : State} {site slack : Nat} (hal : alive s = true) (hsite : site < 528) (hslack : slack ≤ 189) :
    exec (.monitorSample [(site, slack)]) s = .next { s with power := { s.power with
      worst := AMap.put 189 s.power.worst site slack, skipping := skippingGroups (AMap.put 189 s.power.worst site slack) } } := by
  simp [exec, execMonitorSample, hal, hsite, hslack]

/-- The group of a site whose monitor reads below 12 ps skips. -/
theorem mem_skippingGroups {worst : AMap Nat} {site slack : Nat} (h : AMap.get 189 worst site = slack) (hlow : slack < 12) :
    groupOfSite site ∈ skippingGroups worst := by
  have hmem : (site, slack) ∈ worst := AMap.mem_of_get h (by omega)
  have hgroup : groupOfSite site < 8 := by unfold groupOfSite; omega
  refine List.mem_filter.mpr ⟨List.mem_range.mpr hgroup, List.any_eq_true.mpr ⟨_, hmem, ?_⟩⟩
  simp [lowSlack, hlow]

theorem monitorSample_reads {s : State} {site slack : Nat} (hal : alive s = true) (hsite : site < 528) (hslack : slack ≤ 189) :
    ∃ t, exec (.monitorSample [(site, slack)]) s = .next t ∧ AMap.get 189 t.power.worst site = slack
      ∧ (∀ x, x ≠ site → AMap.get 189 t.power.worst x = AMap.get 189 s.power.worst x)
      ∧ (slack < 12 → groupOfSite site ∈ t.power.skipping) ∧ t.reqs = s.reqs ∧ t.chip = s.chip :=
  ⟨_, monitorSample_eq hal hsite hslack, AMap.get_put_same .., fun _ hx => AMap.get_put_other _ _ _ _ _ hx,
    fun hlow => mem_skippingGroups (AMap.get_put_same ..) hlow, rfl, rfl⟩

theorem replan_waits {s : State} (h : s.kt.life = .running) (l : List (Nat × Nat)) (site slack : Nat) :
    exec (.replan l site slack) s = .next { wake s with changes := s.changes ++ [.replan l site slack] } := by
  simp [exec, execReplan, h, addChange]

theorem conditions_ofTheModule : conditionsOfTheModule := by
  refine fun s => ⟨fun j st h hwarn => ⟨_, thermalWarning_sets h hwarn, rfl, rfl, rfl, rfl, rfl, rfl⟩,
    fun j st hj hst => thermalWarning_clears s hj hst, fun hoff hfall => ⟨_, crystalFallback_notes hoff hfall, rfl, rfl, rfl, rfl⟩,
    fun hal => ⟨_, operatingHours_shadowed hal, rfl, rfl, rfl⟩, fun c hal hc hmore => ⟨_, heartbeatLoss_eq hal hc hmore, rfl, ?_, rfl⟩,
    fun hidle => congrArg Host.Outcome.next (if_pos hidle), fun site slack hal hsite hslack => monitorSample_reads hal hsite hslack,
    fun hlife l site slack => replan_waits hlife l site slack⟩
  exact fun h => addDecision_stands 6 0 c h

/-! ### Skipping that persists (R483) -/

/-- A fenced site: in the list of the fenced, its decision made. -/
def fencedAt (s : State) (site : Nat) : State :=
  addDecision { s with chip := { s.chip with fenced := setHas s.chip.fenced site } } 1 0 site

theorem coreAt_of_homes {s t : State} (h : t.chip.homes = s.chip.homes) (site : Nat) : coreAt t site = coreAt s site := by
  simp only [coreAt, siteOf, h]

/-- The site of a logical core is fenced: the core waits to move. -/
theorem fenceSite_core {s : State} {site c : Nat} (h : coreAt s site = some c) : fenceSite s site
    = { fencedAt s site with chip := { (fencedAt s site).chip with moves := setHas (fencedAt s site).chip.moves c } } := by
  have hcore : coreAt (fencedAt s site) site = some c := (coreAt_of_homes (s := s) (t := fencedAt s site) rfl site).trans h
  unfold fencedAt at hcore
  unfold fenceSite
  dsimp only
  rw [hcore]
  rfl

theorem skipPersist_eq {s : State} {site c : Nat} (hal : alive s = true) (hsite : site < 528) (hnot : site ∉ s.chip.fenced)
    (hslack : slackOf s site < 12) (hcore : coreAt s site = some c) (hrun : (coreOf s c).run = none) :
    exec (.skipPersist site) s = .next (setCore (fenceSite s site) c coreOff) := by
  simp [exec, execSkipPersist, lowSlack, hal, hnot, hcore, hrun, Nat.not_le.mpr hsite, Nat.not_le.mpr hslack]

theorem skipPersist_fencesTheSite : skipPersistFencesTheSite := by
  intro s site c hal hsite hnot hslack hcore hrun
  refine ⟨_, skipPersist_eq hal hsite hnot hslack hcore hrun, ?_, ?_, ?_, fun n hn => ?_, ?_, ?_⟩
  · rw [fenceSite_core hcore]
    exact mem_setHas _ _
  · rw [fenceSite_core hcore]
    exact mem_setHas _ _
  · rw [coreOf_setCore_same]
    rfl
  · rw [coreOf_setCore_other _ _ _ _ hn, fenceSite_core hcore]
    rfl
  · rw [setCore_reqs, fenceSite_core hcore]
    rfl
  · rw [setCore_media, fenceSite_core hcore]
    rfl

/-- Settles O38. -/
theorem moduleConditions : Obligations.ModuleConditions := by
  unfold Obligations.ModuleConditions
  exact ⟨conditions_ofTheModule, skipPersist_fencesTheSite⟩

end Sys2Proof.Machine
end

section
/-!
PROOF. STATUS, LOG_READ, SHUTDOWN, SET_FORM, SET_DISSOLVE and PROTECTION_RESTORE (R364, R412 to R414, R453, R456): O27.
-/
namespace Sys2Proof.Machine
open Sys2Proof.Claims

/-! ### Records and outputs that are appended -/

theorem postRecord_appends (s : State) {n : Nat} (h : n ≠ 64) (c : Completion) : ∃ more, (postRecord s n c).host = s.host ++ more := by
  unfold postRecord
  rw [if_neg (show n ≠ sidePair from h)]
  split
  · exact ⟨_, rfl⟩
  · exact ⟨[], (List.append_nil _).symm⟩

section
variable (s : State) (h : MsgHead) (c : Ctx) {e : Ending} (he : e.status ≠ stFault)
include he

/-- A refusal other than of a fault is a record for its pair. -/
theorem refuse_unfaulted : ∃ r, refuse s h c e = postRecord s c.pair r := by
  rw [refuse, endRecord, if_neg he]
  exact ⟨_, rfl⟩

theorem refuse_appends (hpair : c.pair ≠ 64) : ∃ more, (refuse s h c e).host = s.host ++ more := by
  obtain ⟨r, hr⟩ := refuse_unfaulted s h c he
  rw [hr]
  exact postRecord_appends s hpair r

theorem refuse_log : (refuse s h c e).log = s.log := by
  obtain ⟨r, hr⟩ := refuse_unfaulted s h c he
  rw [hr]
  unfold postRecord
  split
  · rfl
  · split
    · rfl
    · rfl

end

theorem putOutput_function (s : State) {r : ReqId} (h : r.func ≠ 0xFF#8) (b : List Byte) : putOutput s r b
    = { chargeTokens s (setOfFunc r.func) .hostOut b.length true with host := s.host ++ [.output r b] } := if_neg h

/-! ### STATUS and LOG_READ (R412, R413) -/

/-- The bytes of a STATUS answer: the counts, then the records that fit. -/
def statusBytes (n size : Nat) (l : List (List Byte)) : List Byte :=
  leBytes 4 (min l.length (if size = 0 then 0 else (n - 16) / size)) ++ leBytes 4 l.length ++ leBytes 4 size ++ leBytes 4 0
    ++ (l.take (min l.length (if size = 0 then 0 else (n - 16) / size))).flatten

theorem statusGo_answers {s : State} {h : MsgHead} {sel n arg : Nat} {c : Ctx} {size : Nat} {l : List (List Byte)}
    (hform : formOk h false = true) (hsel : sel ≤ 7) (harg : sel = 6 → arg ≤ 1) (hn : 16 ≤ n) (hrecs : statusRecords s c.sess sel arg = some (size, l)) :
    ∃ e : Ending, e.status ≠ stFault ∧ statusGo s h sel n arg c = refuse (putOutput s ⟨h.func, h.rid⟩ (statusBytes n size l)) h c e := by
  have hgate : (!formOk h false || decide (7 < sel) || (sel == 6 && decide (1 < arg)) || decide (n < 16)) = false := by
    simpa [hform, Nat.not_lt.mpr hsel, Nat.not_lt.mpr hn] using harg
  rw [statusGo, hgate]
  simp only [hrecs, List.flatMap_id]
  exact ⟨_, (by decide : stOk ≠ stFault), rfl⟩

theorem logGo_answers {s : State} {h : MsgHead} {first max n : Nat} {c : Ctx} (hform : formOk h false = true)
    (hrole : c.sess.role = 0 ∨ operRight s c.sess 4 = true) (hfirst : first < 2 ^ 63) :
    ∃ e : Ending, e.status ≠ stFault ∧ logGo s h first max n c = refuse (putOutput s ⟨h.func, h.rid⟩
      (((s.log.recs.filter (fun r => decide (first ≤ r.seq) && seesLog s c.sess r)).take (min max (n / 64))).flatMap logBytes)) h c e := by
  have hsees : (isOwner c.sess || operRight s c.sess 4) = true := by simpa [isOwner] using hrole
  have hlog : ¬ dumpBase ≤ first := Nat.not_le.mpr hfirst
  simp only [logGo, hform, hsees, logPick, hlog, Bool.not_true, Bool.false_eq_true, if_false, List.flatMap_id, ← List.flatMap_def]
  exact ⟨_, (by decide : stOk ≠ stFault), rfl⟩

/-- The output of a request, then a record that is of no fault: what it leaves, and what the host sees. -/
theorem output_then_record (s : State) (h : MsgHead) (c : Ctx) {e : Ending} (b : List Byte) (he : e.status ≠ stFault) (hfunc : h.func ≠ 0xFF#8)
    (hpair : c.pair ≠ 64) {t : State} (ht : t = refuse (putOutput s ⟨h.func, h.rid⟩ b) h c e) :
    t.reqs = s.reqs ∧ t.media = s.media ∧ t.prot = s.prot ∧ t.chip = s.chip ∧ t.kt = s.kt ∧ t.log = s.log
      ∧ ∃ more, t.host = s.host ++ [.output ⟨h.func, h.rid⟩ b] ++ more := by
  subst ht
  obtain ⟨more, hmore⟩ := refuse_appends (putOutput s ⟨h.func, h.rid⟩ b) h c he hpair
  have hout := putOutput_function s (r := ⟨h.func, h.rid⟩) hfunc b
  refine ⟨?_, ?_, ?_, ?_, ?_, ?_, more, ?_⟩
  · rw [refuse_reqs, hout, chargeTokens_reqs]
  · rw [refuse_media, hout, chargeTokens_media]
  · rw [refuse_prot, hout, chargeTokens_prot]
  · rw [refuse_chip, hout, chargeTokens_chip]
  · rw [refuse_kt, hout, chargeTokens_kt]
  · rw [refuse_log _ _ _ he, hout, chargeTokens_log]
  · rw [hmore, hout]

/-! ### SHUTDOWN (R414) -/

theorem shutdownGo_drains {s : State} {h : MsgHead} {limit : Nat} {c : Ctx} (hform : formOk h false = true) (hlimit : limit ≤ 600000)
    (howner : c.sess.role = 0) (hshut : s.kt.shut = none) : shutdownGo s h 0#8 limit c
    = { acceptReq s h c opShutdown none none (.shutdown false) with
        kt := { s.kt with shut := some ⟨some ⟨h.func, h.rid⟩, false, limit, false⟩ } } := by
  simp [shutdownGo, hform, isOwner, howner, hshut, Nat.not_lt.mpr hlimit, beginShutdown, acceptReq]

/-! ### SET_FORM and SET_DISSOLVE (R453, R456) -/

theorem retrain_keeps {β : Type} (g : State → β) (hp : ∀ s p n, g (setPortState s p n) = g s) (hx : ∀ s p x, g (setPort s p x) = g s) (s : State)
    (p : Nat) : g (retrain s p) = g s := by
  rw [retrain, hp, hx]

theorem setPortState_grove_keeps {β : Type} (g : Grove → β) (hg : ∀ (x : Grove) m, g { x with ports := m } = g x) (s : State) (p n : Nat) :
    g (setPortState s p n).grove = g s.grove := by
  rw [setPortState_eq]
  split
  · rfl
  · rw [setReady_grove, logAdd_grove]
    exact hg _ _

/-- The formation begins: the request, its formation, and the eight ports that train again. -/
theorem setFormGo_begins {s : State} {h : MsgHead} {b : SetBody} {c : Ctx} (hcheck : setFormCheck s h b c.sess = none) :
    (setFormGo s h b c).reqs = s.reqs ++ [newReq s h c 0x0D none none (.setForm b)]
      ∧ (setFormGo s h b c).grove.forming = some ⟨⟨h.func, h.rid⟩, b, [], none⟩ ∧ (setFormGo s h b c).grove.state = 1 := by
  simp only [setFormGo, hcheck]
  refine ⟨?_, ?_, ?_⟩
  · rw [foldl_keeps retrain State.reqs (retrain_keeps _ (by simp) (by simp)), setGroveState_part State.reqs fun _ _ _ => rfl]
    rfl
  · rw [foldl_keeps retrain (·.grove.forming)
      (retrain_keeps (fun s => s.grove.forming) (setPortState_grove_keeps Grove.forming fun _ _ => rfl) fun _ _ _ => rfl)]
    unfold setGroveState
    split
    · rfl
    · rfl
  · rw [foldl_keeps retrain (·.grove.state)
      (retrain_keeps (fun s => s.grove.state) (setPortState_grove_keeps Grove.state fun _ _ => rfl) fun _ _ _ => rfl)]
    exact setGroveState_state _ _

/-- The dissolution is accepted, and the peers are told. -/
theorem setDissolve_waits {s s' : State} {h : MsgHead} {id : Nat} {c : Ctx} {b : SetBody} (ht : taken s h 0x0D .opened false s' c)
    (hform : formOk h false = true) (howner : c.sess.role = 0) (hset : storedSet s' = some b) (hid : b.setId = id) :
    exec (.setDissolve h id) s
      = .next (tellPeers (accepted s' h c 0x0D none none (.config (.setDissolve h id))) 3 ⟨h.func, h.rid⟩) := by
  have hmem : (accepted s' h c 0x0D none none (.config (.setDissolve h id))).changes.contains (.request ⟨h.func, h.rid⟩) = true := by
    simp [accepted]
  have hgo : configGo s' h c (.setDissolve h id) true true true = accepted s' h c 0x0D none none (.config (.setDissolve h id)) := configGo_ok ..
  refine congrArg Host.Outcome.next ((message_of_taken ht _).trans ?_)
  simp only [hform, isOwner, howner, hset, hid, beq_self_eq_true, hgo, hmem, if_true]

/-! ### PROTECTION_RESTORE (R364) -/

theorem restoreGo_accepts {s : State} {h : MsgHead} {gen : Nat} {c : Ctx} {x : StoreImage} (hform : formOk h false = true)
    (hstore : s.prot.store = none) (hvault : s.kt.vaultCounter ≤ gen) (hx : s.prot.exports.find? (fun i => i.store.generation == gen) = some x) :
    restoreGo s h c true gen = accepted s h c 0x0D none none (.config (.protectionRestore h true gen)) := by
  simp only [restoreGo, hform, hstore, hx, Nat.not_lt.mpr hvault]
  rfl

/-- A fold that carries more than the state keeps what each of its steps keeps. -/
theorem foldl_fst_keeps {α β γ : Type} (f : State × β → α → State × β) (g : State → γ) (h : ∀ p a, g (f p a).1 = g p.1) (l : List α)
    (p : State × β) : g (l.foldl f p).1 = g p.1 := by
  induction l generalizing p with
  | nil => rfl
  | cons a l ih => rw [List.foldl_cons, ih, h]

/-- What a load of the store leaves alone: whatever the functions, the regulators, the keys, the shares and KT_READY are no part of. -/
theorem loadStore_keeps {β : Type} (g : State → β) (hf : ∀ s f x, g (setFunc s f x) = g s) (hb : ∀ s x, g (putBuckets s x) = g s)
    (hk : ∀ s k p a b, g (addKey s k p a b).1 = g s) (hp : ∀ s a x, g (putGlade s a x) = g s) (hr : ∀ s, g (setReady s bStore true) = g s)
    (s : State) (i : StoreImage) : g (loadStore s i) = g { s with
      prot := { s.prot with store := some i.store }
      glades := { s.glades with sets := i.sets, profiles := i.profiles }
      kt := { s.kt with vaultCounter := max s.kt.vaultCounter i.store.generation } } := by
  have hshare : ∀ s, g (assignShares s) = g s := by
    intro s
    refine foldl_fst_keeps _ g (fun p a => ?_) _ (s, 0)
    split
    · exact hp _ _ _
    · rfl
  unfold loadStore
  dsimp only
  rw [hr, hshare, foldl_keeps _ g, foldl_keeps _ g, foldl_keeps _ g]
  · exact fun s f => hf _ _ _
  · intro s a
    split
    · exact hb _ _
    · rfl
  · intro s p
    split
    · split
      · exact hk _ _ _ _ _
      · rfl
    · rfl

theorem loadStore_store (s : State) (i : StoreImage) : (loadStore s i).prot.store = some i.store :=
  loadStore_keeps (·.prot.store) (fun _ _ _ => rfl) (fun _ _ => rfl) (fun _ _ _ _ _ => rfl) (fun _ _ _ => rfl) (fun s => by simp) s i

theorem loadStore_vault (s : State) (i : StoreImage) : (loadStore s i).kt.vaultCounter = max s.kt.vaultCounter i.store.generation :=
  loadStore_keeps (·.kt.vaultCounter) (fun _ _ _ => rfl) (fun _ _ => rfl) (fun _ _ _ _ _ => rfl) (fun _ _ _ => rfl) (fun s => by simp) s i

theorem applyRestore_puts {s : State} {gen : Nat} {x : StoreImage} (q : Req)
    (hx : s.prot.exports.find? (fun i => i.store.generation == gen) = some x) :
    (applyRestore s q gen).prot.store = some x.store ∧ gen ≤ (applyRestore s q gen).kt.vaultCounter
      ∧ s.kt.vaultCounter ≤ (applyRestore s q gen).kt.vaultCounter ∧ ∀ y ∈ (applyRestore s q gen).reqs, y.id ≠ q.id := by
  have hgen : x.store.generation = gen := by simpa using List.find?_some hx
  simp only [applyRestore, hx]
  rw [completeReq_store, completeReq_kt, loadStore_store, loadStore_vault, hgen]
  exact ⟨rfl, le_max_right _ _, le_max_left _ _, completeReq_ends _ q _⟩

/-- Settles O27: each message that is taken goes on as its meaning says; a restore that takes effect loads its image. -/
theorem statusShutdownSetAndRestore : Obligations.StatusShutdownSetAndRestore := by
  unfold Obligations.StatusShutdownSetAndRestore
  refine ⟨fun h sel n arg s s' c size l ht hform hsel harg hn hrecs hfunc hpair => ?_,
    fun h first max n s s' c ht hform hrole hfunc hpair hfirst => ?_, fun h limit s s' c ht hform hlimit howner hshut => ?_,
    fun h b s s' c ht hcheck => ⟨_, congrArg Host.Outcome.next (message_of_taken ht _), setFormGo_begins hcheck⟩,
    fun h id s s' c b ht hform howner hset hid => ?_, fun h gen s s' c x ht hform hstore hvault hx => ?_,
    fun s q gen x hx => applyRestore_puts q hx⟩
  · obtain ⟨e, he, hgo⟩ := statusGo_answers (h := h) hform hsel harg hn hrecs
    obtain ⟨hreqs, hmedia, hprot, hchip, hkt, hlog, more, hhost⟩ := output_then_record s' h c (statusBytes n size l) he hfunc hpair hgo
    exact ⟨_, more, congrArg Host.Outcome.next (message_of_taken ht _), hreqs, hmedia, hprot, hchip, hkt, hlog, hhost⟩
  · obtain ⟨e, he, hgo⟩ := logGo_answers (h := h) (max := max) (n := n) hform hrole hfirst
    obtain ⟨hreqs, _, hprot, _, _, hlog, more, hhost⟩ := output_then_record s' h c _ he hfunc hpair hgo
    exact ⟨_, more, congrArg Host.Outcome.next (message_of_taken ht _), hreqs, hlog, hprot, hhost⟩
  · exact ⟨_, congrArg Host.Outcome.next ((message_of_taken ht _).trans (shutdownGo_drains hform hlimit howner hshut)), rfl, rfl, rfl, rfl⟩
  · refine ⟨_, setDissolve_waits ht hform howner hset hid, ?_, ?_, ?_⟩
    · exact tellPeers_reqs _ _ _
    · exact tellPeers_changes _ _ _
    · exact tellPeers_prot _ _ _
  · exact congrArg Host.Outcome.next ((message_of_taken ht _).trans (restoreGo_accepts hform hstore hvault hx))

end Sys2Proof.Machine
end

section
/-!
PROOF. Ports that train and fail, and members that are declared out (R449, R463, R464): O49.
-/
namespace Sys2Proof.Machine
open Sys2Proof.Claims

/-! ### Frames that are sent -/

/-- A port that has at most sent frames. -/
def portSent (x y : Port) : Prop := y = { x with txSeq := y.txSeq, unacked := y.unacked }

theorem portSent_refl (x : Port) : portSent x x := rfl

theorem portSent_trans {x y z : Port} (h : portSent x y) (h' : portSent y z) : portSent x z := by
  unfold portSent at *
  rw [h', h]

theorem portSent_fields {x y : Port} (h : portSent x y) : y.state = x.state ∧ y.peer = x.peer ∧ y.peerPort = x.peerPort ∧ y.width = x.width := by
  rw [portSent] at h
  rw [h]
  exact ⟨rfl, rfl, rfl, rfl⟩

/-- Every port has at most sent frames. -/
def onlySent (s t : State) : Prop := ∀ p, portSent (portAt s p) (portAt t p)

theorem onlySent_refl (s : State) : onlySent s s := fun _ => rfl

theorem onlySent_trans {s t u : State} (h : onlySent s t) (h' : onlySent t u) : onlySent s u := fun p => portSent_trans (h p) (h' p)

theorem onlySent_sendPort (s : State) (p : Nat) (b : List Byte) : onlySent s (sendPort s p b) := by
  intro x
  by_cases h : x = p
  · subst h
    have hport : portAt (sendPort s x b) x = _ := portAt_setPort_same s x _
    rw [hport]
    rfl
  · rw [portAt_sendPort_other _ _ _ _ h]
    rfl

theorem onlySent_sendTo (s : State) (m : Nat) (b : List Byte) : onlySent s (sendTo s m b) := by
  unfold sendTo
  split
  · split
    · exact onlySent_sendPort _ _ _
    · exact onlySent_refl s
  · exact onlySent_refl s

theorem onlySent_foldl {α : Type} (f : State → α → State) (h : ∀ s a, onlySent s (f s a)) (l : List α) (s : State) : onlySent s (l.foldl f s) := by
  induction l generalizing s with
  | nil => exact onlySent_refl s
  | cons a l ih => exact onlySent_trans (h s a) (ih (f s a))

theorem sendTo_groveOut (s : State) (m : Nat) (b : List Byte) : (sendTo s m b).grove.out = s.grove.out := by
  unfold sendTo
  split
  · split
    · rfl
    · rfl
  · rfl

theorem onlySent_state {s t : State} (h : onlySent s t) (p : Nat) : (portAt t p).state = (portAt s p).state :=
  (portSent_fields (h p)).1

theorem onlySent_still {s t : State} (h : onlySent s t) {p : Nat} (hs : portStill s p) : portStill t p := by
  rwa [portStill, portUp, onlySent_state h]

/-! ### Ports that train (R449) -/

theorem formFault_port (s : State) (d p : Nat) : portAt (formFault s d) p = portAt s p := by
  unfold formFault
  split
  · split
    · rfl
    · rfl
  · rfl

theorem formFault_reqs (s : State) (d : Nat) : (formFault s d).reqs = s.reqs := by
  unfold formFault
  split
  · split
    · rfl
    · rfl
  · rfl

/-- The layout has another peer, or another port of it, at this port. -/
def miscabled (s : State) (p peer far : Nat) : Bool :=
  match layoutOf s with | some (n, me) => layoutPeer n me p != (peer, far) | none => false

/-- The port's two link keys dropped. -/
def unkeyed (s : State) (p : Nat) : State := [(portAt s p).key, (portAt s p).rxKey].foldl (fun s k => if k = 0 then s else dropKey s k) s

/-- A link key drawn. -/
def linkKeyed (s : State) : State × Nat := addKey (drawn s) (Config.freeLinkKey s.freeCount) .link none none

/-- The port's two link keys dropped and drawn anew. -/
def rekeyed (s : State) (p : Nat) : State × Nat × Nat :=
  ((linkKeyed (linkKeyed (unkeyed s p)).1).1, (linkKeyed (unkeyed s p)).2, (linkKeyed (linkKeyed (unkeyed s p)).1).2)

/-- The port as it comes up. -/
def trainedPort (s : State) (p peer far : Nat) : Port :=
  { portAt s p with
    peer := peer, peerPort := far, width := if (portAt s p).laneFail != 0#8 then 4 else 8, key := (rekeyed s p).2.1, rxKey := (rekeyed s p).2.2 }

/-- The module whose port has come up and has sent again what was not acknowledged. -/
def portRisen (s : State) (p peer far : Nat) : State :=
  resendAll (setPortState (setPort (rekeyed s p).1 p (trainedPort s p peer far)) p (if (portAt s p).laneFail != 0#8 then 3 else 2)) p

/-- What a formation makes of a port that has come up. -/
def afterRise (s : State) : State :=
  match s.grove.forming with
  | some f => tryForm (if allPortsUp s then tellDigest s f else s)
  | none => s

section
variable {s : State} {p peer far : Nat} (hstate : (portAt s p).state = 1) (hen : bitOf s.grove.porten p = true) (hcut : s.tap.cut = false)
include hstate hen hcut

theorem portTrained_eq (authOk : Bool) : portTrained s p authOk peer far
    = if !authOk then formFault (setPortState (setPort s p { portAt s p with auth := true }) p 0) dtAuthentication
      else if miscabled s p peer far then formFault (setPortState (setPort s p { portAt s p with miscable := true }) p 5) dtMiscabling
      else afterRise (portRisen s p peer far) := by
  have hgate : ((portAt s p).state != 1 || !bitOf s.grove.porten p || s.tap.cut) = false := by simp [hstate, hen, hcut]
  simp only [portTrained, hgate]
  rfl

theorem portTrained_refused : portTrained s p false peer far
    = formFault (setPortState (setPort s p { portAt s p with auth := true }) p 0) dtAuthentication := portTrained_eq hstate hen hcut false

theorem portTrained_miscabled (h : miscabled s p peer far = true) : portTrained s p true peer far
    = formFault (setPortState (setPort s p { portAt s p with miscable := true }) p 5) dtMiscabling := by
  rw [portTrained_eq hstate hen hcut, h]
  rfl

theorem portTrained_rises (h : miscabled s p peer far = false) : portTrained s p true peer far = afterRise (portRisen s p peer far) := by
  rw [portTrained_eq hstate hen hcut, h]
  rfl

end

theorem unkeyed_keeps {β : Type} (g : State → β) (hk : ∀ (s : State) k, g { s with keys := k } = g s) (s : State) (p : Nat) :
    g (unkeyed s p) = g s := by
  refine foldl_keeps _ g (fun s k => ?_) _ _
  split
  · rfl
  · exact hk _ _

theorem rekeyed_keeps {β : Type} (g : State → β) (hk : ∀ (s : State) k, g { s with keys := k } = g s) (hf : ∀ (s : State) n, g { s with freeCount := n } = g s)
    (s : State) (p : Nat) : g (rekeyed s p).1 = g s := by
  have hkeyed : ∀ s, g (linkKeyed s).1 = g s := fun s => (hk (drawn s) _).trans (hf s _)
  exact (hkeyed _).trans ((hkeyed _).trans (unkeyed_keeps g hk s p))

theorem rekeyed_freeCount (s : State) (p : Nat) : (rekeyed s p).1.freeCount = s.freeCount + 2 := by
  have hkeyed : ∀ s, (linkKeyed s).1.freeCount = s.freeCount + 1 := fun _ => rfl
  rw [rekeyed, hkeyed, hkeyed, unkeyed_keeps State.freeCount fun _ _ => rfl]

theorem portAt_resendAll_same (s : State) (p : Nat) : portAt (resendAll s p) p
    = { portAt s p with resent := min 4294967295 ((portAt s p).resent + (portAt s p).unacked.length) } := portAt_setPort_same ..

theorem portAt_resendAll_other (s : State) (p x : Nat) (h : x ≠ p) : portAt (resendAll s p) x = portAt s x := portAt_setPort_other _ _ _ _ h

@[simp] theorem resendAll_reqs (s : State) (p : Nat) : (resendAll s p).reqs = s.reqs := rfl

@[simp] theorem resendAll_freeCount (s : State) (p : Nat) : (resendAll s p).freeCount = s.freeCount := rfl

theorem portRisen_port (s : State) (p peer far : Nat) : portUp (portRisen s p peer far) p = true ∧ (portAt (portRisen s p peer far) p).peer = peer
    ∧ (portAt (portRisen s p peer far) p).peerPort = far
    ∧ (portAt (portRisen s p peer far) p).width = if (portAt s p).laneFail = 0#8 then 8 else 4 := by
  have hport : portAt (portRisen s p peer far) p = _ := portAt_resendAll_same _ p
  rw [portAt_setPortState_setPort_same] at hport
  rw [portUp, hport]
  by_cases h : (portAt s p).laneFail = 0#8
  · simp [trainedPort, h]
  · simp [trainedPort, h]

theorem setPortState_freeCount (s : State) (p n : Nat) : (setPortState s p n).freeCount = s.freeCount := by
  rw [setPortState_eq]
  split
  · rfl
  · simp

theorem portRisen_rest (s : State) (p peer far : Nat) : (portRisen s p peer far).reqs = s.reqs ∧ (portRisen s p peer far).freeCount = s.freeCount + 2 := by
  constructor
  · rw [portRisen, resendAll_reqs, setPortState_reqs, setPort_reqs]
    exact rekeyed_keeps State.reqs (fun _ _ => rfl) (fun _ _ => rfl) s p
  · rw [portRisen, resendAll_freeCount, setPortState_freeCount, setPort_freeCount, rekeyed_freeCount]

theorem onlySent_tryForm (s : State) : onlySent s (tryForm s) := fun p => by
  rw [portAt_of_grove (tryForm_grove s)]
  rfl

theorem onlySent_afterRise (s : State) : onlySent s (afterRise s) := by
  unfold afterRise
  split
  · refine onlySent_trans ?_ (onlySent_tryForm _)
    split
    · exact onlySent_foldl _ (fun s m => onlySent_sendTo s m _) _ s
    · exact onlySent_refl s
  · exact onlySent_refl s

theorem afterRise_keeps {β : Type} (g : State → β) (hc : ∀ s c, g (addChange s c) = g s) (hs : ∀ s m b, g (sendTo s m b) = g s) (s : State) :
    g (afterRise s) = g s := by
  have htry : ∀ s, g (tryForm s) = g s := by
    intro s
    unfold tryForm
    split
    · split
      · exact hc _ _
      · rfl
    · rfl
  unfold afterRise
  split
  · rw [htry]
    split
    · exact foldl_keeps _ g (fun s m => hs s m _) _ s
    · rfl
  · rfl

theorem portTrains {s : State} {p : BitVec 3} {peer far : Nat} (hstate : (portAt s p.toNat).state = 1) (hen : bitOf s.grove.porten p.toNat = true)
    (hcut : s.tap.cut = false) :
    (∃ t, exec (.grovePortTrained p false peer far) s = .next t ∧ (portAt t p.toNat).state = 0 ∧ (portAt t p.toNat).auth = true
      ∧ t.reqs = s.reqs)
    ∧ (∀ n me, layoutOf s = some (n, me) → layoutPeer n me p.toNat ≠ (peer, far) →
      ∃ t, exec (.grovePortTrained p true peer far) s = .next t ∧ (portAt t p.toNat).state = 5 ∧ (portAt t p.toNat).miscable = true
        ∧ t.reqs = s.reqs)
    ∧ ((∀ n me, layoutOf s = some (n, me) → layoutPeer n me p.toNat = (peer, far)) →
      ∃ t, exec (.grovePortTrained p true peer far) s = .next t ∧ portUp t p.toNat = true ∧ (portAt t p.toNat).peer = peer
        ∧ (portAt t p.toNat).peerPort = far ∧ (portAt t p.toNat).width = (if (portAt s p.toNat).laneFail = 0#8 then 8 else 4)
        ∧ t.freeCount = s.freeCount + 2 ∧ t.reqs = s.reqs) := by
  refine ⟨⟨_, congrArg Host.Outcome.next (portTrained_refused hstate hen hcut), ?_, ?_, ?_⟩, fun n me hlay hne =>
    ⟨_, congrArg Host.Outcome.next (portTrained_miscabled hstate hen hcut ?_), ?_, ?_, ?_⟩, fun hlay =>
    ⟨_, congrArg Host.Outcome.next (portTrained_rises hstate hen hcut ?_), ?_⟩⟩
  · rw [formFault_port, portAt_setPortState_setPort_same]
  · rw [formFault_port, portAt_setPortState_setPort_same]
  · rw [formFault_reqs, setPortState_reqs, setPort_reqs]
  · simpa [miscabled, hlay] using hne
  · rw [formFault_port, portAt_setPortState_setPort_same]
  · rw [formFault_port, portAt_setPortState_setPort_same]
  · rw [formFault_reqs, setPortState_reqs, setPort_reqs]
  · cases h : layoutOf s with
    | none => simp [miscabled, h]
    | some x => simp [miscabled, h, hlay x.1 x.2 h]
  · have hsent := onlySent_afterRise (portRisen s p.toNat peer far) p.toNat
    obtain ⟨hup, hpeer, hfar, hwidth⟩ := portRisen_port s p.toNat peer far
    obtain ⟨hreqs, hfree⟩ := portRisen_rest s p.toNat peer far
    obtain ⟨hstate', hpeer', hfar', hwidth'⟩ := portSent_fields hsent
    refine ⟨?_, hpeer'.trans hpeer, hfar'.trans hfar, hwidth'.trans hwidth,
      (afterRise_keeps State.freeCount (fun _ _ => rfl) (fun s m b => by simp) _).trans hfree,
      (afterRise_keeps State.reqs (fun _ _ => rfl) (fun s m b => by simp) _).trans hreqs⟩
    rw [portUp, hstate']
    exact hup

/-! ### Ports that are lost, and members out (R463, R464) -/

theorem losePort_eq (s : State) (p : Nat) : losePort s p
    = { setPortState (setPort s p { portAt s p with width := 0, lost := true }) p 4 with
        grove := { (setPortState (setPort s p { portAt s p with width := 0, lost := true }) p 4).grove with recheck := true } } := rfl

theorem portAt_losePort_same (s : State) (p : Nat) : portAt (losePort s p) p = { portAt s p with width := 0, lost := true, state := 4 } :=
  portAt_setPortState_setPort_same ..

theorem portAt_losePort_other (s : State) (p x : Nat) (h : x ≠ p) : portAt (losePort s p) x = portAt s x :=
  portAt_setPortState_setPort_other _ _ _ _ _ h

theorem losePort_keeps {β : Type} (g : State → β) (hp : ∀ s p n, g (setPortState s p n) = g s) (hx : ∀ s p x, g (setPort s p x) = g s)
    (hr : ∀ (s : State) b, g { s with grove := { s.grove with recheck := b } } = g s) (s : State) (p : Nat) : g (losePort s p) = g s := by
  rw [losePort_eq, hr, hp, hx]

theorem portStill_losePort (s : State) (p : Nat) : portStill (losePort s p) p :=
  portStill_of_state (n := 4) (congrArg Port.state (portAt_losePort_same s p)) (by omega) (by omega) (by omega)

/-- The port is lost when it leads to the member and is up or training. -/
def loseToward (n me m : Nat) (s : State) (p : Nat) : State :=
  if (layoutPeer n me p).1 = m && ((portAt s p).state = 1 || portUp s p) then losePort s p else s

section
variable (n me m : Nat)

theorem loseToward_still (s : State) (p : Nat) (h : (layoutPeer n me p).1 = m) : portStill (loseToward n me m s p) p := by
  unfold loseToward
  split
  · exact portStill_losePort s p
  next hc =>
    rw [portStill]
    simpa [h, and_comm] using hc

theorem loseToward_keepsStill {s : State} {p : Nat} (q : Nat) (h : portStill s p) : portStill (loseToward n me m s q) p := by
  by_cases hp : p = q
  · subst hp
    unfold loseToward
    split
    · exact portStill_losePort s p
    · exact h
  · unfold loseToward
    split
    · exact portStill_of_port (portAt_losePort_other _ _ _ hp) h
    · exact h

theorem portStill_foldl_loseToward (l : List Nat) {s : State} {p : Nat} (hto : (layoutPeer n me p).1 = m) (h : p ∈ l ∨ portStill s p) :
    portStill (l.foldl (loseToward n me m) s) p := by
  induction l generalizing s with
  | nil => exact h.resolve_left (by simp)
  | cons q l ih =>
    refine ih ?_
    rcases h with hmem | hs
    · rcases List.mem_cons.mp hmem with rfl | hl
      · exact .inr (loseToward_still n me m s p hto)
      · exact .inl hl
    · exact .inr (loseToward_keepsStill n me m q hs)

theorem portAt_foldl_loseToward (l : List Nat) (s : State) {p : Nat} (hto : (layoutPeer n me p).1 ≠ m) :
    portAt (l.foldl (loseToward n me m) s) p = portAt s p := by
  refine foldl_keeps (loseToward n me m) (fun s => portAt s p) (fun s q => ?_) l s
  unfold loseToward
  split
  next h =>
    have hq : (layoutPeer n me q).1 = m := by simpa using (Bool.and_eq_true_iff.mp h).1
    exact portAt_losePort_other _ _ _ fun hp => hto (hp ▸ hq)
  next => rfl

theorem foldl_loseToward_keeps {β : Type} (g : State → β) (h : ∀ s p, g (losePort s p) = g s) (l : List Nat) (s : State) :
    g (l.foldl (loseToward n me m) s) = g s := by
  refine foldl_keeps _ g (fun s p => ?_) l s
  unfold loseToward
  split
  · exact h s p
  · rfl

end

/-! ### Units that wait on what has gone (R463) -/

theorem abandon_keeps {β : Type} (g : State → β) (h : ∀ (s : State) u l, g { s with chip := { s.chip with units := u, links := l } } = g s)
    (k : Nat) (s : State) (l : List Nat) : g (abandon k s l) = g s := by
  induction k generalizing s l with
  | zero => rfl
  | succ k ih =>
    cases l with
    | nil => rfl
    | cons n l => exact (ih _ _).trans (h _ _ _)

/-- A link unit that is left after units are abandoned was there before. -/
theorem mem_links_abandon {k : Nat} {s : State} {l : List Nat} {u : LinkState} (h : u ∈ (abandon k s l).chip.links) : u ∈ s.chip.links := by
  induction k generalizing s l with
  | zero => exact h
  | succ k ih =>
    cases l with
    | nil => exact h
    | cons n l => exact (List.mem_filter.mp (show u ∈ List.filter _ _ from ih h)).1

/-- None of the abandoned link units is left. -/
theorem abandon_links {k : Nat} {s : State} {l : List Nat} {u : LinkState} (h : u ∈ (abandon (k + 1) s l).chip.links) : u.desc.unitId ∉ l := by
  cases l with
  | nil => simp
  | cons n l => simpa using (List.mem_filter.mp (show u ∈ List.filter _ _ from mem_links_abandon (show u ∈ (abandon k _ _).chip.links from h))).2

/-- The module that has noted the member as out, its ports lost. -/
def memberLost (s : State) (n me m : Nat) : State :=
  (List.range 8).foldl (loseToward n me m) { s with grove := { s.grove with out := s.grove.out ++ [m] } }

/-- The unit numbers of the link units that involve a member. -/
def involvedUnits (s : State) (m : Nat) : List Nat := (s.chip.links.filter (fun u => linkInvolves u m)).map (fun u => u.desc.unitId)

theorem memberGone_eq {s : State} {n me m : Nat} (hlay : layoutOf s = some (n, me)) (hne : m ≠ me) (hlt : m < n) (hout : m ∉ s.grove.out) :
    memberGone s m = abandon (abandonFuel (memberLost s n me m)) (memberLost s n me m) (involvedUnits (memberLost s n me m) m) := by
  have hgate : ((decide (m = me)) || decide (n ≤ m) || s.grove.out.contains m) = false := by simp [hne, hlt, hout]
  simp only [memberGone, hlay, hgate]
  rfl

theorem memberGone_keeps {β : Type} (g : State → β) (hl : ∀ s p, g (losePort s p) = g s)
    (ha : ∀ (s : State) u l, g { s with chip := { s.chip with units := u, links := l } } = g s)
    (ho : ∀ (s : State) l, g { s with grove := { s.grove with out := l } } = g s) (s : State) (m : Nat) : g (memberGone s m) = g s := by
  unfold memberGone
  split
  · rfl
  next n me _ =>
    split
    · rfl
    · refine (abandon_keeps g ha _ _ _).trans ?_
      exact (foldl_loseToward_keeps n me m g hl _ _).trans (ho _ _)

theorem memberGone_parts {s : State} {n me m : Nat} (hlay : layoutOf s = some (n, me)) (hne : m ≠ me) (hlt : m < n) (hout : m ∉ s.grove.out) :
    (memberGone s m).grove.out = s.grove.out ++ [m]
      ∧ (∀ p, p < 8 → (layoutPeer n me p).1 = m → portStill (memberGone s m) p)
      ∧ (∀ p, (layoutPeer n me p).1 ≠ m → portAt (memberGone s m) p = portAt s p)
      ∧ ∀ u ∈ (memberGone s m).chip.links, linkInvolves u m = false := by
  rw [memberGone_eq hlay hne hlt hout]
  have hgrove := abandon_keeps State.grove (fun _ _ _ => rfl) (abandonFuel (memberLost s n me m)) (memberLost s n me m)
    (involvedUnits (memberLost s n me m) m)
  refine ⟨?_, fun p hp hto => ?_, fun p hto => ?_, fun u hu => ?_⟩
  · rw [hgrove]
    refine foldl_loseToward_keeps n me m (fun s => s.grove.out) ?_ _ _
    exact losePort_keeps (fun s => s.grove.out) (setPortState_grove_keeps Grove.out fun _ _ => rfl) (fun _ _ _ => rfl) fun _ _ => rfl
  · exact portStill_of_port (portAt_of_grove hgrove p) (portStill_foldl_loseToward n me m _ hto (.inl (List.mem_range.mpr hp)))
  · rw [portAt_of_grove hgrove]
    exact portAt_foldl_loseToward n me m _ _ hto
  · have hnot := abandon_links hu
    have hmem := mem_links_abandon hu
    by_contra hinv
    exact hnot (List.mem_map.mpr ⟨u, List.mem_filter.mpr ⟨hmem, by simpa using hinv⟩, rfl⟩)

/-- The module that has announced the member as out, or not. -/
theorem memberOut_tells {s : State} {m : Nat} (h : presentMember s m = true) :
    ∃ t, exec (.memberOut m) s = .next t ∧ onlySent (memberGone s m) t ∧ t.grove.out = (memberGone s m).grove.out
      ∧ t.chip = (memberGone s m).chip ∧ t.reqs = (memberGone s m).reqs ∧ t.media = (memberGone s m).media := by
  simp only [exec, execMemberOut, h, Bool.not_true, Bool.false_eq_true, if_false]
  split
  · refine ⟨_, rfl, onlySent_foldl _ (fun s x => ?_) _ _, foldl_keeps _ (fun s => s.grove.out) (fun s x => ?_) _ _,
      foldl_keeps _ State.chip (fun s x => ?_) _ _, foldl_keeps _ State.reqs (fun s x => ?_) _ _, foldl_keeps _ State.media (fun s x => ?_) _ _⟩
    · split
      · exact onlySent_refl s
      · exact onlySent_sendTo s _ _
    · split
      · rfl
      · exact sendTo_groveOut s _ _
    · split <;> simp
    · split <;> simp
    · split <;> simp
  · exact ⟨_, rfl, onlySent_refl _, rfl, rfl, rfl, rfl⟩

theorem losePort_reqs (s : State) (p : Nat) : (losePort s p).reqs = s.reqs := losePort_keeps State.reqs (by simp) (by simp) (fun _ _ => rfl) s p

theorem losePort_media (s : State) (p : Nat) : (losePort s p).media = s.media := losePort_keeps State.media (by simp) (by simp) (fun _ _ => rfl) s p

/-! ### Lanes that fail (R464) -/

/-- The port whose lane has failed. -/
def lanePort (s : State) (p lane : Nat) : Port := { portAt s p with laneFail := putBit (portAt s p).laneFail lane true, lane := true }

theorem laneFail_halves {s : State} {p lane : Nat} (hup : portUp s p = true) (hlane : bitOf (portAt s p).laneFail lane = false)
    (hwidth : (portAt s p).width = 8) : laneFail s p lane
      = resendAll (setPortState (setPort s p { lanePort s p lane with width := 4, retrains := min 65535 ((portAt s p).retrains + 1) }) p 3) p := by
  simp [laneFail, hup, hlane, hwidth, lanePort]

/-- What is left of the bundle's member once the port is lost. -/
def afterLoss (s : State) (p : Nat) : State :=
  match layoutOf s with
  | some (n, me) => if bundleLost s (layoutPeer n me p).1 then memberGone s (layoutPeer n me p).1 else s
  | none => s

theorem laneFail_loses {s : State} {p lane : Nat} (hup : portUp s p = true) (hlane : bitOf (portAt s p).laneFail lane = false)
    (hwidth : (portAt s p).width ≠ 8) : laneFail s p lane = afterLoss (losePort (setPort s p (lanePort s p lane)) p) p := by
  have hgate : (!portUp s p || bitOf (portAt s p).laneFail lane) = false := by simp [hup, hlane]
  simp only [laneFail, hgate, hwidth]
  rfl

/-- The port is lost. -/
def portLost (p : Nat) (s : State) : Prop := (portAt s p).state = 4 ∧ (portAt s p).lost = true ∧ s.grove.recheck = true

theorem portLost_same (s : State) (p : Nat) : portLost p (losePort s p) :=
  ⟨congrArg Port.state (portAt_losePort_same s p), congrArg Port.lost (portAt_losePort_same s p), rfl⟩

theorem portLost_losePort {s : State} {p : Nat} (q : Nat) (h : portLost p s) : portLost p (losePort s q) := by
  obtain ⟨hstate, hlost, _⟩ := h
  by_cases hp : p = q
  · exact hp ▸ portLost_same s p
  · have hport := portAt_losePort_other s q p hp
    exact ⟨hport ▸ hstate, hport ▸ hlost, rfl⟩

theorem portLost_memberGone {s : State} {p : Nat} (m : Nat) (h : portLost p s) : portLost p (memberGone s m) := by
  unfold memberGone
  split
  · exact h
  next n me _ =>
    split
    · exact h
    · have hfold : ∀ (l : List Nat) (s : State), portLost p s → portLost p (l.foldl (loseToward n me m) s) := by
        intro l
        induction l with
        | nil => exact fun s hs => hs
        | cons q l ih =>
          intro s hs
          refine ih _ ?_
          unfold loseToward
          split
          · exact portLost_losePort q hs
          · exact hs
      have hlost := hfold (List.range 8) { s with grove := { s.grove with out := s.grove.out ++ [m] } } h
      have hgrove := fun (t : State) k l => abandon_keeps State.grove (fun _ _ _ => rfl) k t l
      unfold portLost at hlost ⊢
      rw [portAt_of_grove (hgrove _ _ _), hgrove]
      exact hlost

theorem portLost_afterLoss {s : State} {p : Nat} (h : portLost p s) : portLost p (afterLoss s p) := by
  unfold afterLoss
  split
  · split
    · exact portLost_memberGone _ h
    · exact h
  · exact h

theorem afterLoss_reqs (s : State) (p : Nat) : (afterLoss s p).reqs = s.reqs := by
  unfold afterLoss
  split
  · split
    · exact memberGone_keeps State.reqs losePort_reqs (fun _ _ _ => rfl) (fun _ _ => rfl) s _
    · rfl
  · rfl

theorem laneFails {s : State} {p lane : BitVec 3} (hup : portUp s p.toNat = true) (hlane : bitOf (portAt s p.toNat).laneFail lane.toNat = false) :
    ((portAt s p.toNat).width = 8 →
      ∃ t, exec (.groveLaneFail p lane) s = .next t ∧ portUp t p.toNat = true ∧ (portAt t p.toNat).width = 4
        ∧ bitOf (portAt t p.toNat).laneFail lane.toNat = true ∧ (∀ x, x ≠ p.toNat → portAt t x = portAt s x) ∧ t.reqs = s.reqs)
    ∧ ((portAt s p.toNat).width ≠ 8 →
      ∃ t, exec (.groveLaneFail p lane) s = .next t ∧ (portAt t p.toNat).state = 4 ∧ (portAt t p.toNat).lost = true
        ∧ t.grove.recheck = true ∧ t.reqs = s.reqs) := by
  refine ⟨fun hwidth => ⟨_, congrArg Host.Outcome.next (laneFail_halves hup hlane hwidth), ?_, ?_, ?_, fun x hx => ?_, ?_⟩,
    fun hwidth => ⟨_, congrArg Host.Outcome.next (laneFail_loses hup hlane hwidth), ?_⟩⟩
  · rw [portUp, portAt_resendAll_same, portAt_setPortState_setPort_same]
    rfl
  · rw [portAt_resendAll_same, portAt_setPortState_setPort_same]
  · rw [portAt_resendAll_same, portAt_setPortState_setPort_same]
    exact bitOf_putBit_same _ _ _ lane.isLt
  · rw [portAt_resendAll_other _ _ _ hx, portAt_setPortState_setPort_other _ _ _ _ _ hx]
  · rw [resendAll_reqs, setPortState_reqs, setPort_reqs]
  · obtain ⟨hstate, hlost, hrecheck⟩ := portLost_afterLoss (portLost_same (setPort s p.toNat (lanePort s p.toNat lane.toNat)) p.toNat)
    refine ⟨hstate, hlost, hrecheck, ?_⟩
    rw [afterLoss_reqs, losePort_reqs, setPort_reqs]

/-- Settles O49. -/
theorem portsAndMembers : Obligations.PortsAndMembers := by
  unfold Obligations.PortsAndMembers
  refine ⟨fun s p peer far hstate hen hcut => portTrains hstate hen hcut, fun s p lane hup hlane => laneFails hup hlane,
    fun s m n me hpresent hlay hne hlt hout => ?_⟩
  obtain ⟨t, hexec, hsent, hgroveOut, hchip, hreqs, hmedia⟩ := memberOut_tells hpresent
  obtain ⟨hout', hstill, hports, hlinks⟩ := memberGone_parts hlay hne hlt hout
  refine ⟨t, hexec, hgroveOut.trans hout', fun p hp hto => onlySent_still hsent (hstill p hp hto), fun p _ hto => ?_, ?_, ?_, ?_⟩
  · have hport := hsent p
    rwa [hports p hto] at hport
  · rwa [hchip]
  · exact hreqs.trans (memberGone_keeps State.reqs losePort_reqs (fun _ _ _ => rfl) (fun _ _ => rfl) s m)
  · exact hmedia.trans (memberGone_keeps State.media losePort_media (fun _ _ _ => rfl) (fun _ _ => rfl) s m)

end Sys2Proof.Machine
end

section
/-!
PROOF. What the end of a request leaves alone, whatever its kind and status, and which requests are left (R20, R26): a layer for the
obligations on link units, Clearing, shutdown and recovery.
-/
namespace Sys2Proof.Machine

/-! ### What no end of a request touches -/

/-- The parts of the module that no end of a request touches. -/
structure Lasting where
  kt        : Kettle
  bytes     : List Host.Cell
  store     : Option Store
  links     : List LinkState
  units     : List UnitState
  clearings : List Clearing
  step      : Nat
  bi        : SelfTest
  pins      : Pins
  inside    : Bool

def lastingOf (s : State) : Lasting :=
  ⟨s.kt, s.media.bytes, s.prot.store, s.chip.links, s.chip.units, s.chip.clearings, s.chip.step, s.bi, s.pins, s.sched.inside⟩

theorem postRecord_inside (s : State) (n : Nat) (c : Completion) : (postRecord s n c).sched = s.sched := by
  unfold postRecord
  split
  · rfl
  · split
    · rfl
    · rfl

theorem completeReq_inside (s : State) (q : Req) (e : Ending) : (completeReq s q e).sched.inside = s.sched.inside := by
  have hrecord : (clearVerifies (endRecord s q.id q.pair q.session q.head q.glade e) q.job).sched = s.sched := by
    rw [clearVerifies_sched, endRecord, postRecord_inside]
    split <;> rfl
  simp only [completeReq, touchIdle_sched]
  exact congrArg Sched.inside hrecord

@[simp] theorem lasting_completeReq (s : State) (q : Req) (e : Ending) : lastingOf (completeReq s q e) = lastingOf s := by
  simp only [lastingOf, completeReq_kt, completeReq_media, completeReq_store, completeReq_chip, completeReq_bi, completeReq_pins,
    completeReq_inside]

@[simp] theorem lasting_dropKey (s : State) (n : Nat) : lastingOf (dropKey s n) = lastingOf s := rfl

@[simp] theorem lasting_chargeTokens (s : State) (set : Nat) (x : Resource) (n : Nat) (b : Bool) :
    lastingOf (chargeTokens s set x n b) = lastingOf s := by
  obtain ⟨regs, h⟩ := chargeTokens_parts s set x n b
  rw [h]
  rfl

@[simp] theorem lasting_putOutput (s : State) (r : ReqId) (b : List Byte) : lastingOf (putOutput s r b) = lastingOf s := by
  unfold putOutput
  split
  · rfl
  · exact lasting_chargeTokens s _ _ _ _

theorem lasting_putSegment (s : State) (q : Req) (v : Serve) (final : Bool) (b : List Byte) : lastingOf (putSegment s q v final b).1 = lastingOf s :=
  lasting_chargeTokens s _ _ _ _

theorem lasting_endServe (s : State) (q : Req) (v : Serve) (status detail flags : Nat) : lastingOf (endServe s q v status detail flags) = lastingOf s :=
  lasting_completeReq s q _

theorem lasting_leaveSeq (s : State) (q : Req) (v : Serve) (e : Ending) : lastingOf (leaveSeq s q v e) = lastingOf s :=
  (lasting_endServe _ q _ _ _ _).trans (lasting_putSegment s q v true _)

theorem lasting_endSequence (s : State) (q : Req) (v : Serve) (status detail flags : Nat) :
    lastingOf (endSequence s q v status detail flags) = lastingOf s := by
  unfold endSequence
  dsimp only
  split
  · split
    · exact lasting_leaveSeq s q v _
    · exact lasting_endServe s q v _ _ _
  · split
    · rfl
    · exact lasting_endServe s q _ _ _ _

theorem lasting_dropTable (s : State) (r : ReqId) : lastingOf (dropTable s r) = lastingOf s :=
  dropTable_part lastingOf (fun _ _ _ => rfl) (fun _ _ _ => rfl) (fun _ _ _ => rfl) s r

theorem lasting_dropMerge (s : State) (h : Nat) : lastingOf (dropMerge s h) = lastingOf s :=
  dropMerge_part lastingOf (fun _ _ => rfl) (fun _ _ => rfl) s h

theorem lasting_setGroveState (s : State) (n : Nat) : lastingOf (setGroveState s n) = lastingOf s :=
  setGroveState_part lastingOf (fun _ _ _ => rfl) s n

@[simp] theorem lasting_endRequest (s : State) (q : Req) (status detail flags : Nat) :
    lastingOf (endRequest s q status detail flags) = lastingOf s := by
  unfold endRequest
  split
  next v _ => exact lasting_endSequence s q v status detail flags
  next l _ =>
    exact (lasting_completeReq _ q _).trans ((lasting_putOutput _ _ _).trans (dropItemKeys_part lastingOf lasting_dropKey s _))
  next h _ => exact (lasting_completeReq _ q _).trans (lasting_dropMerge s h)
  next => exact lasting_completeReq _ q _
  next => exact lasting_completeReq _ q _
  next => exact (lasting_completeReq _ q _).trans (lasting_setGroveState _ 0)
  next => exact (lasting_completeReq _ q _).trans (lasting_dropTable s q.id)
  next => exact lasting_completeReq s q _

theorem lasting_completeId (s : State) (r : ReqId) (e : Ending) : lastingOf (completeId s r e) = lastingOf s := by
  unfold completeId
  split
  · exact lasting_completeReq s _ e
  · rfl

@[simp] theorem lasting_foldl {α : Type} (f : State → α → State) (h : ∀ s a, lastingOf (f s a) = lastingOf s) (l : List α) (s : State) :
    lastingOf (l.foldl f s) = lastingOf s := foldl_keeps f lastingOf h l s

/-- What lasts, field by field. -/
theorem lasting_fields {s t : State} (h : lastingOf t = lastingOf s) : t.kt = s.kt ∧ t.media.bytes = s.media.bytes ∧ t.prot.store = s.prot.store
    ∧ t.chip.links = s.chip.links ∧ t.chip.units = s.chip.units ∧ t.chip.clearings = s.chip.clearings ∧ t.chip.step = s.chip.step
    ∧ t.bi = s.bi ∧ t.pins = s.pins ∧ t.sched.inside = s.sched.inside :=
  ⟨congrArg Lasting.kt h, congrArg Lasting.bytes h, congrArg Lasting.store h, congrArg Lasting.links h, congrArg Lasting.units h,
    congrArg Lasting.clearings h, congrArg Lasting.step h, congrArg Lasting.bi h, congrArg Lasting.pins h, congrArg Lasting.inside h⟩

/-! ### The requests that are left -/

/-- The end of a request ends it and no other, unless a change would end a sequence of the batch inside its run. -/
theorem endRequest_reqs (s : State) (q : Req) {status : Nat} (detail flags : Nat)
    (h : (status ≠ stCancelled ∧ status ≠ stDenied) ∨ s.sched.inside = false) :
    (endRequest s q status detail flags).reqs = s.reqs.filter (fun x => x.id != q.id) := by
  have hbatch : ∀ b : Bool, ((status == stCancelled || status == stDenied) && s.sched.inside && b) = false := by
    intro b
    rcases h with ⟨hc, hd⟩ | hin
    · simp [beq_false_of_ne hc, beq_false_of_ne hd]
    · simp [hin]
  unfold endRequest
  split
  next v _ =>
    unfold endSequence
    dsimp only
    rw [hbatch]
    split
    · split
      · simp only [leaveSeq, endServe, completeReq_reqs, putSegment, writeSegment, chargeTokens_reqs]
      · exact completeReq_reqs s q _
    · exact completeReq_reqs s q _
  next l _ =>
    rw [endItems, completeReq_reqs, (putOutput_leaves _ _ _).2.1, dropItemKeys_part State.reqs fun _ _ => rfl]
  next h _ => rw [completeReq_reqs, dropMerge_part State.reqs (fun _ _ => rfl) fun _ _ => rfl]
  next => exact completeReq_reqs _ q _
  next => exact completeReq_reqs _ q _
  next => rw [completeReq_reqs, setGroveState_part State.reqs fun _ _ _ => rfl]
  next => rw [completeReq_reqs, dropTable_part State.reqs (fun _ _ _ => rfl) (fun _ _ _ => rfl) fun _ _ _ => rfl]
  next => exact completeReq_reqs s q _

/-- The end of one request that is still there, by its name. -/
def endOne (status detail : Nat) (s : State) (q : Req) : State :=
  match reqOf s q.id with
  | some q => endRequest s q status detail 0
  | none => s

theorem lasting_endOne (status detail : Nat) (s : State) (q : Req) : lastingOf (endOne status detail s q) = lastingOf s := by
  unfold endOne
  split
  · exact lasting_endRequest s _ _ _ _
  · rfl

/-- No request is left under the name. -/
theorem endOne_reqs {s : State} {status : Nat} (detail : Nat) (h : (status ≠ stCancelled ∧ status ≠ stDenied) ∨ s.sched.inside = false) (q : Req) :
    (endOne status detail s q).reqs = s.reqs.filter (fun x => x.id != q.id) := by
  unfold endOne
  split
  next p hp => rw [endRequest_reqs s p _ _ h, reqOf_id s q.id p hp]
  next hnone => exact (List.filter_eq_self.mpr fun x hx => by simpa using ne_of_reqOf_none hnone x hx).symm

/-- What is left after a list of requests has been ended. -/
theorem mem_ended {l : List Req} {s : State} {status detail : Nat} (h : (status ≠ stCancelled ∧ status ≠ stDenied) ∨ s.sched.inside = false)
    {y : Req} (hy : y ∈ (l.foldl (endOne status detail) s).reqs) : y ∈ s.reqs ∧ ∀ q ∈ l, y.id ≠ q.id := by
  induction l generalizing s with
  | nil => exact ⟨hy, by simp⟩
  | cons q l ih =>
    have h' := h.imp_right (congrArg Lasting.inside (lasting_endOne status detail s q)).trans
    obtain ⟨hmem, hne⟩ := ih h' hy
    rw [endOne_reqs detail h] at hmem
    obtain ⟨hmem, hq⟩ := List.mem_filter.mp hmem
    exact ⟨hmem, List.forall_mem_cons.mpr ⟨by simpa using hq, hne⟩⟩

end Sys2Proof.Machine
end

section
/-!
PROOF. Link units: their results in consecutive tiles, their end, and their overruns (R458 to R460, R463), and O50.
-/
namespace Sys2Proof.Machine
open Sys2Proof.Claims

/-! ### Consecutive runs of a list -/

section
variable {α : Type} {n : Nat} (hn : 0 < n)
include hn

theorem getElem?_chunksFuel {fuel : Nat} {l : List α} (h : l.length ≤ fuel) (i : Nat) :
    (chunksFuel n fuel l)[i]? = if n * i < l.length then some ((l.drop (n * i)).take n) else none := by
  induction fuel generalizing l i with
  | zero =>
    rw [chunksFuel, if_neg (by omega)]
    rfl
  | succ fuel ih =>
    rw [chunksFuel]
    cases l with
    | nil => simp
    | cons a l =>
      rw [if_neg (by simp)]
      cases i with
      | zero => simp
      | succ i =>
        have hlen : ((a :: l).drop n).length = (a :: l).length - n := List.length_drop
        have hmul : n * (i + 1) = n + n * i := by ring
        rw [List.getElem?_cons_succ, ih (by rw [hlen]; omega), hlen, List.drop_drop, hmul]
        by_cases hlt : n * i < (a :: l).length - n
        · rw [if_pos hlt, if_pos (by omega)]
        · rw [if_neg hlt, if_neg (by omega)]

theorem getElem?_chunksOf (l : List α) (i : Nat) :
    (chunksOf n l)[i]? = if n * i < l.length then some ((l.drop (n * i)).take n) else none := getElem?_chunksFuel hn (Nat.le_refl _) i

/-- There are as many runs as the length asks for. -/
theorem chunksOf_length (l : List α) : (chunksOf n l).length = ceilDiv l.length n := by
  have hiff : ∀ i, i < (chunksOf n l).length ↔ i < ceilDiv l.length n := by
    intro i
    have hrun : i < (chunksOf n l).length ↔ n * i < l.length := by
      rw [← not_iff_not, Nat.not_lt, ← List.getElem?_eq_none_iff, getElem?_chunksOf hn]
      simp
    rw [hrun, ceilDiv, Nat.lt_iff_add_one_le (n := (l.length + n - 1) / n), Nat.le_div_iff_mul_le hn, Nat.mul_comm n i, Nat.add_mul]
    omega
  exact Nat.le_antisymm (Nat.le_of_not_lt fun h => absurd ((hiff _).mp h) (Nat.lt_irrefl _))
    (Nat.le_of_not_lt fun h => absurd ((hiff _).mpr h) (Nat.lt_irrefl _))

/-- The byte at a place of a list stands in its run. -/
theorem chunksOf_get (l : List α) (d : α) {i : Nat} (hi : i < l.length) :
    ((((chunksOf n l)[i / n]?).getD [])[i % n]?).getD d = (l[i]?).getD d := by
  have hdiv : n * (i / n) + i % n = i := Nat.div_add_mod i n
  have hle : n * (i / n) < l.length := by omega
  rw [getElem?_chunksOf hn, if_pos hle, Option.getD_some, List.getElem?_take_of_lt (Nat.mod_lt _ hn), List.getElem?_drop, hdiv]

end

/-! ### Consecutive tiles filled (R214, R459) -/

/-- The bytes of a list of runs brought into the tiles from `key`. -/
def fillRuns (s : State) (key : Nat) (l : List (List Byte)) : State := (l.zipIdx).foldl (fun s c => fillTile s (key + c.2) c.1) s

theorem fillTile_populated (s : State) (k : Nat) (b : List Byte) (key : Nat) : tilePopulated (fillTile s k b) key = tilePopulated s key := by
  by_cases h : tilePopulated s k = true
  · rw [fillTile_eq b h]
    rfl
  · simp [fillTile, h]

theorem fillRuns_cons (s : State) (key : Nat) (b : List Byte) (l : List (List Byte)) :
    fillRuns s key (b :: l) = fillRuns (fillTile s key b) (key + 1) l := by
  unfold fillRuns
  rw [List.zipIdx_cons, List.foldl_cons, List.zipIdx_eq_map_add, List.foldl_map]
  simp only [Nat.add_zero, Nat.zero_add]
  refine congrArg (fun f => List.foldl f _ l.zipIdx) (funext fun s => funext fun c => ?_)
  exact congrArg (fun k => fillTile s k c.1) (by omega)

theorem fillRuns_keeps {β : Type} (g : State → β) (h : ∀ s k b, tilePopulated s k = true → g (fillTile s k b) = g s) (s : State) (key : Nat)
    (l : List (List Byte)) : g (fillRuns s key l) = g s := by
  refine foldl_keeps _ g (fun s c => ?_) _ s
  by_cases hp : tilePopulated s (key + c.2) = true
  · exact h _ _ _ hp
  · simp [fillTile, hp]

/-- What is outside a row of tiles is outside its first one and outside the rest. -/
theorem outside_tiles {x key n : Nat} (h : x < 16384 * key ∨ 16384 * key + 16384 * (n + 1) ≤ x) :
    (x < 16384 * key ∨ 16384 * key + 16384 ≤ x) ∧ (x < 16384 * (key + 1) ∨ 16384 * (key + 1) + 16384 * n ≤ x) := by omega

theorem fillRuns_spec (l : List (List Byte)) {s : State} {key : Nat} (hp : ∀ i, i < l.length → tilePopulated s (key + i) = true) :
    (∀ i j, i < l.length → j < 16384 → readByte (fillRuns s key l).media.bytes (16384 * (key + i) + j) = (((l[i]?).getD [])[j]?).getD 0#8)
      ∧ sameOutside s.media.bytes (fillRuns s key l).media.bytes (16384 * key) (16384 * l.length)
      ∧ (∀ i, i < l.length → dState (tileDesc (fillRuns s key l) (key + i)) = 2)
      ∧ ∀ x, x < key ∨ key + l.length ≤ x → tileDesc (fillRuns s key l) x = tileDesc s x := by
  induction l generalizing s key with
  | nil => exact ⟨fun i j hi => absurd hi (by simp), fun x _ => rfl, fun i hi => absurd hi (by simp), fun x _ => rfl⟩
  | cons b l ih =>
    have hkey : tilePopulated s key = true := hp 0 (by simp)
    have hrest : ∀ i, i < l.length → tilePopulated (fillTile s key b) (key + 1 + i) = true := by
      intro i hi
      rw [fillTile_populated, Nat.add_assoc, Nat.add_comm 1 i]
      exact hp (i + 1) (by simpa using hi)
    obtain ⟨hbytes, hsame, hfull, hother⟩ := ih hrest
    rw [fillRuns_cons, List.length_cons]
    refine ⟨fun i j hi hj => ?_, fun x hx => ?_, fun i hi => ?_, fun x hx => ?_⟩
    · cases i with
      | zero =>
        rw [Nat.add_zero key, hsame _ (.inl (by omega)), readByte_fillTile_inside b hkey hj]
        rfl
      | succ i =>
        rw [show key + (i + 1) = key + 1 + i by omega]
        exact hbytes i j (by omega) hj
    · obtain ⟨hhere, hafter⟩ := outside_tiles hx
      exact (hsame x hafter).trans (fillTile_sameOutside b hkey x hhere)
    · cases i with
      | zero => rw [Nat.add_zero key, hother key (.inl (by omega)), tileDesc_fillTile_same b hkey, dState_filledDesc]
      | succ i =>
        rw [show key + (i + 1) = key + 1 + i by omega]
        exact hfull i (by omega)
    · rw [hother x (by omega), tileDesc_fillTile_other b hkey (by omega)]

/-! ### The result of a link unit (R459) -/

theorem putLink_eq (s : State) (d : LinkDesc) (l : List Byte) : putLink s d l = fillRuns s (d.dest / tileBytes) (chunksOf tileBytes l) := rfl

theorem mem_tileRange (a n x : Nat) : x ∈ tileRange a n ↔ a / tileBytes ≤ x ∧ x < a / tileBytes + ceilDiv n tileBytes := by
  simp only [tileRange, List.mem_map, List.mem_range]
  constructor
  · rintro ⟨i, hi, rfl⟩
    omega
  · exact fun h => ⟨x - a / tileBytes, by omega, by omega⟩

theorem tileBytes_eq : tileBytes = 16384 := rfl

theorem length_tileRange (a n : Nat) : (tileRange a n).length = ceilDiv n tileBytes := by
  rw [tileRange, List.length_map, List.length_range]

section
variable {s : State} {d : LinkDesc} {out : List Byte} (halign : d.dest % 16384 = 0)
  (hp : ∀ x ∈ tileRange d.dest out.length, tilePopulated s x = true)
include halign hp

/-- The result stands in the destination tiles, which are FULL; nothing else of the tiles changes. -/
theorem putLink_spec : readBytes (putLink s d out).media.bytes d.dest out.length = out
    ∧ (∀ x ∈ tileRange d.dest out.length, dState (tileDesc (putLink s d out) x) = 2)
    ∧ sameOutside s.media.bytes (putLink s d out).media.bytes d.dest (16384 * (tileRange d.dest out.length).length)
    ∧ ∀ x, x ∉ tileRange d.dest out.length → tileDesc (putLink s d out) x = tileDesc s x := by
  have hlen : (chunksOf tileBytes out).length = ceilDiv out.length tileBytes := chunksOf_length (by decide) out
  have hdest : 16384 * (d.dest / tileBytes) = d.dest := by rw [tileBytes_eq]; omega
  have hpop : ∀ i, i < (chunksOf tileBytes out).length → tilePopulated s (d.dest / tileBytes + i) = true := fun i hi =>
    hp _ ((mem_tileRange _ _ _).mpr (by omega))
  obtain ⟨hbytes, hsame, hfull, hother⟩ := fillRuns_spec (chunksOf tileBytes out) hpop
  rw [putLink_eq, length_tileRange]
  refine ⟨?_, fun x hx => ?_, ?_, fun x hx => ?_⟩
  · refine List.ext_getElem? fun i => ?_
    by_cases hi : i < out.length
    · have hrun : i / tileBytes < (chunksOf tileBytes out).length := by
        rw [hlen, ceilDiv, tileBytes_eq]
        omega
      have hbyte := hbytes (i / tileBytes) (i % tileBytes) hrun (Nat.mod_lt _ (by decide))
      rw [chunksOf_get (by decide) out 0#8 hi, List.getElem?_eq_getElem hi, Option.getD_some,
        show 16384 * (d.dest / tileBytes + i / tileBytes) + i % tileBytes = d.dest + i by rw [tileBytes_eq] at *; omega] at hbyte
      rw [readBytes, List.getElem?_map, List.getElem?_range hi, Option.map_some, hbyte, List.getElem?_eq_getElem hi]
    · rw [List.getElem?_eq_none (by rw [readBytes, List.length_map, List.length_range]; omega), List.getElem?_eq_none (by omega)]
  · obtain ⟨hlo, hhi⟩ := (mem_tileRange _ _ _).mp hx
    rw [show x = d.dest / tileBytes + (x - d.dest / tileBytes) by omega]
    exact hfull _ (by omega)
  · rw [← hlen]
    rwa [hdest] at hsame
  · rw [mem_tileRange] at hx
    exact hother x (by omega)

end

theorem restAll_putLink {s : State} (d : LinkDesc) (out : List Byte) (hr : restAll s) : restAll (putLink s d out) := by
  have hfold : ∀ (l : List (List Byte)) (s : State) key, restAll s → restAll (fillRuns s key l) := by
    intro l
    induction l with
    | nil => exact fun s key hs => hs
    | cons b l ih =>
      intro s key hs
      rw [fillRuns_cons]
      refine ih _ _ ?_
      by_cases hk : tilePopulated s key = true
      · exact restAll_fillTile b hk hs
      · simpa [fillTile, hk] using hs
  exact hfold _ _ _ hr

theorem putLink_keeps {β : Type} (g : State → β) (h : ∀ s k b, tilePopulated s k = true → g (fillTile s k b) = g s) (s : State) (d : LinkDesc)
    (l : List Byte) : g (putLink s d l) = g s := fillRuns_keeps g h s _ _

/-! ### Bytes drawn (R459) -/

theorem foldl_bind_none {α β : Type} (f : α → β → Option α) (l : List β) : l.foldl (fun o b => o.bind (fun a => f a b)) none = none := by
  induction l with
  | nil => rfl
  | cons b l ih => exact ih

/-- Bytes drawn change the regulators and the transfers held, and nothing else. -/
theorem linkDraw_parts {s t : State} {d : LinkDesc} {n : Nat} (h : linkDraw s d n = some t) :
    ∃ regs holds, t = { s with regs := regs, holds := holds } := by
  unfold linkDraw at h
  dsimp only at h
  generalize (linkGlades s d).eraseDups = l at h
  generalize linkGlades s d = gs at h
  induction l generalizing s with
  | nil => exact ⟨s.regs, s.holds, (Option.some.inj h).symm⟩
  | cons g l ih =>
    rw [List.foldl_cons, Option.bind_some] at h
    cases hdraw : drawTokens s g .grove (n * (gs.filter (· == g)).length / max 1 gs.length) true ⟨g, 2, 512, d.unitId, 0⟩ with
    | none =>
      rw [hdraw, foldl_bind_none (fun s g =>
        drawTokens s g .grove (n * (gs.filter (· == g)).length / max 1 gs.length) true ⟨g, 2, 512, d.unitId, 0⟩)] at h
      cases h
    | some s1 =>
      rw [hdraw] at h
      obtain ⟨regs, holds, rfl⟩ := drawTokens_parts hdraw
      obtain ⟨regs', holds', rfl⟩ := ih h
      exact ⟨regs', holds', rfl⟩

/-! ### A link unit that ends (R458) -/

/-- The state a link unit leaves: its result put, itself gone, its successors released. -/
def linkEnded (s : State) (d : LinkDesc) (out : Option (List Byte)) : State :=
  let s := match out with | some l => putLink s d l | none => s
  releaseSuccs { s with chip := { s.chip with links := s.chip.links.filter (fun x => x.desc.unitId != d.unitId) } } d.succs

theorem linkRun_ends {s s1 : State} {kind : LinkKind} {d : LinkDesc} {sent src : Nat} {u : LinkState} (out : Option (List Byte))
    (hfind : s.chip.links.find? (fun u => u.desc.unitId == d.unitId && u.kind == kind) = some u) (hleft : u.left = 0) (hdesc : u.desc = d)
    (hfull : sourceFull s d src = true) (hdraw : linkDraw s d sent = some s1) :
    linkRun s kind d sent src out = goAll (linkEnded s1 d out) 0 := by
  have hgate : (u.left != 0 || u.desc != d || !sourceFull s d src) = false := by simp [hleft, hdesc, hfull]
  simp only [linkRun, hfind, hgate, hdraw]
  rfl

theorem lastingChip_putLink (s : State) (d : LinkDesc) (l : List Byte) : (putLink s d l).chip.links = s.chip.links
    ∧ (putLink s d l).chip.units = s.chip.units ∧ (putLink s d l).reqs = s.reqs ∧ (putLink s d l).log = s.log := by
  refine ⟨putLink_keeps (·.chip.links) (fun s k b hk => ?_) s d l, putLink_keeps (·.chip.units) (fun s k b hk => ?_) s d l,
    putLink_keeps (·.reqs) (fun s k b hk => ?_) s d l, putLink_keeps (·.log) (fun s k b hk => ?_) s d l⟩ <;>
  · rw [fillTile_eq b hk]
    rfl

/-- Whatever a collective leaves here, a unit that may run ends with it. -/
theorem linkEnds_some {s : State} {i : Instr} {kind : LinkKind} {d : LinkDesc} {sent src : Nat} {out : List Byte}
    (hexec : exec i s = .next (linkRun s kind d sent src (some out))) : linkEnds s i kind d sent src out := by
  intro u s1 hfind hleft hdesc hfull hdraw hrest halign hp
  obtain ⟨regs, holds, rfl⟩ := linkDraw_parts hdraw
  generalize hs1 : ({ s with regs := regs, holds := holds } : State) = s1 at hdraw
  have hrest1 : restAll s1 := by subst hs1; exact hrest
  have hp1 : ∀ x ∈ tileRange d.dest out.length, tilePopulated s1 x = true := by subst hs1; exact hp
  obtain ⟨hbytes, hstates, hsame, hother⟩ := putLink_spec halign hp1
  obtain ⟨hlinks, hunits, hreqs, hlog⟩ := lastingChip_putLink s1 d out
  have hgo : goAll (linkEnded s1 d (some out)) 0 = linkEnded s1 d (some out) := goAll_rest _ 0 (restAll_putLink d out hrest1)
  refine ⟨_, hexec.trans (congrArg Host.Outcome.next ((linkRun_ends (some out) hfind hleft hdesc hfull hdraw).trans hgo)), ?_, ?_, hbytes, hstates,
    ?_, fun x hx => ?_, ?_, ?_⟩
  · subst hs1
    exact congrArg (fun l : List LinkState => (l.filter (fun x => x.desc.unitId != d.unitId)).map
      (fun x => if d.succs.contains x.desc.unitId then { x with left := x.left - 1 } else x)) hlinks
  · subst hs1
    exact congrArg (List.map fun x : UnitState => if d.succs.contains x.desc.unitId then { x with left := x.left - 1 } else x) hunits
  · subst hs1
    exact hsame
  · subst hs1
    exact hother x hx
  · subst hs1
    exact hreqs
  · subst hs1
    exact hlog

/-- A member that only sends leaves its tiles alone. -/
theorem linkEnds_none {s : State} {i : Instr} {kind : LinkKind} {d : LinkDesc} {sent src : Nat}
    (hexec : exec i s = .next (linkRun s kind d sent src none)) : linkEnds s i kind d sent src [] := by
  intro u s1 hfind hleft hdesc hfull hdraw hrest halign hp
  obtain ⟨regs, holds, rfl⟩ := linkDraw_parts hdraw
  have hgo := goAll_rest (linkEnded { s with regs := regs, holds := holds } d none) 0 hrest
  exact ⟨_, hexec.trans (congrArg Host.Outcome.next ((linkRun_ends none hfind hleft hdesc hfull hdraw).trans hgo)), rfl, rfl, rfl,
    fun x hx => absurd hx (by simp [tileRange, ceilDiv, tileBytes]), fun x _ => rfl, fun x _ => rfl, rfl, rfl⟩

theorem linkUnits_run : linkUnitsRun := by
  intro s d n me hlay
  refine ⟨fun peers l hl hok hformat hlen => linkEnds_some ?_, fun peers l hl hok hlen => linkEnds_some ?_,
    fun peers l hroot hl => linkEnds_some ?_, fun peers hroot => linkEnds_none ?_, fun data hroot => linkEnds_none ?_,
    fun data hroot hlen => linkEnds_some ?_, fun data hroot => linkEnds_none ?_, fun data hroot hto hlen => linkEnds_some ?_, fun a b => rfl⟩
  · have hall : (l.all fun v => v.length == d.bytes / 4) = true := by simpa using hlen
    simp [exec, execAllreduce, hlay, hl, hok, hformat, hall]
  · have hall : (l.all fun v => v.length == d.bytes / n) = true := by simpa using hlen
    simp [exec, execAllgather, hlay, hl, hok, hall]
  · simp [exec, execGather, hlay, hroot, hl]
  · simp [exec, execGather, hlay, hroot]
  · simp [exec, execBroadcast, hlay, hroot]
  · simp [exec, execBroadcast, hlay, hroot, hlen]
  · simp [exec, execSend, hlay, hroot]
  · simp [exec, execSend, hlay, hroot, hto, hlen]

/-! ### Overruns (R459, R463) -/

/-- The end of one suspect, when the request is still there. -/
theorem failSuspects_one (s : State) (r : ReqId) (code : Nat) :
    lastingOf (failSuspects s [r] code) = lastingOf s ∧ (failSuspects s [r] code).reqs = s.reqs.filter (fun x => x.id != r) := by
  have hone : failSuspects s [r] code = match reqOf s r with | some q => endRequest s q stFault code 0 | none => s := rfl
  rw [hone]
  cases hq : reqOf s r with
  | none =>
    refine ⟨rfl, (List.filter_eq_self.mpr fun x hx => ?_).symm⟩
    simpa using ne_of_reqOf_none hq x hx
  | some q =>
    refine ⟨lasting_endRequest s q _ _ _, ?_⟩
    rw [endRequest_reqs s q _ _ (.inl ⟨by decide, by decide⟩), reqOf_id s r q hq]

theorem linkOverrun_again {s : State} {n : Nat} {u : LinkState} (hfind : s.chip.links.find? (fun u => u.desc.unitId == n) = some u)
    (hover : u.overran = false) : exec (.linkUnitOverrun n) s = .next { s with chip := { s.chip with
      links := s.chip.links.map (fun x => if x.desc.unitId = n then { x with overran := true } else x) } } := by
  simp [exec, execLinkUnitOverrun, hfind, hover]

theorem linkOverrun_ends {s : State} {n : Nat} {u : LinkState} {r : ReqId} (hfind : s.chip.links.find? (fun u => u.desc.unitId == n) = some u)
    (hover : u.overran = true) (howner : u.desc.owner = some r) :
    exec (.linkUnitOverrun n) s = .next (failSuspects (abandon (abandonFuel s) s [n]) [r] dtLinkUnit) := by
  simp [exec, execLinkUnitOverrun, hfind, hover, howner]

theorem linkUnitOverruns_endTheirOwner : linkUnitOverrunsEndTheirOwner := by
  intro s n u hfind
  refine ⟨linkOverrun_again hfind, fun hover r howner => ⟨_, linkOverrun_ends hfind hover howner, ?_⟩⟩
  obtain ⟨hlasting, hreqs⟩ := failSuspects_one (abandon (abandonFuel s) s [n]) r dtLinkUnit
  obtain ⟨_, hbytes, _, hlinks, _⟩ := lasting_fields hlasting
  have hleft : (abandon (abandonFuel s) s [n]).reqs = s.reqs := abandon_keeps State.reqs (fun _ _ _ => rfl) _ _ _
  rw [hleft] at hreqs
  refine ⟨fun x hx => ?_, fun q hq => ?_, fun q hq hne => ?_, ?_⟩
  · rw [hlinks] at hx
    simpa using abandon_links hx
  · rw [hreqs] at hq
    simpa using (List.mem_filter.mp hq).2
  · rw [hreqs]
    exact List.mem_filter.mpr ⟨hq, by simpa using hne⟩
  · exact hbytes.trans (abandon_keeps (·.media.bytes) (fun _ _ _ => rfl) _ _ _)

/-- Settles O50. -/
theorem linkUnits : Obligations.LinkUnits := by
  unfold Obligations.LinkUnits
  exact ⟨linkUnits_run, linkUnitOverruns_endTheirOwner⟩

end Sys2Proof.Machine
end

section
/-!
PROOF. The self-tests at a shutdown and the online test (R505, R520 to R529): O52.
-/
namespace Sys2Proof.Machine
open Sys2Proof.Claims

/-! ### The groups of a self-test (R520 to R525) -/

/-- Values put one after another: each key has its value, and the others what they had. -/
theorem AMap.get_foldl_put {α : Type} [DecidableEq α] (d : α) (f : Nat → α) (l : List Nat) (m : AMap α) (p : Nat) :
    AMap.get d (l.foldl (fun m p => AMap.put d m p (f p)) m) p = if p ∈ l then f p else AMap.get d m p := by
  induction l generalizing m with
  | nil => simp
  | cons q l ih =>
    rw [List.foldl_cons, ih]
    by_cases hl : p ∈ l
    · simp [hl]
    · by_cases hq : p = q
      · subst hq
        simp [hl, AMap.get_put_same]
      · simp [hl, hq, AMap.get_put_other]

/-- The record of a site in a group's run. -/
def siteResult (r : BistRun) (fails : List (Nat × Nat)) (misrs : List (Nat × W64)) (p : Nat) : Nat × Nat × Nat :=
  (bistResult fails p, if r.atStart then 1 else 0, fld (bistMisr misrs p 0) 0 32)

theorem mem_sitesOfGroup (g p : Nat) : p ∈ sitesOfGroup g ↔ p < 528 ∧ groupOfSite p = g := by
  simp [sitesOfGroup]

theorem recordGroup_sites (s : State) (r : BistRun) (fails : List (Nat × Nat)) (misrs : List (Nat × W64)) (p : Nat) :
    AMap.get (0, 0, 0) (recordGroup s r fails misrs).kt.bist.sites p
      = if p < 528 ∧ groupOfSite p = r.next then siteResult r fails misrs p else AMap.get (0, 0, 0) s.kt.bist.sites p := by
  have hsites : (recordGroup s r fails misrs).kt.bist.sites
      = (sitesOfGroup r.next).foldl (fun m p => AMap.put (0, 0, 0) m p (siteResult r fails misrs p)) s.kt.bist.sites := by
    unfold recordGroup
    generalize sitesOfGroup r.next = l
    rfl
  simp only [hsites, AMap.get_foldl_put, mem_sitesOfGroup]

section
variable {s : State} {r : BistRun} (fails : List (Nat × Nat)) (misrs : List (Nat × W64)) (starts : List StartReport) (hrun : s.kt.run = some r)
include hrun

theorem bistGroupDone_records (hnext : r.next < 8) : exec (.bistGroupDone fails misrs starts) s = .next (recordGroup s r fails misrs) := by
  simp [exec, execBistGroupDone, hrun, hnext]

theorem bistGroupDone_ends (hnext : 8 ≤ r.next) (hshut : r.atStart = false) :
    exec (.bistGroupDone fails misrs starts) s = .next (orderlyEnd (bistHeader (recordParts s fails misrs) 1)) := by
  simp [exec, execBistGroupDone, hrun, hshut, Nat.not_lt.mpr hnext]

end

/-! ### The partitions (R523) -/

/-- The record of a partition. -/
def partResult (s : State) (fails : List (Nat × Nat)) (misrs : List (Nat × W64)) (p : Nat) : Nat × Nat :=
  if partTested s p then (bistResult fails p, (bistMisr misrs p (p + 1)).toNat) else (0, 0)

theorem recordParts_parts (s : State) (fails : List (Nat × Nat)) (misrs : List (Nat × W64)) {p : Nat} (hp : p < 16) :
    AMap.get (0, 0) (recordParts s fails misrs).kt.bist.parts p = partResult s fails misrs p := by
  have hstep : (fun (m : AMap (Nat × Nat)) p => if partTested s p then AMap.put (0, 0) m p (bistResult fails p, (bistMisr misrs p (p + 1)).toNat)
      else AMap.put (0, 0) m p (0, 0)) = fun m p => AMap.put (0, 0) m p (partResult s fails misrs p) := by
    funext m p
    unfold partResult
    split
    · rfl
    · rfl
  have hparts : (recordParts s fails misrs).kt.bist.parts
      = (List.range 16).foldl (fun m p => AMap.put (0, 0) m p (partResult s fails misrs p)) [] := by
    rw [← hstep]
    unfold recordParts
    generalize List.range 16 = l
    rfl
  rw [hparts, AMap.get_foldl_put, if_pos (List.mem_range.mpr hp)]

/-! ### The end of a shutdown's run (R518, R519) -/

theorem interruptBist_none {s : State} (h : s.kt.run = none) : interruptBist s = s := by simp [interruptBist, h]

/-- Rails that stop with no self-test under way keep the results of the last one, and the module's marks. -/
theorem toKettleOnly_marks {s : State} (h : s.kt.run = none) : (toKettleOnly s).kt.bist = s.kt.bist ∧ (toKettleOnly s).kt.run = none
    ∧ (toKettleOnly s).kt.cleared = false := by
  simp [toKettleOnly, interruptBist_none h, coldIndexes, loseT2, endSessions, stopWork, foldClock]

/-- The module at the end of the run, its shadow written, before the rails stop. -/
def runEnded (s : State) : State := shadowHours { s with kt := { s.kt with run := none, cleared := false } }

theorem orderlyEnd_eq (s : State) : orderlyEnd s
    = { toKettleOnly (runEnded s) with kt := { (toKettleOnly (runEnded s)).kt with lastShut := 1, running := false } } := rfl

theorem orderlyEnd_kt (s : State) : (orderlyEnd s).kt.life = .kettleOnly ∧ (orderlyEnd s).kt.lastShut = 1 ∧ (orderlyEnd s).kt.running = false
    ∧ (orderlyEnd s).kt.run = none ∧ (orderlyEnd s).kt.cleared = false ∧ (orderlyEnd s).kt.bist = s.kt.bist := by
  obtain ⟨hbist, hrun, hcleared⟩ := toKettleOnly_marks (s := runEnded s) rfl
  exact ⟨rfl, rfl, rfl, hrun, hcleared, hbist⟩

theorem recordGroup_rest (s : State) (r : BistRun) (fails : List (Nat × Nat)) (misrs : List (Nat × W64)) :
    (recordGroup s r fails misrs).kt.run = some { r with next := r.next + 1 }
      ∧ (recordGroup s r fails misrs).kt.bist.parts = s.kt.bist.parts ∧ (recordGroup s r fails misrs).media = s.media
      ∧ (recordGroup s r fails misrs).reqs = s.reqs := by
  unfold recordGroup
  generalize sitesOfGroup r.next = l
  exact ⟨rfl, rfl, rfl, rfl⟩

theorem selfTest_recordsItsGroups : selfTestRecordsItsGroups := by
  intro s r fails misrs starts hrun
  obtain ⟨hgroup, hrest⟩ := recordGroup_rest s r fails misrs
  refine ⟨fun hnext => ⟨_, bistGroupDone_records fails misrs starts hrun hnext, hgroup, recordGroup_sites s r fails misrs, hrest⟩,
    fun hnext hshut => ⟨_, bistGroupDone_ends fails misrs starts hrun hnext hshut, ?_⟩⟩
  obtain ⟨hlife, hlast, hrunning, hnone, hcleared, hbist⟩ := orderlyEnd_kt (bistHeader (recordParts s fails misrs) 1)
  rw [hbist]
  exact ⟨hlife, hlast, hrunning, hnone, hcleared, rfl, rfl, fun p hp => recordParts_parts s fails misrs hp⟩

/-! ### The online test (R505, R528, R529) -/

theorem onlineTestStart_eq {s : State} {p : Nat} (hlife : s.kt.life = .running) (hclear : clearingNow s = false) (htest : s.bi.testing = none)
    (hnext : nextTest s = some p) : exec .onlineTestStart s = .next (if 10 * s.power.sust < 10 * powerHeld s + 71 then s
      else setCore { s with bi := { s.bi with
        testing := some p, tsite := p, wanted := s.bi.wanted.filter (· != p), queue := s.bi.queue.filter (· != p) } } (512 + p)
          { coreOff with power := .issuing }) := by
  simp [exec, execOnlineTestStart, hlife, hclear, htest, hnext]

theorem onlineTest_starts {s : State} {p : Nat} (hlife : s.kt.life = .running) (hclear : clearingNow s = false) (htest : s.bi.testing = none)
    (hnext : nextTest s = some p) :
    (10 * powerHeld s + 71 ≤ 10 * s.power.sust →
      ∃ t, exec .onlineTestStart s = .next t ∧ t.bi.testing = some p ∧ p ∉ t.bi.wanted ∧ p ∉ t.bi.queue
        ∧ (coreOf t (512 + p)).power = .issuing ∧ (∀ n, n ≠ 512 + p → coreOf t n = coreOf s n)
        ∧ t.chip = { s.chip with cores := t.chip.cores } ∧ t.reqs = s.reqs)
    ∧ (10 * s.power.sust < 10 * powerHeld s + 71 → exec .onlineTestStart s = .next s) := by
  have hexec := onlineTestStart_eq hlife hclear htest hnext
  refine ⟨fun hfits => ?_, fun hlow => ?_⟩
  · rw [if_neg (Nat.not_lt.mpr hfits)] at hexec
    refine ⟨_, hexec, rfl, ?_, ?_, ?_, fun n hn => coreOf_setCore_other _ _ _ _ hn, rfl, rfl⟩
    · simp
    · simp
    · rw [coreOf_setCore_same]
  · rw [if_pos hlow] at hexec
    exact hexec

/-- The state behind an online test's result, before a pass asks for its boundary. -/
def testRecorded (s : State) (p code : Nat) (ok : Bool) (misr : W32) : State :=
  let ring := s.kt.bist.ring ++ [(p, code, opSeconds s)]
  let n := if ok then 0 else AMap.get 0 s.bi.fails p + 1
  { setCore s (512 + p) coreOff with
    kt := { s.kt with bist := { s.kt.bist with
      ring := ring.drop (ring.length - 228), sites := AMap.put (0, 0, 0) s.kt.bist.sites p (code, 2, misr.toNat) } }
    bi := { s.bi with
      testing := none, done := true, pass := ok, fails := AMap.put 0 s.bi.fails p n
      queue := if !ok && decide (n < 2) then s.bi.queue ++ [p] else s.bi.queue } }

section
variable {s : State} {p : Nat} (misr : W32) (htest : s.bi.testing = some p)
include htest

theorem onlineTestDone_passes : exec (.onlineTestDone true false misr) s = .next (addChange (testRecorded s p 1 true misr) (.unfence p)) := by
  simp only [exec, execOnlineTestDone, htest]
  rfl

theorem onlineTestDone_fails : exec (.onlineTestDone false false misr) s = .next (testRecorded s p 2 false misr) := by
  simp only [exec, execOnlineTestDone, htest]
  rfl

theorem onlineTestDone_failsMemory : exec (.onlineTestDone false true misr) s = .next (testRecorded s p 3 false misr) := by
  simp only [exec, execOnlineTestDone, htest]
  rfl

end

theorem testRecorded_site (s : State) (p code : Nat) (ok : Bool) (misr : W32) :
    AMap.get (0, 0, 0) (testRecorded s p code ok misr).kt.bist.sites p = (code, 2, misr.toNat) := AMap.get_put_same ..

theorem testRecorded_fails (s : State) (p code : Nat) (ok : Bool) (misr : W32) :
    AMap.get 0 (testRecorded s p code ok misr).bi.fails p = if ok then 0 else AMap.get 0 s.bi.fails p + 1 := AMap.get_put_same ..

theorem testRecorded_queue (s : State) (p code : Nat) (misr : W32) : (testRecorded s p code false misr).bi.queue
    = if AMap.get 0 s.bi.fails p + 1 < 2 then s.bi.queue ++ [p] else s.bi.queue := by
  simp [testRecorded]

theorem testRecorded_gated (s : State) (p code : Nat) (ok : Bool) (misr : W32) :
    (coreOf (testRecorded s p code ok misr) (512 + p)).power = .powerGated :=
  congrArg Core.power (coreOf_setCore_same s (512 + p) coreOff)

theorem onlineTests_unfenceOrFail : onlineTestsUnfenceOrFail := by
  refine ⟨fun s p hlife hclear htest hnext => onlineTest_starts hlife hclear htest hnext, fun s p misr htest => ⟨?_, ?_, ?_⟩⟩
  · exact ⟨_, onlineTestDone_passes misr htest, rfl, rfl, rfl, testRecorded_fails s p 1 true misr, rfl, testRecorded_site s p 1 true misr,
      testRecorded_gated s p 1 true misr, fun n hn => coreOf_setCore_other s (512 + p) n coreOff hn, rfl⟩
  · exact ⟨_, onlineTestDone_fails misr htest, rfl, rfl, testRecorded_fails s p 2 false misr, rfl, testRecorded_queue s p 2 misr,
      testRecorded_site s p 2 false misr⟩
  · exact ⟨_, onlineTestDone_failsMemory misr htest, testRecorded_site s p 3 false misr⟩

/-- Settles O52. -/
theorem selfTests : Obligations.SelfTests := by
  unfold Obligations.SelfTests
  exact ⟨selfTest_recordsItsGroups, onlineTests_unfenceOrFail⟩

end Sys2Proof.Machine
end

section
/-!
PROOF. The replays of a Clearing (R501, R503 to R505): O53.
-/
namespace Sys2Proof.Machine

/-! ### Suspects whose fault reserve is drawn on (R503, R504) -/

theorem lasting_setJob (s : State) (q : Req) (j : Job) : lastingOf (setJob s q j) = lastingOf s := rfl

theorem lasting_spendReserve (s : State) (r : ReqId) (lost : Nat) : lastingOf (spendReserve s r lost) = lastingOf s := by
  unfold spendReserve
  split
  · rfl
  · split
    · dsimp only
      split
      · exact lasting_endRequest s _ _ _ _
      · exact lasting_setJob s _ _
    · rfl

/-- The requests of `t` are requests of `s`, by their names. -/
def reqsWithin (s t : State) : Prop := ∀ q ∈ t.reqs, ∃ p ∈ s.reqs, p.id = q.id

theorem reqsWithin_of_eq {s t : State} (h : t.reqs = s.reqs) : reqsWithin s t := fun q hq => ⟨q, h ▸ hq, rfl⟩

theorem reqsWithin_trans {s t u : State} (h : reqsWithin s t) (h' : reqsWithin t u) : reqsWithin s u := by
  intro q hq
  obtain ⟨p, hp, hpq⟩ := h' q hq
  obtain ⟨o, ho, hop⟩ := h p hp
  exact ⟨o, ho, hop.trans hpq⟩

theorem reqsWithin_setJob (s : State) (q : Req) (j : Job) : reqsWithin s (setJob s q j) := by
  intro x hx
  obtain ⟨y, hy, rfl⟩ := List.mem_map.mp (show x ∈ s.reqs.map (fun x => if x.id == q.id then { q with job := j } else x) from hx)
  refine ⟨y, hy, ?_⟩
  split
  next h => exact beq_iff_eq.mp h
  · rfl

theorem reqsWithin_fault (s : State) (q : Req) (detail : Nat) : reqsWithin s (endRequest s q stFault detail 0) := by
  intro x hx
  rw [endRequest_reqs s q _ _ (.inl ⟨by decide, by decide⟩)] at hx
  exact ⟨x, (List.mem_filter.mp hx).1, rfl⟩

theorem reqsWithin_spendReserve (s : State) (r : ReqId) (lost : Nat) : reqsWithin s (spendReserve s r lost) := by
  unfold spendReserve
  split
  · exact reqsWithin_of_eq rfl
  · split
    · dsimp only
      split
      · exact reqsWithin_fault s _ _
      · exact reqsWithin_setJob s _ _
    · exact reqsWithin_of_eq rfl

theorem reqsWithin_foldl {α : Type} (f : State → α → State) (h : ∀ s a, reqsWithin s (f s a)) (l : List α) (s : State) : reqsWithin s (l.foldl f s) := by
  induction l generalizing s with
  | nil => exact reqsWithin_of_eq rfl
  | cons a l ih => exact reqsWithin_trans (h s a) (ih (f s a))

/-! ### The next Clearing takes its site (R503) -/

/-- A waiting Clearing that takes a site starts its replay; what is no core and no Clearing stays. -/
theorem assignQuarantine_keeps {β : Type} (g : State → β) (h : ∀ (s : State) k c, g { s with chip := { s.chip with cores := k, clearings := c } } = g s)
    (s : State) : g (assignQuarantine s) = g s := by
  unfold assignQuarantine
  split
  · rfl
  · split
    · exact h s _ _
    · rfl

theorem assignQuarantine_clearings {s : State} {n : Nat} (h : ∀ x ∈ s.chip.clearings, x.unit.unitId ≠ n) :
    ∀ x ∈ (assignQuarantine s).chip.clearings, x.unit.unitId ≠ n := by
  unfold assignQuarantine
  split
  · exact h
  · split
    next cl q l hfind _ =>
      intro x hx
      obtain ⟨y, hy, rfl⟩ := List.mem_map.mp (show x ∈ s.chip.clearings.map (fun c =>
        if c.unit.unitId == cl.unit.unitId then { cl with quarantine := some q } else c) from hx)
      split
      · exact h cl (List.mem_of_find?_eq_some hfind)
      · exact h y hy
    · exact h

/-! ### The end of a Clearing (R501, R505) -/

/-- The reserves of the suspects are drawn on, once the replay's core is off. -/
def reservesSpent (s : State) (cl : Clearing) : State :=
  (suspectsOf cl.unit).foldl (fun t r => spendReserve t r (t.time - cl.since)) (setCore s (replayCore cl) coreOff)

/-- The units once this one has ended. -/
def unitsAfter (l : List UnitState) (d : UnitDesc) : List UnitState :=
  (l.filter (fun u => u.desc.unitId != d.unitId)).map (fun u => if d.succs.contains u.desc.unitId then { u with left := u.left - 1 } else u)

theorem lasting_reservesSpent (s : State) (cl : Clearing) : lastingOf (reservesSpent s cl) = lastingOf s :=
  (lasting_foldl _ (fun s r => lasting_spendReserve s r _) _ _).trans rfl

theorem reqsWithin_reservesSpent (s : State) (cl : Clearing) : reqsWithin s (reservesSpent s cl) :=
  reqsWithin_foldl _ (fun s r => reqsWithin_spendReserve s r _) _ (setCore s (replayCore cl) coreOff)

/-- The Clearing is gone and its site queued. -/
def clearingGone (s : State) (cl : Clearing) : State :=
  { reservesSpent s cl with
    chip := { (reservesSpent s cl).chip with
      clearings := (reservesSpent s cl).chip.clearings.filter (fun x => x.unit.unitId != cl.unit.unitId) }
    bi := { (reservesSpent s cl).bi with
      queue := if cl.sameAll then cl.site :: (reservesSpent s cl).bi.queue.filter (· != cl.site)
        else (reservesSpent s cl).bi.queue.filter (· != cl.site) ++ [cl.site] } }

theorem endClearing_eq (s : State) (cl : Clearing) (res : UnitResult) :
    endClearing s cl res = assignQuarantine (unitEnded (clearingGone s cl) cl.unit res) := rfl

theorem unitEnded_none (s : State) (d : UnitDesc) : unitEnded s d .none
    = freeGroups (releaseSuccs { s with chip := { s.chip with units := s.chip.units.filter (fun u => u.desc.unitId != d.unitId) } } d.succs) := rfl

/-- What the end of a Clearing without results leaves. -/
theorem endClearing_none (s : State) (cl : Clearing) :
    (∀ x ∈ (endClearing s cl .none).chip.clearings, x.unit.unitId ≠ cl.unit.unitId)
      ∧ (endClearing s cl .none).chip.units = unitsAfter s.chip.units cl.unit
      ∧ (endClearing s cl .none).bi.queue = (if cl.sameAll then cl.site :: s.bi.queue.filter (· != cl.site) else s.bi.queue.filter (· != cl.site) ++ [cl.site])
      ∧ (endClearing s cl .none).media.bytes = s.media.bytes ∧ reqsWithin s (endClearing s cl .none) := by
  obtain ⟨_, hbytes, _, _, hunits, _, _, hbi, _⟩ := lasting_fields (lasting_reservesSpent s cl)
  rw [endClearing_eq, unitEnded_none]
  refine ⟨assignQuarantine_clearings fun x hx => ?_, ?_, ?_, ?_, ?_⟩
  · have hmem : x ∈ (reservesSpent s cl).chip.clearings.filter (fun x => x.unit.unitId != cl.unit.unitId) := hx
    simpa using (List.mem_filter.mp hmem).2
  · rw [assignQuarantine_keeps (·.chip.units) fun _ _ _ => rfl]
    exact congrArg (fun l => unitsAfter l cl.unit) hunits
  · rw [assignQuarantine_keeps (·.bi.queue) fun _ _ _ => rfl, ← hbi]
    rfl
  · rw [assignQuarantine_keeps (·.media.bytes) fun _ _ _ => rfl, ← hbytes]
    rfl
  · refine reqsWithin_trans (reqsWithin_reservesSpent s cl) (reqsWithin_of_eq ?_)
    rw [assignQuarantine_keeps (·.reqs) fun _ _ _ => rfl]
    rfl

/-! ### The outcomes of a whole replay (R501) -/

/-- The Clearing after a stop of its whole replay. -/
def stoppedClearing (cl : Clearing) (same : Bool) : Clearing := { cl with sameAll := cl.sameAll && same }

/-- The Clearing whose suspects are split in two. -/
def splitClearing (cl : Clearing) (same : Bool) : Clearing :=
  { stoppedClearing cl same with whole := false, current := lowerHalf cl.current, other := upperHalf cl.current }

section
variable {s : State} {unit : Nat} {cl : Clearing}
  (hfind : s.chip.clearings.find? (fun x => x.unit.unitId == unit && x.quarantine.isSome) = some cl)
include hfind

theorem clearing_unit : cl.unit.unitId = unit := by
  have h := List.find?_some hfind
  simp only [Bool.and_eq_true, beq_iff_eq] at h
  exact h.1

variable (hwhole : cl.whole = true)
include hwhole

theorem replayComplete_completed : exec (.replayComplete unit .completed) s
    = .next (endClearing (setCore s (replayCore cl) coreOff) { cl with sameAll := false } cl.result) := by
  simp only [exec, execReplayComplete, hfind, replayOk, hwhole]
  simp

theorem replayComplete_splits {code : Nat} {same : Bool} (hlen : 2 ≤ cl.current.length) : exec (.replayComplete unit (.stopped code same)) s
    = .next (replayStart (putClearing (setCore s (replayCore cl) coreOff) (splitClearing cl same)) (splitClearing cl same)) := by
  have hmore : ¬ cl.current.length ≤ 1 := by omega
  simp only [exec, execReplayComplete, hfind, replayFail, hwhole, hmore]
  rfl

theorem replayComplete_lone {code : Nat} {same : Bool} {r : ReqId} (hone : cl.current = [r]) : exec (.replayComplete unit (.stopped code same)) s
    = .next (endClearing (failSuspects (setCore s (replayCore cl) coreOff) [r] code) (stoppedClearing cl same) .none) := by
  simp only [exec, execReplayComplete, hfind, replayFail, hwhole, hone]
  rfl

end

/-- Settles O53: each outcome of the whole replay, by what it makes of the Clearing. -/
theorem replaysFindTheSuspect : Obligations.ReplaysFindTheSuspect := by
  unfold Obligations.ReplaysFindTheSuspect
  intro s unit cl hfind hwhole
  have hunit := clearing_unit hfind
  refine ⟨fun hnone => ?_, fun code same hlen => ?_, fun code same r hone => ?_⟩
  · have hexec := replayComplete_completed hfind hwhole
    rw [hnone] at hexec
    obtain ⟨hgone, hunits, hqueue, hbytes, _⟩ := endClearing_none (setCore s (replayCore cl) coreOff) { cl with sameAll := false }
    refine ⟨_, hexec, ?_, ?_, hqueue, hbytes⟩
    · rwa [hunit] at hgone
    · rw [unitsAfter, hunit] at hunits
      exact hunits
  · refine ⟨_, runOf { cl.unit with members := if cl.unit.members.isEmpty then [] else lowerHalf cl.current }
      (programOf (putClearing (setCore s (replayCore cl) coreOff) (splitClearing cl same)) cl.unit) true,
      replayComplete_splits hfind hwhole hlen, ?_, ?_, rfl, rfl, rfl, fun n hn => ?_, rfl⟩
    · have hmap : (replayStart (putClearing (setCore s (replayCore cl) coreOff) (splitClearing cl same)) (splitClearing cl same)).chip.clearings
          = s.chip.clearings.map (fun x => if x.unit.unitId == cl.unit.unitId then splitClearing cl same else x) := rfl
      rw [hmap, hunit]
      simp only [beq_iff_eq]
      rfl
    · exact congrArg Core.run (coreOf_setCore_same _ (replayCore cl) _)
    · exact (coreOf_setCore_other _ (replayCore cl) n _ hn).trans (coreOf_setCore_other s (replayCore cl) n coreOff hn)
  · obtain ⟨hlasting, hreqs⟩ := failSuspects_one (setCore s (replayCore cl) coreOff) r code
    obtain ⟨_, hbytes, _⟩ := lasting_fields hlasting
    obtain ⟨hgone, _, _, hbytes', hwithin⟩ := endClearing_none (failSuspects (setCore s (replayCore cl) coreOff) [r] code) (stoppedClearing cl same)
    refine ⟨_, replayComplete_lone hfind hwhole hone, fun q hq => ?_, ?_, hbytes'.trans hbytes⟩
    · obtain ⟨p, hp, hpq⟩ := hwithin q hq
      rw [hreqs] at hp
      rw [← hpq]
      simpa using (List.mem_filter.mp hp).2
    · exact hunit ▸ hgone

end Sys2Proof.Machine
end

section
/-!
PROOF. The drain of a shutdown, its end, and what follows the clearing of the secrets (R514 to R519): O51.
-/
namespace Sys2Proof.Machine

/-! ### SHDN_REQ_N (R514, R515) -/

section
variable {s : State} (hal : alive s = true) (hlimit : pinLimit s ≠ 0)
include hal

theorem alive_notStarting : s.kt.life ≠ .starting := by
  intro h
  simp [alive, h] at hal

include hlimit

theorem shdnReq_starts (hnone : s.kt.shut = none) :
    exec .shdnReqNHeld s = .next { s with kt := { s.kt with shut := some ⟨none, false, pinLimit s, false⟩ } } := by
  simp [exec, execShdnReqNHeld, alive_notStarting hal, hal, hnone, beginShutdown, hlimit]

theorem shdnReq_bringsForward {x : Shut} (hshut : s.kt.shut = some x) :
    exec .shdnReqNHeld s = .next { s with kt := { s.kt with shut := some { x with limit := min x.limit (pinLimit s) } } } := by
  simp [exec, execShdnReqNHeld, alive_notStarting hal, hal, hshut, hlimit]

end

/-! ### The end of the drain (R515, R516) -/

/-- The module whose requests have been ended, the shutdown's own last. -/
def drained (s : State) (r : Option ReqId) : State :=
  let t := (s.reqs.filter (fun q => some q.id != r)).foldl (endOne stCancelled 0) s
  match r with
  | some r => completeId t r (endWith stOk)
  | none => t

theorem lasting_drained (s : State) (r : Option ReqId) : lastingOf (drained s r) = lastingOf s := by
  have hfold := lasting_foldl _ (lasting_endOne stCancelled 0) (s.reqs.filter (fun q => some q.id != r)) s
  unfold drained
  cases r with
  | none => exact hfold
  | some r => exact (lasting_completeId _ r _).trans hfold

theorem drained_reqs {s : State} (hin : s.sched.inside = false) (r : Option ReqId) : (drained s r).reqs = [] := by
  have hleft : ∀ y ∈ ((s.reqs.filter (fun q => some q.id != r)).foldl (endOne stCancelled 0) s).reqs, some y.id = r := by
    intro y hy
    obtain ⟨hmem, hne⟩ := mem_ended (.inr hin) hy
    by_contra hyr
    exact hne y (List.mem_filter.mpr ⟨hmem, by simpa using hyr⟩) rfl
  unfold drained
  cases r with
  | none => exact List.eq_nil_iff_forall_not_mem.mpr fun y hy => absurd (hleft y hy) (by simp)
  | some r =>
    refine List.eq_nil_iff_forall_not_mem.mpr fun y hy => ?_
    dsimp only [completeId] at hy
    split at hy
    next q hq =>
      rw [completeReq_reqs] at hy
      obtain ⟨hmem, hne⟩ := List.mem_filter.mp hy
      rw [reqOf_id _ r q hq] at hne
      exact absurd (Option.some.inj (hleft y hmem)) (by simpa using hne)
    next hnone => exact ne_of_reqOf_none hnone y hy (Option.some.inj (hleft y hy))

/-- The drained module whose online test is given up and whose sessions are closed. -/
def sessionsClosed (s : State) : State := s.prot.sessions.foldl (fun s y => closeSession s y none) (abandonTest s)

/-- Sessions that close move keys and the records of sessions only. -/
theorem closeSession_keeps {β : Type} (g : State → β) (hk : ∀ s n, g (dropKey s n) = g s)
    (hp : ∀ (s : State) a b c, g { s with prot := { s.prot with sessions := a, closed := b, leaving := c } } = g s) (s : State) (x : Session)
    (r : Option Nat) : g (closeSession s x r) = g s := by
  unfold closeSession
  dsimp only
  split
  · exact hp s _ _ _
  · exact (hp (dropKey s x.key) _ _ (dropKey s x.key).prot.leaving).trans (hk s _)

theorem sessionsClosed_keeps {β : Type} (g : State → β) (hk : ∀ s n, g (dropKey s n) = g s)
    (hp : ∀ (s : State) a b c, g { s with prot := { s.prot with sessions := a, closed := b, leaving := c } } = g s)
    (ht : ∀ s, g (abandonTest s) = g s) (s : State) : g (sessionsClosed s) = g s :=
  (foldl_keeps (fun s y => closeSession s y none) g (fun s y => closeSession_keeps g hk hp s y none) _ _).trans (ht s)

theorem abandonTest_keeps {β : Type} (g : State → β) (h : ∀ (s : State) r b, g { s with
    kt := { s.kt with bist := { s.kt.bist with ring := r } }, bi := b } = g s) (s : State) : g (abandonTest s) = g s := by
  unfold abandonTest
  split
  · exact h s _ _
  · rfl

theorem sessionsClosed_parts (s : State) : (sessionsClosed s).reqs = s.reqs ∧ (sessionsClosed s).media.bytes = s.media.bytes
    ∧ (sessionsClosed s).prot.store = s.prot.store ∧ (sessionsClosed s).kt.ready = s.kt.ready
    ∧ (sessionsClosed s).kt.vaultCounter = s.kt.vaultCounter := by
  have hkeeps : ∀ {β : Type} (g : State → β), (∀ s n, g (dropKey s n) = g s) →
      (∀ (s : State) a b c, g { s with prot := { s.prot with sessions := a, closed := b, leaving := c } } = g s) →
      (∀ (s : State) r b, g { s with kt := { s.kt with bist := { s.kt.bist with ring := r } }, bi := b } = g s) →
      g (sessionsClosed s) = g s := fun g hk hp ht => sessionsClosed_keeps g hk hp (abandonTest_keeps g ht) s
  exact ⟨hkeeps State.reqs (fun _ _ => rfl) (fun _ _ _ _ => rfl) fun _ _ _ => rfl,
    hkeeps (·.media.bytes) (fun _ _ => rfl) (fun _ _ _ _ => rfl) fun _ _ _ => rfl,
    hkeeps (·.prot.store) (fun _ _ => rfl) (fun _ _ _ _ => rfl) fun _ _ _ => rfl,
    hkeeps (·.kt.ready) (fun _ _ => rfl) (fun _ _ _ _ => rfl) fun _ _ _ => rfl,
    hkeeps (·.kt.vaultCounter) (fun _ _ => rfl) (fun _ _ _ _ => rfl) fun _ _ _ => rfl⟩

/-- The module with nothing left to drain, whose readiness has fallen. -/
def quietened (s : State) (r : Option ReqId) : State := dropReady (sessionsClosed (drained s r)) (1#64 <<< bKettle ||| 1#64 <<< bHostlink)

/-- What the cleared stores held is gone, and the secrets are being cleared. -/
def secretsClearing (s : State) (x : Shut) : State :=
  let s := loseT2 (endSessions (stopWork s))
  { s with
    keys := { s.keys with
      t2Key := 0
      handles := s.keys.handles.filter (fun p => match p.2 with | some v => v.purpose == .passage || v.purpose == .atRest | none => false) }
    changes := []
    under := { s.under with scans := [] }
    kt := { s.kt with shut := some { x with clearing := true }, complete := true } }

theorem drainEnd_eq {s : State} {x : Shut} (hshut : s.kt.shut = some x) (hclear : x.clearing = false) :
    drainEnd s = secretsClearing (quietened s x.req) x := by
  simp only [drainEnd, hshut, hclear]
  rfl

theorem quietened_parts {s : State} (hin : s.sched.inside = false) (r : Option ReqId) : (quietened s r).reqs = []
    ∧ (quietened s r).media.bytes = s.media.bytes ∧ (quietened s r).prot.store = s.prot.store
    ∧ (quietened s r).kt.vaultCounter = s.kt.vaultCounter
    ∧ (quietened s r).kt.ready = s.kt.ready &&& (1#64 <<< bKettle ||| 1#64 <<< bHostlink) := by
  obtain ⟨hkt, hbytes, hstore, _⟩ := lasting_fields (lasting_drained s r)
  obtain ⟨hreqs', hbytes', hstore', hready', hvault'⟩ := sessionsClosed_parts (drained s r)
  rw [quietened, dropReady_kt, hready', hvault', hkt]
  refine ⟨?_, ?_, ?_, rfl, rfl⟩
  · rw [dropReady, setReadyWord_reqs, hreqs', drained_reqs hin]
  · rw [dropReady, setReadyWord_media, hbytes', hbytes]
  · rw [dropReady, setReadyWord_prot, hstore', hstore]

theorem bitOf_kettleAndHostlink (b : Nat) (h : b < 64) : bitOf (1#64 <<< bKettle ||| 1#64 <<< bHostlink) b = (b == 0 || b == 3) := by
  interval_cases b <;> rfl

theorem shutdownDrainEnd_leaves {s : State} {x : Shut} (hshut : s.kt.shut = some x) (hclear : x.clearing = false) (hin : s.sched.inside = false) :
    ∃ t, exec .shutdownDrainEnd s = .next t ∧ t.reqs = [] ∧ t.prot.sessions = [] ∧ t.changes = [] ∧ t.keys.t2Key = 0
      ∧ t.kt.shut = some { x with clearing := true } ∧ t.kt.complete = true ∧ t.media.bytes = s.media.bytes.filter (fun c => decide (2 ^ 46 ≤ c.1))
      ∧ (∀ b, b < 64 → readyBit t b = (readyBit s b && (b == 0 || b == 3))) ∧ t.prot.store = s.prot.store
      ∧ t.kt.vaultCounter = s.kt.vaultCounter := by
  obtain ⟨hreqs, hbytes, hstore, hvault, hready⟩ := quietened_parts hin x.req
  refine ⟨_, congrArg Host.Outcome.next (drainEnd_eq hshut hclear), hreqs, rfl, rfl, rfl, rfl, rfl, ?_, fun b hb => ?_, hstore, hvault⟩
  · rw [← hbytes]
    rfl
  · rw [← bitOf_kettleAndHostlink b hb]
    change bitOf (quietened s x.req).kt.ready b = _
    rw [hready]
    exact BitVec.getLsbD_and

/-! ### What the clearing finds (R517 to R519) -/

theorem bitOf_kettleOnly (b : Nat) (h : b < 64) : bitOf kettleOnlyBits b = (b == 0) := by
  interval_cases b <;> rfl

section
variable {s : State} (hclear : clearingNow s = true) (hrun : s.kt.run = none)
include hclear hrun

theorem zeroizationDone_clean : ∃ t, exec (.zeroizationDone true) s = .next t ∧ t.kt.cleared = true ∧ t.kt.run = some ⟨false, 0⟩
    ∧ (∀ b, b < 64 → readyBit t b = (readyBit s b && b == 0)) ∧ t.kt.shut = s.kt.shut := by
  have hexec : exec (.zeroizationDone true) s = .next (beginBist s false) := by simp [exec, execZeroizationDone, hclear, hrun]
  refine ⟨_, hexec, rfl, rfl, fun b hb => ?_, ?_⟩
  · rw [← bitOf_kettleOnly b hb]
    exact readyBit_dropReady s kettleOnlyBits b
  · change (dropReady s kettleOnlyBits).kt.shut = _
    rw [dropReady_kt]

theorem zeroizationDone_dirty :
    ∃ t, exec (.zeroizationDone false) s = .next t ∧ t.kt.life = .kettleOnly ∧ t.kt.cleared = false ∧ t.kt.bist.clearFail = true := by
  have hexec : exec (.zeroizationDone false) s = .next (clearFail s) := by simp [exec, execZeroizationDone, hclear, hrun]
  obtain ⟨hbist, _, hcleared⟩ := toKettleOnly_marks (s := { s with kt := { s.kt with
    cleared := false
    bist := { s.kt.bist with kind := 0, startNo := s.kt.journal.startNo, duration := 0, clearFail := true, shared := false, sites := [], parts := [] } } })
    hrun
  exact ⟨_, hexec, rfl, hcleared, congrArg BistRes.clearFail hbist⟩

end

/-- Settles O51. -/
theorem shutdownDrainsAndClears : Obligations.ShutdownDrainsAndClears := by
  unfold Obligations.ShutdownDrainsAndClears
  exact fun s => ⟨fun hal hlimit => ⟨shdnReq_starts hal hlimit, fun x hshut => shdnReq_bringsForward hal hlimit hshut⟩,
    fun x hshut hclear hin => shutdownDrainEnd_leaves hshut hclear hin,
    fun hclear hrun => ⟨zeroizationDone_clean hclear hrun, zeroizationDone_dirty hclear hrun⟩⟩

end Sys2Proof.Machine
end

section
/-!
PROOF. What the steps of a start leave alone (R492 to R499) when its report finds nothing: the cause, power-good, the recovery summary,
PERST_N, the requests and the sessions. One lemma per operation that a step uses, in the order of the model.
-/
namespace Sys2Proof.Machine

/-- What the steps of a start leave alone. -/
structure Carried where
  cause    : Nat
  good     : Bool
  summary  : Option Summary
  perst    : Bool
  reqs     : List Req
  sessions : List Session

def carriedOf (s : State) : Carried := ⟨s.kt.cause, s.kt.good, s.kt.summary, s.pins.perst, s.reqs, s.prot.sessions⟩

/-- What is carried in a state written out by its fields. -/
theorem carried_mk (chip : Chip) (media : Media) (log : Log) (tabs : Tables) (glades : Glades) (regs : AMap (Option RegSet))
    (holds : List Ticket) (keys : Keys) (prot : Prot) (caddy : Caddy) (side : Sideband) (images : Images) (idx : Indexes) (reqs : List Req)
    (changes : List Change) (sched : Sched) (kt : Kettle) (power : Power) (grove : Grove) (pins : Pins) (rc : ResetCtl) (bi : SelfTest)
    (tap : Tap) (under : Under) (host : List HostOut) (flash : Bool) (serial : W128) (time freeCount : Nat) (pending : List Instr) :
    carriedOf ⟨chip, media, log, tabs, glades, regs, holds, keys, prot, caddy, side, images, idx, reqs, changes, sched, kt, power, grove, pins,
      rc, bi, tap, under, host, flash, serial, time, freeCount, pending⟩ = ⟨kt.cause, kt.good, kt.summary, pins.perst, reqs, prot.sessions⟩ := rfl

/-- An update that leaves the carried fields alone. -/
theorem carried_eta (s : State) :
    (⟨s.kt.cause, s.kt.good, s.kt.summary, s.pins.perst, s.reqs, s.prot.sessions⟩ : Carried) = carriedOf s := rfl

theorem carried_fields {s t : State} (h : carriedOf t = carriedOf s) : t.kt.cause = s.kt.cause ∧ t.kt.good = s.kt.good ∧ t.kt.summary = s.kt.summary
    ∧ t.pins.perst = s.pins.perst ∧ t.reqs = s.reqs ∧ t.prot.sessions = s.prot.sessions :=
  ⟨congrArg Carried.cause h, congrArg Carried.good h, congrArg Carried.summary h, congrArg Carried.perst h,
    congrArg Carried.reqs h, congrArg Carried.sessions h⟩

@[simp] theorem carried_foldl {α : Type} (f : State → α → State) (l : List α) (s : State) (h : ∀ s a, carriedOf (f s a) = carriedOf s) :
    carriedOf (l.foldl f s) = carriedOf s := foldl_keeps f carriedOf h l s

/-! ### Records, decisions and readiness -/

section
variable (s : State)

theorem carried_logAdd (r : LogRec) : carriedOf (logAdd s r) = carriedOf s := rfl

theorem carried_bootRecord (step outcome comp alt : Nat) : carriedOf (bootRecord s step outcome comp alt) = carriedOf s := by
  simp only [bootRecord, logAdd, carriedOf]

theorem carried_setFails (n : Nat) : carriedOf (setFails s n) = carriedOf s := rfl

theorem carried_addDecision (kind value comp : Nat) : carriedOf (addDecision s kind value comp) = carriedOf s := rfl

theorem carried_dropPassed (kind : Nat) (keep : List Nat) : carriedOf (dropPassed s kind keep) = carriedOf s := by
  unfold dropPassed
  split <;> rfl

theorem carried_raiseVec (f v : Nat) : carriedOf (raiseVec s f v) = carriedOf s := by
  unfold raiseVec
  split <;> rfl

theorem carried_raiseEvent (f : Nat) : carriedOf (raiseEvent s f) = carriedOf s := by
  unfold raiseEvent
  split
  · exact carried_raiseVec s f 0
  · rfl

theorem carried_setReadyWord (w : W64) : carriedOf (setReadyWord s w) = carriedOf s := by
  unfold setReadyWord
  split
  · rfl
  · refine (carried_foldl _ _ _ fun s f => ?_).trans rfl
    exact (carried_raiseEvent _ f).trans rfl

@[simp] theorem carried_setReady (i : Nat) (v : Bool) : carriedOf (setReady s i v) = carriedOf s := carried_setReadyWord s _

theorem carried_setGroveState (n : Nat) : carriedOf (setGroveState s n) = carriedOf s := by
  unfold setGroveState
  split <;> rfl

theorem carried_setPortState (p n : Nat) : carriedOf (setPortState s p n) = carriedOf s := by
  unfold setPortState
  split
  · rfl
  · exact carried_setReady _ _ _

/-! ### The link, the keys and the store -/

theorem carried_flushVecs : carriedOf (flushVecs s) = carriedOf s := flushVecs_keeps carriedOf (fun _ _ _ _ => rfl) carried_raiseVec s

theorem carried_flushHeld : carriedOf (flushHeld s) = carriedOf s := flushHeld_keeps carriedOf (fun _ _ _ => rfl) (fun _ _ _ => rfl) s

theorem carried_setFunc (f : Nat) (x : Func) : carriedOf (setFunc s f x) = carriedOf s := rfl

theorem carried_newT2Key : carriedOf (newT2Key s) = carriedOf s := rfl

theorem carried_loadStore (i : StoreImage) : carriedOf (loadStore s i) = carriedOf s :=
  loadStore_keeps carriedOf (fun _ _ _ => rfl) (fun _ _ => rfl) (fun _ _ _ _ _ => rfl) (fun _ _ _ => rfl) (fun s => carried_setReady s _ _) s i

theorem carried_step5 : carriedOf (step5 s) = carriedOf s := by
  unfold step5
  split
  · exact carried_loadStore s _
  · split
    · exact carried_loadStore s _
    · rfl

/-! ### Sites, rows and channels -/

theorem carried_putHome (c : Nat) (h : Option Nat) : carriedOf (putHome s c h) = carriedOf s := by
  unfold putHome
  split <;> rfl

theorem carried_moveCores : carriedOf (moveCores s) = carriedOf s :=
  (carried_foldl moveCore _ _ fun s c => carried_putHome s c _).trans rfl

theorem carried_fillAbsent (n : Nat) (s : State) : carriedOf (fillAbsent n s) = carriedOf s := by
  induction n generalizing s with
  | zero => rfl
  | succ n ih =>
    unfold fillAbsent
    split
    · split
      · split
        · exact (ih _).trans (carried_putHome _ _ _)
        · rfl
      · rfl
    · rfl

theorem carried_assignShares : carriedOf (assignShares s) = carriedOf s := by
  refine foldl_fst_keeps _ carriedOf (fun p g => ?_) _ _
  split <;> rfl

theorem carried_coverAbsent : carriedOf (coverAbsent s) = carriedOf s := by
  refine foldl_fst_keeps _ carriedOf (fun p g => ?_) _ _
  split <;> rfl

theorem carried_holdBack : carriedOf (holdBack s) = carriedOf s := rfl

theorem carried_sitesAfter : carriedOf (sitesAfter s) = carriedOf s := by
  rw [sitesAfter, carried_coverAbsent, carried_holdBack, carried_assignShares, carried_fillAbsent, carried_moveCores]

theorem carried_recost : carriedOf (recost s) = carriedOf s := rfl

theorem carried_leaveOut (c : Nat) : carriedOf (leaveOut s c) = carriedOf s := by
  unfold leaveOut
  dsimp only
  split <;> rfl

theorem carried_putHot (home : Nat) (e : Option HotRow) : carriedOf (putHot s home e) = carriedOf s := rfl

theorem carried_promote (home stride share : Nat) (pinned : Bool) : carriedOf (promote s home stride share pinned) = carriedOf s := by
  unfold promote
  split
  · rfl
  · split <;> rfl

theorem carried_demote (home : Nat) : carriedOf (demote s home) = carriedOf s := by
  unfold demote
  split <;> rfl

theorem carried_dropReplicas (e : HotRow) : carriedOf (dropReplicas s e) = carriedOf s := carried_foldl _ _ _ fun _ _ => rfl

theorem carried_purgeCleared : carriedOf (purgeCleared s) = carriedOf s := by
  unfold purgeCleared
  refine carried_foldl _ _ _ fun s p => ?_
  split
  · exact (carried_putHot _ _ _).trans (carried_dropReplicas s _)
  · rfl

theorem carried_makeRoom (stride : Nat) : carriedOf (makeRoom s stride) = carriedOf s := by
  unfold makeRoom
  split
  · split
    · rw [carried_purgeCleared, carried_demote]
    · rfl
  · rfl

theorem carried_ensurePins : carriedOf (ensurePins s) = carriedOf s := by
  unfold ensurePins
  dsimp only
  refine (carried_foldl _ _ _ fun s h => ?_).trans (carried_foldl _ _ _ fun s p => ?_)
  · split
    · rfl
    · rw [carried_promote, carried_makeRoom]
  · split <;> rfl

theorem carried_fillReplicas (home : Nat) (e : HotRow) : carriedOf (fillReplicas s home e) = carriedOf s := by
  unfold fillReplicas
  refine (carried_putHot _ _ _).trans (carried_foldl _ _ _ fun s k => ?_)
  rfl

/-! ### The steps -/

theorem carried_fenceControllers (r : StartReport) : carriedOf (fenceControllers s r) = carriedOf s := by
  refine (carried_foldl _ _ _ fun s c => ?_).trans (carried_dropPassed s _ _)
  split <;> rfl

theorem carried_fold_setReady (f : Nat → Nat) (l : List Nat) (s : State) : carriedOf (l.foldl (fun s k => setReady s (f k) true) s) = carriedOf s :=
  carried_foldl _ _ _ fun s k => carried_setReady s (f k) true

/-- The link goes up again where it was up. -/
theorem carried_linkBack (link : Bool) : carriedOf (if link then flushHeld (flushVecs (setReady s bHostlink true)) else s) = carriedOf s := by
  cases link
  · rfl
  · exact (carried_flushHeld _).trans ((carried_flushVecs _).trans (carried_setReady s _ _))

/-- The key of T2 and the store at a cold start; the store's bit again at a recovery. -/
theorem carried_storeBack (kind : StartKind) :
    carriedOf (if kind = .cold then newT2Key (step5 s) else setReady s bStore s.prot.store.isSome) = carriedOf s := by
  split
  · exact (carried_newT2Key _).trans (carried_step5 s)
  · exact carried_setReady s _ _

theorem carried_early (kind : StartKind) (link : Bool) (r : StartReport) : carriedOf (early s kind false link r) = carriedOf s := by
  unfold early
  dsimp only
  rw [carried_mk, carried_eta]
  refine (carried_foldl _ _ _ fun s n => carried_bootRecord s n _ 0 0).trans ?_
  refine (carried_linkBack _ link).trans ?_
  refine (carried_storeBack _ kind).trans ?_
  rw [carried_setFunc, carried_setReady, carried_setReady, carried_setReady]
  exact carried_fenceControllers s r

theorem carried_middle : carriedOf (middle s) = carriedOf s := by
  unfold middle
  dsimp only
  rw [carried_mk, carried_eta, carried_setReady, carried_setReady, carried_bootRecord, carried_bootRecord]

theorem carried_step10 (r : StartReport) : carriedOf (step10 s r) = carriedOf s := by
  unfold step10
  dsimp only
  rw [carried_bootRecord]
  refine (carried_fold_setReady bCg (List.range 8) _).trans ((carried_recost _).trans ?_)
  simp only [carried_mk, carried_eta, carried_sitesAfter]
  exact carried_foldl _ _ s fun s p => carried_addDecision s 1 0 p

/-- Step 11 with no channel that fails anew. -/
theorem carried_step11 (kind : StartKind) (tried : List Nat) {r : StartReport} (h : r.channels = []) :
    carriedOf (step11 s kind tried r) = carriedOf s := by
  unfold step11
  rw [h]
  dsimp only [List.filter_nil, List.foldl_nil]
  rw [carried_bootRecord, carried_setReady]
  refine (carried_fold_setReady bStack (List.range 12) _).trans ?_
  rw [carried_mk, carried_eta]
  split
  · rw [carried_dropPassed, carried_dropPassed]
  · refine (carried_foldl leaveOut _ _ carried_leaveOut).trans ?_
    rw [carried_dropPassed, carried_dropPassed]

theorem carried_applyChannelOut (c : Nat) : carriedOf (applyChannelOut s c) = carriedOf s := rfl

theorem carried_restoreDurable : carriedOf (restoreDurable s) = carriedOf s := rfl

theorem carried_step12 (r : StartReport) : carriedOf (step12 s r) = carriedOf s := by
  unfold step12
  split
  · rfl
  · dsimp only
    rw [carried_bootRecord, carried_restoreDurable, carried_setReady]
    generalize hout : List.foldl applyChannelOut _ _ = t
    have ht : carriedOf t = carriedOf s := by
      rw [← hout, carried_foldl applyChannelOut _ _ carried_applyChannelOut, carried_mk, carried_eta]
      exact (carried_foldl _ _ _ fun s c => carried_addDecision s 4 0 c).trans (carried_dropPassed s _ _)
    split
    · split
      · exact (carried_loadStore t _).trans ht
      · exact ht
    · exact ht

theorem carried_step13 (kind : StartKind) (r : StartReport) : carriedOf (step13 s kind r) = carriedOf s := by
  unfold step13
  split
  next i _ =>
    split
    · exact carried_bootRecord s _ _ _ _
    · split
      · exact carried_bootRecord _ _ _ _ _
      · dsimp only
        rw [carried_bootRecord, carried_setReady, carried_setReady, carried_mk, carried_eta]
        rw [carried_foldl (fun s (p : Nat × HotRow) => fillReplicas s p.1 p.2) _ _ fun s p => carried_fillReplicas s p.1 p.2, carried_ensurePins]
  next => exact carried_bootRecord s _ _ _ _

theorem carried_step14 (r : StartReport) : carriedOf (step14 s r) = carriedOf s := by
  unfold step14
  dsimp only
  rw [carried_bootRecord]
  generalize hports : List.foldl _ _ (List.range 8) = t
  have ht : carriedOf t = carriedOf s := by
    rw [← hports]
    refine (carried_foldl _ _ _ fun s p => ?_).trans
      ((carried_foldl _ _ _ fun s p => carried_addDecision s 5 0 p).trans (carried_dropPassed s _ _))
    split
    · exact carried_setPortState s _ _
    · rfl
  split
  · exact (carried_setGroveState _ 3).trans ht
  · exact ht

end

/-! ### The whole of a start -/

/-- A report that finds nothing a start would leave out for good. -/
def NothingFails (r : StartReport) : Prop := r.failStep = none ∧ r.channels = []

theorem cleanReport_nothingFails (s : State) : NothingFails (cleanReport s) := ⟨rfl, rfl⟩

/-- What the last steps set: the start is complete. -/
theorem late_completes (s : State) (kind : StartKind) (tried : List Nat) (r : StartReport) : (late s kind tried r).kt.life = .running
    ∧ (late s kind tried r).kt.complete = true ∧ (late s kind tried r).kt.step = 14 ∧ (late s kind tried r).kt.journal.fails = 0 :=
  ⟨rfl, rfl, rfl, rfl⟩

theorem carried_newKeyIf (s : State) (c : Prop) [Decidable c] : carriedOf (if c then newT2Key s else s) = carriedOf s := by
  split <;> rfl

/-- What is carried through the last steps, up to the requests that a recovery reports. -/
theorem carried_late (s : State) (kind : StartKind) (tried : List Nat) (r : StartReport) :
    carriedOf (late s kind tried r)
      = carriedOf (if kind = .cold then step11 (step10 s r) kind tried r else reportAll (step11 (step10 s r) kind tried r)) := by
  unfold late
  dsimp only
  rw [carried_mk, carried_eta, carried_setFails, carried_step14, carried_step13, carried_step12, carried_newKeyIf]

theorem carried_late_cold (s : State) (tried : List Nat) {r : StartReport} (h : NothingFails r) :
    carriedOf (late s .cold tried r) = carriedOf s := by
  rw [carried_late, if_pos rfl, carried_step11 _ _ _ h.2, carried_step10]

theorem actBist_of_stale {s : State} (h : s.kt.bist.fresh = false) : actBist s = s := by simp [actBist, h]

/-- With nothing failing, fewer than three failed starts and no self-test due, the attempt goes through all its steps. -/
theorem runSteps_clean {s : State} {kind : StartKind} (full link : Bool) {r : StartReport} (hr : NothingFails r) (hfails : s.kt.journal.fails < 3)
    (hbist : kind = .cold → s.kt.unorderly = false) (hctrl : startControllers s r ≠ []) :
    (runSteps s kind full link [] r).1
      = late (if kind = .cold then bootRecord (middle (early s kind false link r)) 9 2 0 0 else middle (early s kind false link r)) kind [] r := by
  have hlow : (decide (3 ≤ s.kt.journal.fails) && !full) = false := by simp [Nat.not_le.mpr hfails]
  have hnone : failsAt s kind false r = none := by
    unfold failsAt
    rw [hr.1]
    simpa using hctrl
  have hdue : (decide (kind = .cold) && s.kt.unorderly && !false) = false := by
    by_cases hk : kind = .cold
    · simp [hbist hk]
    · simp [hk]
  unfold runSteps
  dsimp only
  rw [hlow, hnone, hdue]
  rfl

/-- The controllers of a start follow from the decisions alone. -/
theorem startControllers_of_decisions {s t : State} (h : t.kt.journal.decisions = s.kt.journal.decisions) {r q : StartReport}
    (hr : r.controllers = []) (hq : q.controllers = []) (hup : controllersUp s q ≠ []) : startControllers t r ≠ [] := by
  have hsame : controllersUp t r = controllersUp s q := by simp only [controllersUp, decided, h, hr, hq]
  unfold startControllers
  split
  · rw [hr]
    decide
  · rw [hsame]
    exact hup

end Sys2Proof.Machine
end

section
/-!
PROOF. Cold starts (R487, R492, R498): the attempt begins with the Kettle's journal as it stood, and its steps complete.
-/
namespace Sys2Proof.Machine

/-! ### A cold attempt begins -/

/-- The Kettle's marks that neither the clock of a new attempt nor its clearing moves. -/
structure Marks where
  good      : Bool
  perst     : Bool
  fails     : Nat
  decisions : List Decision
  bist      : BistRes

def marksOf (s : State) : Marks := ⟨s.kt.good, s.pins.perst, s.kt.journal.fails, s.kt.journal.decisions, s.kt.bist⟩

/-- The clock of a new attempt: what ran is carried over. -/
def newClock (s : State) : State :=
  if alive s || s.kt.life == .starting then foldClock s else { s with kt := { s.kt with ticks := kettleTicks s }, time := 0 }

theorem newClock_keeps (s : State) : marksOf (newClock s) = marksOf s ∧ (newClock s).kt.unorderly = s.kt.unorderly
    ∧ (newClock s).kt.running = s.kt.running ∧ (newClock s).reqs = s.reqs ∧ (newClock s).kt.summary = s.kt.summary := by
  unfold newClock
  split <;> exact ⟨rfl, rfl, rfl, rfl, rfl⟩

/-- A cold attempt once its clock counts from 0: all but the Kettle is cleared, and step 1 is done. -/
def coldAttempt (s : State) (cause : Nat) (r : StartReport) : State :=
  let s := clearCold s
  step1 { s with
    kt := { s.kt with
      life := .starting, cause := cause, lastStart := s.kt.ticks, step := 1, powerOns := s.kt.powerOns + (if cause == 1 then 1 else 0)
      journal := { s.kt.journal with startNo := s.kt.journal.startNo + 1 } } } r

theorem enter_cold_eq (s : State) (cause : Nat) (r : StartReport) : enter s .cold cause r
    = actBist (if cause == 1 || cause == 2
        then { coldAttempt (newClock s) cause r with tap := { (coldAttempt (newClock s) cause r).tap with cut := false } }
        else coldAttempt (newClock s) cause r) := rfl

/-- What a cold attempt finds: its cause, and the Kettle's marks as they stood. -/
theorem enter_cold {s : State} (hfresh : s.kt.bist.fresh = false) (cause : Nat) (r : StartReport) :
    marksOf (enter s .cold cause r) = marksOf s ∧ (enter s .cold cause r).kt.cause = cause
      ∧ (enter s .cold cause r).kt.unorderly = (s.kt.unorderly || s.kt.running) := by
  obtain ⟨hmarks, hun, hrun, -, -⟩ := newClock_keeps s
  have hattempt : marksOf (coldAttempt (newClock s) cause r) = marksOf s ∧ (coldAttempt (newClock s) cause r).kt.cause = cause
      ∧ (coldAttempt (newClock s) cause r).kt.unorderly = (s.kt.unorderly || s.kt.running) :=
    ⟨hmarks, rfl, by rw [← hun, ← hrun]; rfl⟩
  have hstale : ∀ t, marksOf t = marksOf s → actBist t = t := fun t ht =>
    actBist_of_stale ((congrArg (fun m => m.bist.fresh) ht).trans hfresh)
  rw [enter_cold_eq]
  generalize coldAttempt (newClock s) cause r = t at hattempt ⊢
  split
  · rw [hstale { t with tap := { t.tap with cut := false } } hattempt.1]
    exact hattempt
  · rw [hstale t hattempt.1]
    exact hattempt

/-! ### The attempt completes -/

theorem runSteps_cold {s : State} (full : Bool) {r : StartReport} (hr : NothingFails r) (hfails : s.kt.journal.fails < 3)
    (hbist : s.kt.unorderly = false) (hctrl : startControllers s r ≠ []) :
    ∃ t, (runSteps s .cold full false [] r).1 = t ∧ t.kt.life = .running ∧ t.kt.complete = true ∧ t.kt.step = 14 ∧ t.kt.journal.fails = 0
      ∧ carriedOf t = carriedOf s := by
  refine ⟨_, runSteps_clean full false hr hfails (fun _ => hbist) hctrl, ?_⟩
  rw [if_pos rfl]
  obtain ⟨hlife, hcomplete, hstep, hzero⟩ := late_completes (bootRecord (middle (early s .cold false false r)) 9 2 0 0) .cold [] r
  exact ⟨hlife, hcomplete, hstep, hzero, by rw [carried_late_cold _ _ hr, carried_bootRecord, carried_middle, carried_early]⟩

theorem marksOf_dropReady (s : State) (keep : W64) : marksOf (dropReady s keep) = marksOf s := by
  obtain ⟨-, -, -, hperst, -⟩ := carried_fields (carried_setReadyWord s (s.kt.ready &&& keep))
  simp only [marksOf, dropReady_kt]
  exact congrArg (Marks.mk s.kt.good · s.kt.journal.fails s.kt.journal.decisions s.kt.bist) hperst

/-- A cold start with nothing failing goes through all its steps. -/
theorem coldStart_completes {s : State} (hfails : s.kt.journal.fails < 3) (hrun : s.kt.running = false) (hun : s.kt.unorderly = false)
    (hfresh : s.kt.bist.fresh = false) {q : StartReport} (hq : q.controllers = []) (hup : controllersUp s q ≠ []) (cause : Nat) (full : Bool) :
    ∃ t, coldStart s cause full [] = t ∧ t.kt.life = .running ∧ t.kt.complete = true ∧ t.kt.step = 14 ∧ t.kt.cause = cause
      ∧ t.kt.journal.fails = 0 ∧ t.kt.good = s.kt.good ∧ t.pins.perst = s.pins.perst := by
  have hfresh' : (dropReady s kettleOnlyBits).kt.bist.fresh = false := by rw [dropReady_kt]; exact hfresh
  obtain ⟨hmarks, hcause, hunorderly⟩ := enter_cold hfresh' cause (cleanReport (dropReady s kettleOnlyBits))
  rw [marksOf_dropReady] at hmarks
  have hnotBist : (enter (dropReady s kettleOnlyBits) .cold cause (cleanReport (dropReady s kettleOnlyBits))).kt.unorderly = false := by
    rw [hunorderly, dropReady_kt]
    simp [hun, hrun]
  obtain ⟨t, ht, hlife, hcomplete, hstep, hzero, hcarried⟩ := runSteps_cold full (cleanReport_nothingFails (dropReady s kettleOnlyBits))
    ((congrArg Marks.fails hmarks).trans_lt hfails) hnotBist (startControllers_of_decisions (congrArg Marks.decisions hmarks) rfl hq hup)
  obtain ⟨ccause, cgood, -, cperst, -⟩ := carried_fields hcarried
  exact ⟨t, ht, hlife, hcomplete, hstep, ccause.trans hcause, hzero, cgood.trans (congrArg Marks.good hmarks),
    cperst.trans (congrArg Marks.perst hmarks)⟩

/-- The Kettle at power-good, with its own bit of KT_READY. -/
def powered (s : State) : State :=
  kettleUp { s with kt := { s.kt with good := true }, time := if s.kt.life == .off then 0 else s.time }

theorem powered_kt (s : State) : ∃ w, (powered s).kt = { s.kt with good := true, ready := w } := ⟨_, setReady_kt _ _ _⟩

theorem powerGoodAssert_eq {s : State} (hgood : s.kt.good = false) (hlatch : s.kt.latch = false) (hlife : s.kt.life ≠ .held) :
    exec (.powerGoodAssert []) s = .next (coldStart (powered s) 1 (s.kt.life == .off) []) := by
  simp only [exec, execPowerGoodAssert, hgood, hlatch, Bool.or_false, Bool.false_eq_true, if_false, if_neg hlife, powered]

/-- Settles O34: each of the three causes begins a cold start, and a cold start with nothing failing completes. -/
theorem cleanColdStartsComplete : Obligations.CleanColdStartsComplete := by
  unfold Obligations.CleanColdStartsComplete
  intro s hfails hrun hun hfresh hup
  refine ⟨fun hgood hlatch hlife => ?_, fun hlife hgood => ?_, fun hlife hgood hperst => ?_⟩
  · obtain ⟨w, hkt⟩ := powered_kt s
    have hup' : controllersUp (powered s) (cleanReport s) ≠ [] := by rwa [controllersUp, decided, hkt]
    obtain ⟨t, ht, tlife, tcomplete, tstep, tcause, tfails, tgood, -⟩ := coldStart_completes (s := powered s) (by rwa [hkt]) (by rwa [hkt])
      (by rwa [hkt]) (by rwa [hkt]) (q := cleanReport s) rfl hup' 1 (s.kt.life == .off)
    exact ⟨t, (powerGoodAssert_eq hgood hlatch hlife).trans (congrArg Host.Outcome.next ht), tlife, tcomplete, tstep, tcause, tfails,
      tgood.trans (by rw [hkt])⟩
  · obtain ⟨t, ht, tlife, tcomplete, tstep, tcause, tfails, -⟩ := coldStart_completes (s := { s with kt := { s.kt with life := .kettleOnly } })
      hfails hrun hun hfresh (q := cleanReport s) rfl hup 2 (decide (3 ≤ s.kt.journal.fails))
    refine ⟨t, ?_, tlife, tcomplete, tstep, tcause, tfails⟩
    rw [← ht]
    simp [exec, execMrstNRelease, hlife, hgood]
  · obtain ⟨t, ht, tlife, tcomplete, tstep, tcause, tfails, -, tperst⟩ := coldStart_completes (s := { s with pins := { s.pins with perst := false } })
      hfails hrun hun hfresh (q := cleanReport s) rfl hup 3 false
    refine ⟨t, ?_, tlife, tcomplete, tstep, tcause, tfails, tperst⟩
    rw [← ht]
    simp [exec, execPerstNDeassert, hlife, hgood, hperst]

end Sys2Proof.Machine
end

section
/-!
PROOF. Module recovery (R487, R507, R509): the freeze writes the summary, the attempt goes through steps 4 to 14, and every request that
was in flight is reported.
-/
namespace Sys2Proof.Machine

/-! ### Every request in flight is reported (R509) -/

theorem reportAll_eq (s : State) : reportAll s = endSessions (s.reqs.foldl (endOne stFault dtRecovery) s) := rfl

/-- After the report no request and no session is left; the Kettle and the pins are as they were. -/
theorem reportAll_leaves (s : State) : (reportAll s).kt = s.kt ∧ (reportAll s).reqs = [] ∧ (reportAll s).prot.sessions = [] := by
  obtain ⟨hkt, -⟩ := lasting_fields (lasting_foldl _ (lasting_endOne stFault dtRecovery) s.reqs s)
  refine ⟨hkt, List.eq_nil_iff_forall_not_mem.mpr fun y hy => ?_, rfl⟩
  obtain ⟨hmem, hne⟩ := mem_ended (l := s.reqs) (s := s) (.inl (by decide)) hy
  exact hne y hmem rfl

/-! ### A recovery attempt -/

/-- A recovery attempt once its clock counts from 0: the Kettle and the vault run on. -/
def recoveryAttempt (s : State) (cause : Nat) : State :=
  { s with
    kt := { s.kt with
      life := .starting, cause := cause, lastStart := s.kt.ticks, step := 4, powerOns := s.kt.powerOns + 0
      journal := { s.kt.journal with startNo := s.kt.journal.startNo + 1 } } }

theorem enter_recovery_eq (s : State) {kind : StartKind} (hk : kind ≠ .cold) (cause : Nat) (r : StartReport) :
    enter s kind cause r = actBist (recoveryAttempt (newClock s) cause) := by
  cases kind
  case cold => exact absurd rfl hk
  all_goals rfl

/-- What a recovery attempt finds: its cause, and the Kettle's marks and the summary as they stood. -/
theorem enter_recovery {s : State} {kind : StartKind} (hk : kind ≠ .cold) (hfresh : s.kt.bist.fresh = false) (cause : Nat) (r : StartReport) :
    marksOf (enter s kind cause r) = marksOf s ∧ (enter s kind cause r).kt.cause = cause ∧ (enter s kind cause r).kt.summary = s.kt.summary := by
  obtain ⟨hmarks, -, -, -, hsummary⟩ := newClock_keeps s
  have hattempt : marksOf (recoveryAttempt (newClock s) cause) = marksOf s := hmarks
  rw [enter_recovery_eq s hk, actBist_of_stale ((congrArg (fun m => m.bist.fresh) hattempt).trans hfresh)]
  exact ⟨hattempt, rfl, hsummary⟩

/-- A recovery attempt with nothing failing goes through all its steps and reports what was in flight. -/
theorem runSteps_recovery {s : State} {kind : StartKind} (hk : kind ≠ .cold) (link : Bool) {r : StartReport} (hr : NothingFails r)
    (hfails : s.kt.journal.fails < 3) (hctrl : startControllers s r ≠ []) :
    ∃ t, (runSteps s kind false link [] r).1 = t ∧ t.kt.life = .running ∧ t.kt.step = 14 ∧ t.kt.journal.fails = 0
      ∧ t.kt.cause = s.kt.cause ∧ t.kt.summary = s.kt.summary ∧ t.reqs = [] ∧ t.prot.sessions = [] := by
  refine ⟨_, runSteps_clean false link hr hfails (fun h => absurd h hk) hctrl, ?_⟩
  rw [if_neg hk]
  obtain ⟨hlife, -, hstep, hzero⟩ := late_completes (middle (early s kind false link r)) kind [] r
  have hlate := carried_late (middle (early s kind false link r)) kind [] r
  rw [if_neg hk] at hlate
  obtain ⟨lcause, -, lsummary, -, lreqs, lsessions⟩ := carried_fields hlate
  have hsteps : carriedOf (step11 (step10 (middle (early s kind false link r)) r) kind [] r) = carriedOf s := by
    rw [carried_step11 _ _ _ hr.2, carried_step10, carried_middle, carried_early]
  obtain ⟨scause, -, ssummary, -⟩ := carried_fields hsteps
  obtain ⟨rkt, rreqs, rsessions⟩ := reportAll_leaves (step11 (step10 (middle (early s kind false link r)) r) kind [] r)
  exact ⟨hlife, hstep, hzero, lcause.trans ((congrArg Kettle.cause rkt).trans scause),
    lsummary.trans ((congrArg Kettle.summary rkt).trans ssummary), lreqs.trans rreqs, lsessions.trans rsessions⟩

/-! ### The freeze (R507) -/

theorem freeze_kt (s : State) (kind : StartKind) (cause : Nat) :
    (freeze s kind cause).kt.journal = (abandonTest (writeSummary s cause)).kt.journal
      ∧ (freeze s kind cause).kt.bist = (abandonTest (writeSummary s cause)).kt.bist
      ∧ (freeze s kind cause).kt.summary = (abandonTest (writeSummary s cause)).kt.summary := by
  cases kind <;> exact ⟨rfl, rfl, rfl⟩

/-- The freeze leaves the journal and the news of the last self-test as they stood, and writes the summary. -/
theorem freeze_writes (s : State) (kind : StartKind) (cause : Nat) :
    (freeze s kind cause).kt.journal = s.kt.journal ∧ (freeze s kind cause).kt.bist.fresh = s.kt.bist.fresh
      ∧ ∃ l, (freeze s kind cause).kt.summary = some ⟨cause, s.chip.step, l⟩ := by
  obtain ⟨hjournal, hbist, hsummary⟩ := freeze_kt s kind cause
  have ajournal := abandonTest_keeps (·.kt.journal) (fun _ _ _ => rfl) (writeSummary s cause)
  have afresh := abandonTest_keeps (·.kt.bist.fresh) (fun _ _ _ => rfl) (writeSummary s cause)
  have asummary := abandonTest_keeps (·.kt.summary) (fun _ _ _ => rfl) (writeSummary s cause)
  exact ⟨hjournal.trans ajournal, (congrArg BistRes.fresh hbist).trans afresh, _, hsummary.trans asummary⟩

/-! ### The recovery completes -/

theorem recoveryKind_ne_cold (s : State) : recoveryKind s ≠ .cold := by
  unfold recoveryKind
  split <;> decide

/-- A recovery from a frozen module, with nothing failing. -/
theorem recovery_completes {s : State} {kind : StartKind} (hk : kind ≠ .cold) (hfails : s.kt.journal.fails < 3) (hfresh : s.kt.bist.fresh = false)
    {q : StartReport} (hq : q.controllers = []) (hup : controllersUp s q ≠ []) (cause : Nat) (link : Bool) :
    ∃ t, runStarts kind cause link false [] [] s = t ∧ t.kt.life = .running ∧ t.kt.step = 14 ∧ t.kt.journal.fails = 0 ∧ t.kt.cause = cause
      ∧ t.kt.summary = s.kt.summary ∧ t.reqs = [] ∧ t.prot.sessions = [] := by
  obtain ⟨hmarks, hcause, hsummary⟩ := enter_recovery hk hfresh cause (cleanReport s)
  obtain ⟨t, ht, hlife, hstep, hzero, tcause, tsummary, hrest⟩ := runSteps_recovery hk link (cleanReport_nothingFails s)
    ((congrArg Marks.fails hmarks).trans_lt hfails) (startControllers_of_decisions (congrArg Marks.decisions hmarks) rfl hq hup)
  exact ⟨t, ht, hlife, hstep, hzero, tcause.trans hcause, tsummary.trans hsummary, hrest⟩

/-- A fault of the running module: the recovery that it begins completes. -/
theorem failureStart_completes {s : State} (hlife : s.kt.life = .running) (hclear : clearingNow s = false) (hfails : s.kt.journal.fails < 3)
    (hfresh : s.kt.bist.fresh = false) (hup : controllersUp s (cleanReport s) ≠ []) (cause outcome : Nat) :
    ∃ t sm, failureStart s cause outcome [] = t ∧ t.kt.life = .running ∧ t.kt.step = 14 ∧ t.kt.cause = cause ∧ t.kt.journal.fails = 0
      ∧ t.kt.summary = some sm ∧ sm.cause = cause ∧ sm.step = s.chip.step ∧ t.reqs = [] ∧ t.prot.sessions = [] := by
  obtain ⟨hjournal, hstale, l, hsummary⟩ := freeze_writes s (recoveryKind s) cause
  generalize hu : dropReady (freeze s (recoveryKind s) cause) recoveryBits = u
  have hkt : u.kt = _ := hu ▸ dropReady_kt (freeze s (recoveryKind s) cause) recoveryBits
  have hj : u.kt.journal = s.kt.journal := (congrArg Kettle.journal hkt).trans hjournal
  have hup' : controllersUp u (cleanReport s) ≠ [] := by rwa [controllersUp, decided, hj]
  obtain ⟨t, ht, tlife, tstep, tfails, tcause, tsummary, treqs, tsessions⟩ := recovery_completes (recoveryKind_ne_cold s)
    (by rwa [hj]) ((congrArg (·.bist.fresh) hkt).trans (hstale.trans hfresh)) rfl hup' cause (readyBit s bHostlink && !s.pins.perst)
  refine ⟨t, _, ?_, tlife, tstep, tcause, tfails, tsummary.trans ((congrArg Kettle.summary hkt).trans hsummary), rfl, rfl, treqs, tsessions⟩
  rw [← ht, ← hu]
  simp only [failureStart, hclear, hlife, Bool.false_eq_true, if_false, if_true]

theorem deviceReset_running {s : State} (hlife : s.kt.life = .running) (hclear : clearingNow s = false) :
    exec (.firmwareDeviceReset 0xD15E#64 []) s = .next (failureStart s 6 3 []) := by
  have hvalue : fld 0xD15E#64 0 32 = 0xD15E := by decide
  simp [exec, execFirmwareDeviceReset, deviceReset, hvalue, hclear, hlife]

/-- Settles O35: each of the five faults begins a module recovery, and a recovery with nothing failing completes. -/
theorem moduleRecoveriesComplete : Obligations.ModuleRecoveriesComplete := by
  unfold Obligations.ModuleRecoveriesComplete
  intro s i cause hlife hclear hfails hfresh hup hi
  have hbegins : ∃ outcome, exec i s = .next (failureStart s cause outcome []) := by
    simp only [List.mem_cons, Prod.mk.injEq, List.not_mem_nil, or_false] at hi
    obtain ⟨rfl, rfl⟩ | ⟨rfl, rfl⟩ | ⟨rfl, rfl⟩ | ⟨rfl, rfl⟩ | ⟨rfl, rfl⟩ := hi
    · exact ⟨4, rfl⟩
    · exact ⟨3, deviceReset_running hlife hclear⟩
    · exact ⟨3, rfl⟩
    · exact ⟨3, rfl⟩
    · exact ⟨3, rfl⟩
  obtain ⟨outcome, hexec⟩ := hbegins
  obtain ⟨t, sm, ht, hrest⟩ := failureStart_completes hlife hclear hfails hfresh hup cause outcome
  exact ⟨t, sm, hexec.trans (congrArg Host.Outcome.next ht), hrest⟩

end Sys2Proof.Machine
end
